-- ==== Sys2Proof/Word.lean ====
section
/-! DEFINITION. The word types of the machine (R59: words of 32 bits; R112: registers of 64; R26: bytes). -/

namespace Sys2Proof

/-- A byte of memory. -/
abbrev Byte := BitVec 8

/-- A 64-bit register or CSR (R112, R137). -/
abbrev Word := BitVec 64

/-- An instruction word (R59). -/
abbrev IWord := BitVec 32

end Sys2Proof
end

