-- ==== Sys2Proof/Syntax.lean ====
section
/-! DEFINITION. The syntax of the machine's steps: one constructor per row of spec/opcode_table.json.

The first 84 constructors are the device's own steps, which have no encoding; their operands carry what an agent
outside the modelled core supplies (another core, the host, a failing part), or name the queue entry, slot or
hart the step acts on; `h` is always the number of a hart of the modelled core.  The other 287 are the encoded
32-bit words of R59 to R82; their operands are the word's fields, as wide as the word has them (R62).
(Lean's compiler builds no constructor with operands beyond index 244, so what builds the last of them, the
decoder, is marked noncomputable; Lean's kernel evaluates all of it.) -/

namespace Sys2Proof

/-- One step of the machine: an instruction word, or a step of the device (table of operations and events). -/
inductive Instr where
  /-- CONTEXT_SAVE (R152): Firmware service 0x10 of ECALL that saves the core's context into a container. -/
  | contextSave (h : BitVec 1)
  /-- CONTEXT_RESTORE (R155): Firmware service 0x11 of ECALL that checks a container and restores it onto the core. -/
  | contextRestore (h : BitVec 1)
  /-- SCALAR_RESULT_ARRIVAL (R115): A late scalar value (load data, home reply, engine or queue answer) is written to its pending destination and the pending bit clears. -/
  | scalarResultArrival (h : BitVec 1) (r : BitVec 6)
  /-- ARRAY_INSTRUCTION_BEGIN (R171): A queued array instruction or broadcast block begins in an array way once its ordering conditions are met. -/
  | arrayInstructionBegin (k : Nat)
  /-- ARRAY_INSTRUCTION_COMPLETE (R51): An array instruction finishes in every way, writes any scalar result and merges its flags. -/
  | arrayInstructionComplete (k : Nat)
  /-- TILE_ACCEPT (R258): The tile unit accepts one entry per clock from its cores' matrix queues in round-robin order.  For
  another position than this core's, `rows` says which word it is: 16, 32, 64 or 128 a TATTACH of so many, 0 a TDETACH, 1 a
  TMMA under stochastic rounding (log entry 153). -/
  | tileAccept (pos : BitVec 2) (rows : BitVec 8)
  /-- TILE_WORD_COMPLETE (R255): A TMMA, TZERO, TREAD or TLOAD finishes in the tile unit and merges its flags. -/
  | tileWordComplete
  /-- MICRO_THREAD_RELEASE (R235): A selected micro-thread enters private mode once its way has finished earlier queued work. -/
  | microThreadRelease (k : BitVec 5)
  /-- BLOCK_FETCH (R239): A private micro-thread fetches its whole block through the block-fetch port and runs its words. -/
  | blockFetch (k : BitVec 5)
  /-- PEER_FAULT_INTERRUPT (R142): The serving hart takes the peer-fault interrupt 0x24 at a boundary. -/
  | peerFaultInterrupt (h : BitVec 1)
  /-- MESH_INTERRUPT (R369): A hart takes interrupt 0x20 from the head of its mesh interrupt queue. -/
  | meshInterrupt (h : BitVec 1)
  /-- CYCLE_COMPARE (R142): CYCLE reaches TICKCMP and the hart takes interrupt 0x21. -/
  | cycleCompare (h : BitVec 1)
  /-- MAILBOX_INTERRUPT (R142): A host-port hart takes interrupt 0x22 while the arrival list is non-empty. -/
  | mailboxInterrupt (h : BitVec 1)
  /-- FAULT_QUEUE_NON_EMPTY (R405): The service hart takes interrupt 0x23 while an untaken fault record waits. -/
  | faultQueueNonEmpty (h : BitVec 1)
  /-- MICRO_THREAD_SUMMARY (R231): The control hart takes interrupt 0x25 while a watched micro-thread is stopped or faulted. -/
  | microThreadSummary (h : BitVec 1)
  /-- MANAGEMENT_INTERRUPT (R142): A hart takes management interrupt 0x26 for an undelivered management event. -/
  | managementInterrupt (h : BitVec 1)
  /-- ARRAY_PARITY_TRAP (R174): The issuing hart takes asynchronous trap 0x14 after an array parity failure. -/
  | arrayParityTrap (h : BitVec 1)
  /-- BUS_ERROR_TRAP (R317): The issuing hart takes asynchronous trap 0x11 after an error response. -/
  | busErrorTrap (h : BitVec 1)
  /-- STREAM_FAULT_TRAP (R428): The opening hart takes trap 0x15 after a stream ends with status 2 or 3. -/
  | streamFaultTrap (h : BitVec 1)
  /-- DIRECTORY_OVERFLOW_TRAP (R443): Hart 1 of the home core takes trap 0x0F for a directory acquire event. -/
  | directoryOverflowTrap (h : BitVec 1)
  /-- MICRO_THREAD_FAULT_TRAP (R241): The control hart takes trap 0x0E while MTSTAT.FPEND is set. -/
  | microThreadFaultTrap (h : BitVec 1)
  /-- SLEEP_WAKE (R150): An enabled interrupt becomes pending while SLEEP runs with IE clear, and SLEEP completes. -/
  | sleepWake (h : BitVec 1)
  /-- WALK_COMPLETE (R399): A table walk for a TLB miss ends and fills the TLB or reports a translation fault. -/
  | walkComplete (va : BitVec 64)
  /-- HOME_READ_REQUEST (R294): A read, fill, gather or walk read is served at its home slice, controller or port. -/
  | homeReadRequest (pa : Nat)
  /-- HOME_WRITE_ARRIVAL (R293): A write-back, uncached store, engine write or landing reaches its home and enters the byte order. -/
  | homeWriteArrival (own : Option Nat) (pa : Nat) (n : Nat) (v : BitVec 64)
  /-- HOME_ATOMIC (R304): An AMO, SBIND or SUNBIND request is performed atomically at its home and replies with the old value or status. -/
  | homeAtomic (fn : BitVec 5) (pa : Nat) (b : BitVec 64) (c : BitVec 64)
  /-- MONITOR_MATCH_REPLY (R333): A home monitor matches and its reply wakes the waiting WAITA or WAITV. -/
  | monitorMatchReply (h : BitVec 1)
  /-- WAITA_TIMEOUT (R333): WAITTO ticks pass without a match and WAITA writes 0. -/
  | waitaTimeout (h : BitVec 1)
  /-- WAITV_TIMEOUT (R334): WAITTO ticks pass before the WAITV condition and it writes its match mask. -/
  | waitvTimeout (h : BitVec 1)
  /-- VSTR_PACKET_ARRIVAL (R336): A remote-reduce packet is performed at its home, each element as one AMO. -/
  | vstrPacketArrival (own : Option Nat) (pa : Nat) (td : BitVec 5) (x : BitVec 32) (mode : BitVec 3) (sat : Bool)
  /-- SYNC_REQUEST_ARRIVAL (R296): An acquire or release request reaches the object's home and joins its queue or updates holders. -/
  | syncRequestArrival (kind : BitVec 2) (pa : Nat) (core : BitVec 10) (h : BitVec 1) (cid : BitVec 16)
  /-- SYNC_GRANT (R297): A grant reaches the acquiring core, which self-invalidates its bound ranges and completes the acquire. -/
  | syncGrant (h : BitVec 1)
  /-- COPY_CHUNK (R345): The copy engine performs one 4 KiB chunk of a transfer. -/
  | copyChunk (k : BitVec 6)
  /-- COPY_COMPLETE (R346): A transfer's writes are performed, RESULT is written and its slot and interlock entry are freed. -/
  | copyComplete (k : BitVec 6)
  /-- PROMISE_MISSED (R354): CYCLE reaches a CPYW's tick with the ticket incomplete and trap 0x0C is taken. -/
  | promiseMissed (h : BitVec 1)
  /-- FAULT_REPLY (R408): A reply word reaches a core's network interface and retries, aborts or is parked. -/
  | faultReply (w : BitVec 64)
  /-- STREAM_UNIT (R424): A fabric processes one interleave unit of a stream through its graph. -/
  | streamUnit (k : BitVec 3) (u : Nat)
  /-- STREAM_COMPLETE (R428): Every unit has finished, the completion word is stored and the stream's entries and slot are freed. -/
  | streamComplete (k : BitVec 3)
  /-- SCFG_INSTALL (R420): The configuration sequencer writes an image into slot k of every fabric once no open stream uses it. -/
  | scfgInstall (k : BitVec 5)
  /-- CHANNEL_MESSAGE_DELIVERY (R366): An NSEND packet is delivered into the lowest free receive slot of its VN. -/
  | channelMessageDelivery (own : Option Nat) (vn : BitVec 1) (dev : BitVec 12) (core : BitVec 10) (handler : BitVec 32) (payload : List (BitVec 8))
  /-- NPUT_LANDING (R363): An NPUT packet lands in local scratch with its landing transform. -/
  | nputLanding (own : Option Nat) (xform : BitVec 4) (offset : BitVec 22) (dev : BitVec 12) (core : BitVec 10) (payload : List (BitVec 8))
  /-- MESH_MESSAGE_ARRIVAL (R142): A mesh interrupt message enters the addressed hart's mesh interrupt queue. -/
  | meshMessageArrival (own : Option Nat) (h : BitVec 1) (kind : BitVec 2) (payload : BitVec 64) (core : BitVec 10)
  /-- PREEMPT_MESSAGE (R108): A pre-empt message arrives and the core diverts packets, interrupts harts and suspends engines. -/
  | preemptMessage (own : Option Nat) (payload : BitVec 64) (core : BitVec 10)
  /-- SPILL_REDELIVERY (R372): After restore the network interface redelivers spilled entries from head to tail. -/
  | spillRedelivery
  /-- NODE_DISPATCH (R379): The pool gives a waiting TKGET its chosen node and the core acquires the node's operands. -/
  | nodeDispatch (k : Nat)
  /-- NODE_AGING (R378): A ready node's waiting time passes another 65,536 ticks and it joins the tail of the next level. -/
  | nodeAging (id : BitVec 16)
  /-- TRIGGER_ARRIVAL (R385): A trigger reaches a pool slot and spawns a node or sets PENDING. -/
  | triggerArrival (slot : BitVec 8) (pa : Nat)
  /-- TRIGGER_SPAWN_RETRY (R385): A spawn that waited for a full pool is retried when a node slot frees. -/
  | triggerSpawnRetry (slot : BitVec 8)
  /-- MAILBOX_REQUEST (R388): A host write sets a mailbox state word to request and places the slot on the arrival list. -/
  | mailboxRequest (q : BitVec 2) (slot : BitVec 8) (w : BitVec 64)
  /-- MAILBOX_NEXT (R389): A read of NEXT removes the head slot of the arrival list and marks it taken. -/
  | mailboxNext (q : BitVec 2)
  /-- MAILBOX_NOTIFY (R389): A write to NOTIFY sends an MSI-X message to the host. -/
  | mailboxNotify (q : BitVec 2) (n : BitVec 64)
  /-- FAULT_WINDOW_TAKE (R407): A read of TAKE copies the oldest untaken fault record into the hart's RECORD. -/
  | faultWindowTake (h : BitVec 1)
  /-- FAULT_WINDOW_REPLY (R407): A write of REPLY sends a reply word to the named core. -/
  | faultWindowReply (w : BitVec 64)
  /-- DIRECTORY_TAKE (R445): A read of a directory window TAKE copies the oldest untaken event into RECORD. -/
  | directoryTake (slice : BitVec 8) (reader : Nat)
  /-- DIRECTORY_ACK (R445): A write of ACK grants or completes an event and may clear OVF. -/
  | directoryAck (slice : BitVec 8) (w : BitVec 64)
  /-- VIOLATION_LOG_TAKE (R452): A read of the log window TAKE removes the oldest entry into RECORD. -/
  | violationLogTake (q : BitVec 2) (reader : Nat)
  /-- ERROR_COUNTERS_CLEAR (R460): A write to CLEAR of an error window zeroes its counters. -/
  | errorCountersClear (q : BitVec 2)
  /-- HEAT_ENTRY_READ (R457): A read of heat entries returns eight entries and halves each. -/
  | heatEntryRead (c : BitVec 8) (j : BitVec 10)
  /-- HEAT_SEED_WRITE (R457): A write of SEED sets the heat LFSR, storing 1 for 0. -/
  | heatSeedWrite (c : BitVec 8) (v : BitVec 64)
  /-- HEAT_CLEAR (R457): A write of CLEAR zeroes every heat entry and SAMPLED. -/
  | heatClear (c : BitVec 8)
  /-- HOST_FAULT_TAKE (R475): A host read of HTAKE moves the oldest host fault buffer record into HRECORD. -/
  | hostFaultTake (q : BitVec 2)
  /-- HOST_FAULT_REPLY (R475): A host write of HREPLY routes a reply word to the target core. -/
  | hostFaultReply (q : BitVec 2) (w : BitVec 64)
  /-- SVC_RETIRE (R476): Service command op 1 retires a part on the host's command. -/
  | svcRetire (bit : BitVec 8) (part : BitVec 16)
  /-- SVC_CLEAR (R476): Service command op 2 clears a part's bit in the retirement map. -/
  | svcClear (bit : BitVec 8) (part : BitVec 16)
  /-- SVC_RELEASE_HART (R476): Service command op 3 releases a halted hart to continue at PC+4. -/
  | svcReleaseHart (hartid : BitVec 16)
  /-- EVLOG_READ (R476): A host read of EVLOG removes and returns the oldest management event word. -/
  | evlogRead
  /-- CODEC_INSTALL_WRITE (R479): A host write of INSTALL installs the staging table under the count condition. -/
  | codecInstallWrite (k : BitVec 4)
  /-- ATTESTATION_REQUEST (R482): A host write of 1 at 0x3_0040 makes the controller fill and sign the attestation report. -/
  | attestationRequest
  /-- LOAD_START (R481): A host write of START closes LOADWIN and starts step 8 of bring-up. -/
  | loadStart
  /-- REGISTER_WRITE (R476): A write to a management or window register that has no row of its own stores its value. -/
  | registerWrite (addr : BitVec 48) (v : BitVec 64)
  /-- DEVICE_RESET (R481): Reset runs bring-up steps 1 to 6 and releases the compute dies with CYCLE at 0. -/
  | deviceReset
  /-- HARDWARE_ERROR (R460): A part reports a corrected or uncorrectable error, retrain or repeated beat, and it is counted. -/
  | hardwareError (kind : BitVec 4) (part : BitVec 16) (sub : BitVec 4)
  /-- RELOCATION_STALL_END (R284): The relocation stall ends and layer accesses resume through the spill slot, revising copy promises. -/
  | relocationStallEnd (cluster : BitVec 7)
  /-- XRATIO_STALL_END (R20): The layer-bus stall after an XRATIO write ends and the stalled access completes. -/
  | xratioStallEnd (island : BitVec 4)
  /-- POWER_COMPARISON (R484): Every 100,000 ticks the power manager compares POWER with PLIM and lowers or raises one island. -/
  | powerComparison (power : BitVec 16) (islands : List (BitVec 16))
  /-- CODEC_LEARNING_COMPLETE (R438): After 65,536 samples the codec forms VFT[0] and ends learning. -/
  | codecLearningComplete (k : BitVec 4)
  /-- CODEC_RESAMPLE_START (R439): Too many raw superblock writes start a round of re-sampling. -/
  | codecResampleStart (k : BitVec 4)
  /-- SCRUBBER_RECODE (R439): The background scrubber recodes a superblock of the oldest generation under NEWEST. -/
  | scrubberRecode (k : BitVec 4) (frame : Nat) (sb : BitVec 4)
  /-- SCRUBBER_PASS_END (R439): A full scrubber pass ends and raises generation exhaustion if the oldest count is above 0. -/
  | scrubberPassEnd (k : BitVec 4)
  /-- CODEC_TABLE_INSTALL (R439): Once the oldest generation's count is 0, the new table is installed and NEWEST advances. -/
  | codecTableInstall (k : BitVec 4)
  /-- ILLEGAL_INSTRUCTION (R71): A hart issues a word that no table assigns and takes trap 0x01 with no other state change. -/
  | illegalInstruction (w : BitVec 32)
  /-- INSTRUCTION_FETCH_FAULT (R74): The fetch of the word at PC meets a page fault 0x06 or fetch bus error 0x11 and is trapped or parked before any instruction is decoded. -/
  | instructionFetchFault
  /-- HOME_ACKNOWLEDGEMENT (R298): The home's acknowledgement of a release, of arming, or of stores reaching their home arrives and lets the waiting SREL, TKARM or FENCE complete. -/
  | homeAcknowledgement (h : BitVec 1)
  /-- MSIX_VECTOR_UNMASK (R474): A host write that unmasks an MSI-X vector with its pending bit set sends the held message. -/
  | msixVectorUnmask (v : BitVec 9)
  /-- ADD (R121): Writes the 64-bit wrapped sum of ga and gb to gd. -/
  | add (d : BitVec 7) (a : BitVec 7) (b : BitVec 7)
  /-- SUB (R121): Writes the 64-bit wrapped difference of ga and gb to gd. -/
  | sub (d : BitVec 7) (a : BitVec 7) (b : BitVec 7)
  /-- AND (R121): Writes the bitwise AND of ga and gb to gd. -/
  | and (d : BitVec 7) (a : BitVec 7) (b : BitVec 7)
  /-- OR (R121): Writes the bitwise OR of ga and gb to gd. -/
  | or (d : BitVec 7) (a : BitVec 7) (b : BitVec 7)
  /-- XOR (R121): Writes the bitwise XOR of ga and gb to gd. -/
  | xor (d : BitVec 7) (a : BitVec 7) (b : BitVec 7)
  /-- ANDN (R121): Writes ga AND NOT gb to gd. -/
  | andn (d : BitVec 7) (a : BitVec 7) (b : BitVec 7)
  /-- SLL (R121): Shifts ga left by gb[5:0] into gd. -/
  | sll (d : BitVec 7) (a : BitVec 7) (b : BitVec 7)
  /-- SRL (R121): Shifts ga right logically by gb[5:0] into gd. -/
  | srl (d : BitVec 7) (a : BitVec 7) (b : BitVec 7)
  /-- SRA (R121): Shifts ga right arithmetically by gb[5:0] into gd. -/
  | sra (d : BitVec 7) (a : BitVec 7) (b : BitVec 7)
  /-- SLT (R121): Writes 1 to gd when ga is less than gb as signed values, else 0. -/
  | slt (d : BitVec 7) (a : BitVec 7) (b : BitVec 7)
  /-- SLTN (R121): Writes 1 to gd when ga is less than gb as unsigned values, else 0. -/
  | sltn (d : BitVec 7) (a : BitVec 7) (b : BitVec 7)
  /-- MIN (R121): Writes the signed smaller of ga and gb to gd. -/
  | min (d : BitVec 7) (a : BitVec 7) (b : BitVec 7)
  /-- MAX (R121): Writes the signed larger of ga and gb to gd. -/
  | max (d : BitVec 7) (a : BitVec 7) (b : BitVec 7)
  /-- MINN (R121): Writes the unsigned smaller of ga and gb to gd. -/
  | minn (d : BitVec 7) (a : BitVec 7) (b : BitVec 7)
  /-- MAXN (R121): Writes the unsigned larger of ga and gb to gd. -/
  | maxn (d : BitVec 7) (a : BitVec 7) (b : BitVec 7)
  /-- ADDW (R121): Writes the sign-extended 32-bit sum of ga and gb to gd. -/
  | addw (d : BitVec 7) (a : BitVec 7) (b : BitVec 7)
  /-- SUBW (R121): Writes the sign-extended 32-bit difference of ga and gb to gd. -/
  | subw (d : BitVec 7) (a : BitVec 7) (b : BitVec 7)
  /-- CMOV (R121): Copies gb to gd when ga is non-zero, else leaves gd unchanged. -/
  | cmov (d : BitVec 7) (a : BitVec 7) (b : BitVec 7)
  /-- MUL (R122): Writes the low 64 bits of ga times gb to gd after 4 clocks. -/
  | mul (d : BitVec 7) (a : BitVec 7) (b : BitVec 7)
  /-- MULH (R122): Writes the high 64 bits of the signed product of ga and gb to gd. -/
  | mulh (d : BitVec 7) (a : BitVec 7) (b : BitVec 7)
  /-- MULHN (R122): Writes the high 64 bits of the unsigned product of ga and gb to gd. -/
  | mulhn (d : BitVec 7) (a : BitVec 7) (b : BitVec 7)
  /-- DIV (R123): Writes the signed truncated quotient of ga by gb to gd on the shared divider, with fixed results for zero and overflow. -/
  | div (d : BitVec 7) (a : BitVec 7) (b : BitVec 7)
  /-- DIVN (R123): Writes the unsigned quotient of ga by gb to gd, all ones on division by zero. -/
  | divn (d : BitVec 7) (a : BitVec 7) (b : BitVec 7)
  /-- REM (R123): Writes the signed remainder of ga by gb to gd. -/
  | rem (d : BitVec 7) (a : BitVec 7) (b : BitVec 7)
  /-- REMN (R123): Writes the unsigned remainder of ga by gb to gd. -/
  | remn (d : BitVec 7) (a : BitVec 7) (b : BitVec 7)
  /-- CLZ (R122): Writes the count of leading zero bits of ga to gd. -/
  | clz (d : BitVec 7) (a : BitVec 7)
  /-- CTZ (R122): Writes the count of trailing zero bits of ga to gd. -/
  | ctz (d : BitVec 7) (a : BitVec 7)
  /-- POPC (R122): Writes the number of set bits of ga to gd. -/
  | popc (d : BitVec 7) (a : BitVec 7)
  /-- REV (R122): Writes ga with its bit order reversed to gd. -/
  | rev (d : BitVec 7) (a : BitVec 7)
  /-- BSWAP (R122): Writes ga with its byte order reversed to gd. -/
  | bswap (d : BitVec 7) (a : BitVec 7)
  /-- ROTL (R122): Writes ga rotated left by gb[5:0] to gd. -/
  | rotl (d : BitVec 7) (a : BitVec 7) (b : BitVec 7)
  /-- ROTR (R122): Writes ga rotated right by gb[5:0] to gd. -/
  | rotr (d : BitVec 7) (a : BitVec 7) (b : BitVec 7)
  /-- FADD (R130): Adds two f32 values exactly and rounds once under RMODE into gd. -/
  | fadd (d : BitVec 7) (a : BitVec 7) (b : BitVec 7)
  /-- FSUB (R130): Subtracts two f32 values exactly and rounds once into gd. -/
  | fsub (d : BitVec 7) (a : BitVec 7) (b : BitVec 7)
  /-- FMUL (R130): Multiplies two f32 values exactly and rounds once into gd. -/
  | fmul (d : BitVec 7) (a : BitVec 7) (b : BitVec 7)
  /-- FDIV (R130): Divides two f32 values on the shared divider and rounds once into gd. -/
  | fdiv (d : BitVec 7) (a : BitVec 7) (b : BitVec 7)
  /-- FMA (R130): Computes ga times gb plus gd exactly with one f32 rounding into gd. -/
  | fma (d : BitVec 7) (a : BitVec 7) (b : BitVec 7)
  /-- FMIN (R131): Writes the smaller f32 operand pattern to gd, passing over a single NaN. -/
  | fmin (d : BitVec 7) (a : BitVec 7) (b : BitVec 7)
  /-- FMAX (R131): Writes the larger f32 operand pattern to gd, passing over a single NaN. -/
  | fmax (d : BitVec 7) (a : BitVec 7) (b : BitVec 7)
  /-- FSQRT (R130): Writes the rounded f32 square root of ga to gd on the shared divider. -/
  | fsqrt (d : BitVec 7) (a : BitVec 7)
  /-- FEQ (R132): Writes 1 to gd when the two f32 operands are equal, raising no flag on NaN. -/
  | feq (d : BitVec 7) (a : BitVec 7) (b : BitVec 7)
  /-- FLT (R132): Writes 1 to gd when ga is less than gb as f32, raising NV on NaN. -/
  | flt (d : BitVec 7) (a : BitVec 7) (b : BitVec 7)
  /-- FLE (R132): Writes 1 to gd when ga is at most gb as f32, raising NV on NaN. -/
  | fle (d : BitVec 7) (a : BitVec 7) (b : BitVec 7)
  /-- FCVTIS (R133): Converts an f32 value to s64 with toint into gd. -/
  | fcvtis (d : BitVec 7) (a : BitVec 7)
  /-- FCVTSI (R133): Converts a signed 64-bit integer to rounded f32 in gd. -/
  | fcvtsi (d : BitVec 7) (a : BitVec 7)
  /-- FCLASS (R134): Writes a one-hot class mask of an f32 value to gd. -/
  | fclass (d : BitVec 7) (a : BitVec 7)
  /-- FCVTBF (R133): Rounds an f32 value to bf16 in gd. -/
  | fcvtbf (d : BitVec 7) (a : BitVec 7)
  /-- FCVTFB (R133): Widens a bf16 value exactly to f32 in gd. -/
  | fcvtfb (d : BitVec 7) (a : BitVec 7)
  /-- ADDI (R124): Adds a sign-extended 12-bit immediate to ga into gd. -/
  | addi (d : BitVec 7) (a : BitVec 7) (i : BitVec 12)
  /-- ANDI (R124): ANDs ga with a zero-extended 12-bit immediate into gd. -/
  | andi (d : BitVec 7) (a : BitVec 7) (i : BitVec 12)
  /-- ORI (R124): ORs ga with a zero-extended 12-bit immediate into gd. -/
  | ori (d : BitVec 7) (a : BitVec 7) (i : BitVec 12)
  /-- XORI (R124): XORs ga with a zero-extended 12-bit immediate into gd. -/
  | xori (d : BitVec 7) (a : BitVec 7) (i : BitVec 12)
  /-- SLLI (R124): Shifts ga left by an immediate amount into gd. -/
  | slli (d : BitVec 7) (a : BitVec 7) (n : BitVec 6)
  /-- SRLI (R124): Shifts ga right logically by an immediate amount into gd. -/
  | srli (d : BitVec 7) (a : BitVec 7) (n : BitVec 6)
  /-- SRAI (R124): Shifts ga right arithmetically by an immediate amount into gd. -/
  | srai (d : BitVec 7) (a : BitVec 7) (n : BitVec 6)
  /-- SLTI (R124): Writes 1 to gd when ga is signed-less than the sign-extended immediate. -/
  | slti (d : BitVec 7) (a : BitVec 7) (i : BitVec 12)
  /-- LIH (R125): Loads the sign-extended immediate shifted left by 13 into gd. -/
  | lih (d : BitVec 7) (i : BitVec 19)
  /-- AUIP (R125): Writes PC plus the shifted immediate to gd. -/
  | auip (d : BitVec 7) (i : BitVec 19)
  /-- JAL (R126): Writes PC+4 to g1 and jumps by four times the 26-bit offset. -/
  | jal (i : BitVec 26)
  /-- JALR (R126): Jumps to ga plus the offset with bits 1:0 cleared and writes PC+4 to gd. -/
  | jalr (d : BitVec 7) (a : BitVec 7) (i : BitVec 12)
  /-- BEQ (R127): Branches when ga equals gb. -/
  | beq (i : BitVec 7) (a : BitVec 7) (b : BitVec 7) (i2 : BitVec 5)
  /-- BNE (R127): Branches when ga differs from gb. -/
  | bne (i : BitVec 7) (a : BitVec 7) (b : BitVec 7) (i2 : BitVec 5)
  /-- BLT (R127): Branches when ga is signed-less than gb. -/
  | blt (i : BitVec 7) (a : BitVec 7) (b : BitVec 7) (i2 : BitVec 5)
  /-- BGE (R127): Branches when ga is signed-greater or equal to gb. -/
  | bge (i : BitVec 7) (a : BitVec 7) (b : BitVec 7) (i2 : BitVec 5)
  /-- BLTN (R127): Branches when ga is unsigned-less than gb. -/
  | bltn (i : BitVec 7) (a : BitVec 7) (b : BitVec 7) (i2 : BitVec 5)
  /-- BGEN (R127): Branches when ga is unsigned-greater or equal to gb. -/
  | bgen (i : BitVec 7) (a : BitVec 7) (b : BitVec 7) (i2 : BitVec 5)
  /-- LB (R318): Loads a sign-extended byte from global memory into gd. -/
  | lb (d : BitVec 7) (a : BitVec 7) (i : BitVec 9)
  /-- LH (R318): Loads a sign-extended halfword into gd. -/
  | lh (d : BitVec 7) (a : BitVec 7) (i : BitVec 9)
  /-- LW (R318): Loads a sign-extended word into gd. -/
  | lw (d : BitVec 7) (a : BitVec 7) (i : BitVec 9)
  /-- LD (R318): Loads a doubleword into gd. -/
  | ld (d : BitVec 7) (a : BitVec 7) (i : BitVec 9)
  /-- LBZ (R318): Loads a zero-extended byte into gd. -/
  | lbz (d : BitVec 7) (a : BitVec 7) (i : BitVec 9)
  /-- LHZ (R318): Loads a zero-extended halfword into gd. -/
  | lhz (d : BitVec 7) (a : BitVec 7) (i : BitVec 9)
  /-- LWZ (R318): Loads a zero-extended word into gd. -/
  | lwz (d : BitVec 7) (a : BitVec 7) (i : BitVec 9)
  /-- SB (R318): Stores the low byte of gs to global memory. -/
  | sb (s : BitVec 7) (a : BitVec 7) (i : BitVec 9)
  /-- SH (R318): Stores the low halfword of gs. -/
  | sh (s : BitVec 7) (a : BitVec 7) (i : BitVec 9)
  /-- SW (R318): Stores the low word of gs. -/
  | sw (s : BitVec 7) (a : BitVec 7) (i : BitVec 9)
  /-- SD (R318): Stores the doubleword gs. -/
  | sd (s : BitVec 7) (a : BitVec 7) (i : BitVec 9)
  /-- AADD (R330): Atomically adds gb to the 64-bit word at ga at its home and returns the old value. -/
  | aadd (d : BitVec 7) (a : BitVec 7) (b : BitVec 7)
  /-- ASWAP (R330): Atomically swaps gb into the 64-bit word at ga. -/
  | aswap (d : BitVec 7) (a : BitVec 7) (b : BitVec 7)
  /-- AAND (R330): Atomically ANDs gb into the 64-bit word at ga. -/
  | aand (d : BitVec 7) (a : BitVec 7) (b : BitVec 7)
  /-- AOR (R330): Atomically ORs gb into the 64-bit word at ga. -/
  | aor (d : BitVec 7) (a : BitVec 7) (b : BitVec 7)
  /-- AXOR (R330): Atomically XORs gb into the 64-bit word at ga. -/
  | axor (d : BitVec 7) (a : BitVec 7) (b : BitVec 7)
  /-- AMIN (R330): Atomically stores the signed minimum of the word and gb. -/
  | amin (d : BitVec 7) (a : BitVec 7) (b : BitVec 7)
  /-- AMAX (R330): Atomically stores the signed maximum of the word and gb. -/
  | amax (d : BitVec 7) (a : BitVec 7) (b : BitVec 7)
  /-- AMINN (R330): Atomically stores the unsigned minimum of the word and gb. -/
  | aminn (d : BitVec 7) (a : BitVec 7) (b : BitVec 7)
  /-- AMAXN (R330): Atomically stores the unsigned maximum of the word and gb. -/
  | amaxn (d : BitVec 7) (a : BitVec 7) (b : BitVec 7)
  /-- ACAS (R330): Atomically replaces the 64-bit word by gb when it equals gd. -/
  | acas (d : BitVec 7) (a : BitVec 7) (b : BitVec 7)
  /-- AADDW (R330): Atomically adds gb into the 32-bit word at ga. -/
  | aaddw (d : BitVec 7) (a : BitVec 7) (b : BitVec 7)
  /-- ASWAPW (R330): Atomically swaps into the 32-bit word at ga. -/
  | aswapw (d : BitVec 7) (a : BitVec 7) (b : BitVec 7)
  /-- AANDW (R330): Atomically ANDs into the 32-bit word at ga. -/
  | aandw (d : BitVec 7) (a : BitVec 7) (b : BitVec 7)
  /-- AORW (R330): Atomically ORs into the 32-bit word at ga. -/
  | aorw (d : BitVec 7) (a : BitVec 7) (b : BitVec 7)
  /-- AXORW (R330): Atomically XORs into the 32-bit word at ga. -/
  | axorw (d : BitVec 7) (a : BitVec 7) (b : BitVec 7)
  /-- AMINW (R330): Atomic signed 32-bit minimum. -/
  | aminw (d : BitVec 7) (a : BitVec 7) (b : BitVec 7)
  /-- AMAXW (R330): Atomic signed 32-bit maximum. -/
  | amaxw (d : BitVec 7) (a : BitVec 7) (b : BitVec 7)
  /-- AMINNW (R330): Atomic unsigned 32-bit minimum. -/
  | aminnw (d : BitVec 7) (a : BitVec 7) (b : BitVec 7)
  /-- AMAXNW (R330): Atomic unsigned 32-bit maximum. -/
  | amaxnw (d : BitVec 7) (a : BitVec 7) (b : BitVec 7)
  /-- ACASW (R330): Atomic 32-bit compare and swap. -/
  | acasw (d : BitVec 7) (a : BitVec 7) (b : BitVec 7)
  /-- AFADD (R330): Atomically adds an f32 value to the 32-bit word at ga under RNE at its home. -/
  | afadd (d : BitVec 7) (a : BitVec 7) (b : BitVec 7)
  /-- SBIND (R332): Reads a range pair and asks the object's home to add it to the range record, returning a status. -/
  | sbind (d : BitVec 7) (a : BitVec 7) (b : BitVec 7)
  /-- SUNBIND (R332): Asks the object's home to remove a bound range, returning a status. -/
  | sunbind (d : BitVec 7) (a : BitVec 7) (b : BitVec 7)
  /-- SACQ (R297): Requests an exclusive acquire of a sync object and sleeps until granted. -/
  | sacq (a : BitVec 7)
  /-- SACQS (R297): Requests a shared acquire of a sync object and sleeps until granted. -/
  | sacqs (a : BitVec 7)
  /-- STRY (R296): Tries an exclusive acquire that is granted only at once, writing 1 or 0. -/
  | stry (d : BitVec 7) (a : BitVec 7)
  /-- SREL (R298): Releases a sync object after performing and writing back earlier stores to its ranges. -/
  | srel (a : BitVec 7)
  /-- FENCE (R306): Waits until earlier accesses of the named kind are performed at the scope and layer. -/
  | fence (s : BitVec 3) (l : BitVec 2) (k : BitVec 2)
  /-- WAITA (R333): Arms a home monitor on a 64-bit word and sleeps until it equals gb or WAITTO expires. -/
  | waita (d : BitVec 7) (a : BitVec 7) (b : BitVec 7)
  /-- CSRR (R147): Reads a CSR into gd. -/
  | csrr (d : BitVec 7) (c : BitVec 10)
  /-- CSRW (R147): Writes ga to a CSR and returns its old value, with the CSR's own side effects. -/
  | csrw (d : BitVec 7) (a : BitVec 7) (c : BitVec 10)
  /-- CSRS (R147): Sets the bits of ga in a CSR and returns its old value. -/
  | csrs (d : BitVec 7) (a : BitVec 7) (c : BitVec 10)
  /-- CSRC (R147): Clears the bits of ga in a CSR and returns its old value. -/
  | csrc (d : BitVec 7) (a : BitVec 7) (c : BitVec 10)
  /-- ECALL (R149): Traps with cause 0x12 to level 1 or firmware. -/
  | ecall
  /-- EBREAK (R149): Traps with cause 0x13. -/
  | ebreak
  /-- ERET (R146): Returns from a trap to EPC, restoring level and IE and re-applying a saved prefix. -/
  | eret
  /-- SLEEP (R150): Puts the hart to sleep until an enabled interrupt is pending or the other hart issues SWITCH. -/
  | sleep
  /-- SWITCH (R150): Resumes a parked peer, or ends its SLEEP, or does nothing. -/
  | switch
  /-- TLBINV (R402): Removes matching TLB, walker-cache and fabric TLB entries and waits for accesses through them. -/
  | tlbinv (a : BitVec 7) (b : BitVec 7)
  /-- ICINV (R149): Discards prefetched instruction words and the core's instruction cache lines. -/
  | icinv
  /-- XPROBE (R404): Translates ga without faulting and writes the result to gd. -/
  | xprobe (d : BitVec 7) (a : BitVec 7)
  /-- AOWN (R95): Passes array ownership to the other hart when it retires. -/
  | aown
  /-- HALT (R150): Stops the hart until released by the host or device reset. -/
  | halt
  /-- FMT (R151): Prefix that sets types, rounding, saturation and scale mode for the next instruction word. -/
  | fmt (t : BitVec 5) (u : BitVec 5) (v : BitVec 5) (r : BitVec 3) (s : BitVec 1) (c : BitVec 2)
  /-- LDL (R320): Loads a doubleword from local scratch into gd. -/
  | ldl (d : BitVec 7) (a : BitVec 7) (i : BitVec 10)
  /-- STL (R320): Stores a doubleword to local scratch, posted. -/
  | stl (s : BitVec 7) (a : BitVec 7) (i : BitVec 10)
  /-- LDY (R320): Loads a doubleword from layer space into gd across the layer bus. -/
  | ldy (d : BitVec 7) (a : BitVec 7) (i : BitVec 10)
  /-- STY (R320): Stores a doubleword to layer space, posted. -/
  | sty (s : BitVec 7) (a : BitVec 7) (i : BitVec 10)
  /-- CPY (R353): Checks a command block and hands a transfer to the copy engine, returning its promise. -/
  | cpy (d : BitVec 7) (a : BitVec 7)
  /-- CPYW (R354): Sleeps until a ticket completes or CYCLE reaches the tick. -/
  | cpyw (a : BitVec 7) (b : BitVec 7)
  /-- CPYQ (R355): Writes the state and current promise of a ticket without waiting. -/
  | cpyq (d : BitVec 7) (a : BitVec 7)
  /-- CPYX (R356): Requests cancellation of a live copy transfer. -/
  | cpyx (a : BitVec 7)
  /-- NSEND (R361): Reads a payload from local scratch and sends it as a channel message on VN0 or VN1. -/
  | nsend (d : BitVec 7) (a : BitVec 7) (b : BitVec 7)
  /-- NPUT (R362): Reads a payload and sends it as remote-store packets on VN2 with an optional landing transform. -/
  | nput (d : BitVec 7) (a : BitVec 7) (b : BitVec 7)
  /-- NRECV (R368): Takes the oldest full receive slot of a VN and writes its handle, or -1. -/
  | nrecv (d : BitVec 7) (a : BitVec 7)
  /-- NPOLL (R368): Writes the number of full receive slots of a VN. -/
  | npoll (d : BitVec 7) (a : BitVec 7)
  /-- NFREE (R368): Frees the taken receive slot that contains the given offset. -/
  | nfree (a : BitVec 7)
  /-- NINT (R369): Sends a mesh interrupt message of kind program or pre-empt on VN3. -/
  | nint (a : BitVec 7) (b : BitVec 7)
  /-- TKSPAWN (R376): Reads and checks a node record and spawns it in the quadrant's task pool. -/
  | tkspawn (d : BitVec 7) (a : BitVec 7)
  /-- TKGET (R379): Sleeps until the pool gives the hart a placeable ready node. -/
  | tkget (d : BitVec 7)
  /-- TKDONE (R380): Releases a taken node's operands and tells the pool to release its successors. -/
  | tkdone (a : BitVec 7)
  /-- TKARM (R383): Arms or disarms a trigger slot on an 8-byte word of an MS page. -/
  | tkarm (a : BitVec 7) (b : BitVec 7)
  /-- TKBIND (R384): Binds a template record to a trigger slot. -/
  | tkbind (a : BitVec 7) (b : BitVec 7)
  /-- TKUNBIND (R384): Removes the binding of a trigger slot. -/
  | tkunbind (a : BitVec 7)
  /-- TKDEP (R381): Adds a dependency edge between two nodes in the pool. -/
  | tkdep (a : BitVec 7) (b : BitVec 7)
  /-- SCFG (R421): Reads a graph image and asks the configuration sequencer to install it in a slot. -/
  | scfg (d : BitVec 7) (a : BitVec 7) (b : BitVec 7)
  /-- SOPEN (R431): Checks a stream parameter block and opens a stream. -/
  | sopen (d : BitVec 7) (a : BitVec 7)
  /-- SCLOSE (R432): Cancels a live stream. -/
  | sclose (a : BitVec 7)
  /-- SSTAT (R432): Writes the state and counts of a stream without waiting. -/
  | sstat (d : BitVec 7) (a : BitVec 7)
  /-- VADD (R186): Adds two integer array groups element-wise with wrap. -/
  | vadd (d : BitVec 7) (a : BitVec 7) (b : BitVec 7) (k : BitVec 1) (j : BitVec 1) (p : BitVec 2)
  /-- VSUB (R186): Subtracts two integer array groups element-wise with wrap. -/
  | vsub (d : BitVec 7) (a : BitVec 7) (b : BitVec 7) (k : BitVec 1) (j : BitVec 1) (p : BitVec 2)
  /-- VADDS (R187): Adds element-wise with saturation, raising SAT on a clamp. -/
  | vadds (d : BitVec 7) (a : BitVec 7) (b : BitVec 7) (k : BitVec 1) (j : BitVec 1) (p : BitVec 2)
  /-- VSUBS (R187): Subtracts element-wise with saturation. -/
  | vsubs (d : BitVec 7) (a : BitVec 7) (b : BitVec 7) (k : BitVec 1) (j : BitVec 1) (p : BitVec 2)
  /-- VMUL (R188): Multiplies element-wise keeping the low n bits. -/
  | vmul (d : BitVec 7) (a : BitVec 7) (b : BitVec 7) (k : BitVec 1) (j : BitVec 1) (p : BitVec 2)
  /-- VMULH (R188): Multiplies element-wise keeping the high n bits. -/
  | vmulh (d : BitVec 7) (a : BitVec 7) (b : BitVec 7) (k : BitVec 1) (j : BitVec 1) (p : BitVec 2)
  /-- VMIN (R191): Writes the signed minimum element-wise. -/
  | vmin (d : BitVec 7) (a : BitVec 7) (b : BitVec 7) (k : BitVec 1) (j : BitVec 1) (p : BitVec 2)
  /-- VMAX (R191): Writes the signed maximum element-wise. -/
  | vmax (d : BitVec 7) (a : BitVec 7) (b : BitVec 7) (k : BitVec 1) (j : BitVec 1) (p : BitVec 2)
  /-- VMINN (R191): Writes the unsigned minimum element-wise. -/
  | vminn (d : BitVec 7) (a : BitVec 7) (b : BitVec 7) (k : BitVec 1) (j : BitVec 1) (p : BitVec 2)
  /-- VMAXN (R191): Writes the unsigned maximum element-wise. -/
  | vmaxn (d : BitVec 7) (a : BitVec 7) (b : BitVec 7) (k : BitVec 1) (j : BitVec 1) (p : BitVec 2)
  /-- VAND (R192): Bitwise AND of two array groups. -/
  | vand (d : BitVec 7) (a : BitVec 7) (b : BitVec 7) (k : BitVec 1) (j : BitVec 1) (p : BitVec 2)
  /-- VOR (R192): Bitwise OR of two array groups. -/
  | vor (d : BitVec 7) (a : BitVec 7) (b : BitVec 7) (k : BitVec 1) (j : BitVec 1) (p : BitVec 2)
  /-- VXOR (R192): Bitwise XOR of two array groups. -/
  | vxor (d : BitVec 7) (a : BitVec 7) (b : BitVec 7) (k : BitVec 1) (j : BitVec 1) (p : BitVec 2)
  /-- VBOOL (R194): Applies the BOOLT truth table to one register of ad, as1 and as2. -/
  | vbool (d : BitVec 7) (a : BitVec 7) (b : BitVec 7) (k : BitVec 1) (j : BitVec 1) (p : BitVec 2)
  /-- VSLL (R196): Shifts each element left by the amount in as2. -/
  | vsll (d : BitVec 7) (a : BitVec 7) (b : BitVec 7) (k : BitVec 1) (j : BitVec 1) (p : BitVec 2)
  /-- VSRL (R196): Shifts each element right logically by the amount in as2. -/
  | vsrl (d : BitVec 7) (a : BitVec 7) (b : BitVec 7) (k : BitVec 1) (j : BitVec 1) (p : BitVec 2)
  /-- VSRA (R196): Shifts each element right arithmetically by the amount in as2. -/
  | vsra (d : BitVec 7) (a : BitVec 7) (b : BitVec 7) (k : BitVec 1) (j : BitVec 1) (p : BitVec 2)
  /-- VMERGE (R195): Chooses as1 or as2 per element by row 0 of a0. -/
  | vmerge (d : BitVec 7) (a : BitVec 7) (b : BitVec 7) (k : BitVec 1) (j : BitVec 1)
  /-- VMAC (R189): Multiply-accumulates into the destination with wrap. -/
  | vmac (d : BitVec 7) (a : BitVec 7) (b : BitVec 7) (k : BitVec 1) (j : BitVec 1) (p : BitVec 2)
  /-- VWMAC (R189): Widening multiply-accumulate into a double-width destination. -/
  | vwmac (d : BitVec 7) (a : BitVec 7) (b : BitVec 7) (k : BitVec 1) (j : BitVec 1) (p : BitVec 2)
  /-- VDOT (R190): Adds four-element dot products into every fourth destination element with wrap. -/
  | vdot (d : BitVec 7) (a : BitVec 7) (b : BitVec 7) (k : BitVec 1) (j : BitVec 1) (p : BitVec 2)
  /-- VDOTS (R190): Adds four-element dot products with one final saturation. -/
  | vdots (d : BitVec 7) (a : BitVec 7) (b : BitVec 7) (k : BitVec 1) (j : BitVec 1) (p : BitVec 2)
  /-- VFADD (R209): Floating-point add element-wise, rounded once. -/
  | vfadd (d : BitVec 7) (a : BitVec 7) (b : BitVec 7) (k : BitVec 1) (j : BitVec 1) (p : BitVec 2)
  /-- VFSUB (R209): Floating-point subtract element-wise. -/
  | vfsub (d : BitVec 7) (a : BitVec 7) (b : BitVec 7) (k : BitVec 1) (j : BitVec 1) (p : BitVec 2)
  /-- VFMUL (R209): Floating-point multiply element-wise. -/
  | vfmul (d : BitVec 7) (a : BitVec 7) (b : BitVec 7) (k : BitVec 1) (j : BitVec 1) (p : BitVec 2)
  /-- VFMA (R209): Fused multiply-add into the destination accumulator. -/
  | vfma (d : BitVec 7) (a : BitVec 7) (b : BitVec 7) (k : BitVec 1) (j : BitVec 1) (p : BitVec 2)
  /-- VFMIN (R210): Copies the smaller floating-point operand pattern. -/
  | vfmin (d : BitVec 7) (a : BitVec 7) (b : BitVec 7) (k : BitVec 1) (j : BitVec 1) (p : BitVec 2)
  /-- VFMAX (R210): Copies the larger floating-point operand pattern. -/
  | vfmax (d : BitVec 7) (a : BitVec 7) (b : BitVec 7) (k : BitVec 1) (j : BitVec 1) (p : BitVec 2)
  /-- VFDIV (R209): Floating-point divide element-wise. -/
  | vfdiv (d : BitVec 7) (a : BitVec 7) (b : BitVec 7) (k : BitVec 1) (j : BitVec 1) (p : BitVec 2)
  /-- VFMS (R209): Fused multiply-subtract from the destination accumulator. -/
  | vfms (d : BitVec 7) (a : BitVec 7) (b : BitVec 7) (k : BitVec 1) (j : BitVec 1) (p : BitVec 2)
  /-- VCFLE (R211): Floating-point less-or-equal compare into a mask register. -/
  | vcfle (d : BitVec 7) (a : BitVec 7) (b : BitVec 7) (k : BitVec 1) (j : BitVec 1) (p : BitVec 2)
  /-- VCFUN (R211): Floating-point unordered compare into a mask register. -/
  | vcfun (d : BitVec 7) (a : BitVec 7) (b : BitVec 7) (k : BitVec 1) (j : BitVec 1) (p : BitVec 2)
  /-- VCEQ (R191): Integer equality compare into a mask register. -/
  | vceq (d : BitVec 7) (a : BitVec 7) (b : BitVec 7) (k : BitVec 1) (j : BitVec 1) (p : BitVec 2)
  /-- VCNE (R191): Integer inequality compare into a mask register. -/
  | vcne (d : BitVec 7) (a : BitVec 7) (b : BitVec 7) (k : BitVec 1) (j : BitVec 1) (p : BitVec 2)
  /-- VCLT (R191): Signed less-than compare into a mask register. -/
  | vclt (d : BitVec 7) (a : BitVec 7) (b : BitVec 7) (k : BitVec 1) (j : BitVec 1) (p : BitVec 2)
  /-- VCGE (R191): Signed greater-or-equal compare into a mask register. -/
  | vcge (d : BitVec 7) (a : BitVec 7) (b : BitVec 7) (k : BitVec 1) (j : BitVec 1) (p : BitVec 2)
  /-- VCLTN (R191): Unsigned less-than compare into a mask register. -/
  | vcltn (d : BitVec 7) (a : BitVec 7) (b : BitVec 7) (k : BitVec 1) (j : BitVec 1) (p : BitVec 2)
  /-- VCGEN (R191): Unsigned greater-or-equal compare into a mask register. -/
  | vcgen (d : BitVec 7) (a : BitVec 7) (b : BitVec 7) (k : BitVec 1) (j : BitVec 1) (p : BitVec 2)
  /-- VCFEQ (R211): Floating-point equality compare into a mask register. -/
  | vcfeq (d : BitVec 7) (a : BitVec 7) (b : BitVec 7) (k : BitVec 1) (j : BitVec 1) (p : BitVec 2)
  /-- VCFLT (R211): Floating-point less-than compare into a mask register. -/
  | vcflt (d : BitVec 7) (a : BitVec 7) (b : BitVec 7) (k : BitVec 1) (j : BitVec 1) (p : BitVec 2)
  /-- VMOV (R192): Copies an array group element-wise. -/
  | vmov (d : BitVec 7) (a : BitVec 7) (k : BitVec 1) (p : BitVec 2)
  /-- VNOT (R192): Bitwise NOT of an array group. -/
  | vnot (d : BitVec 7) (a : BitVec 7) (k : BitVec 1) (p : BitVec 2)
  /-- VNEG (R198): Integer negation with wrap. -/
  | vneg (d : BitVec 7) (a : BitVec 7) (k : BitVec 1) (p : BitVec 2)
  /-- VABS (R198): Integer absolute value with wrap. -/
  | vabs (d : BitVec 7) (a : BitVec 7) (k : BitVec 1) (p : BitVec 2)
  /-- VFNEG (R210): Inverts the sign bit of each floating-point pattern. -/
  | vfneg (d : BitVec 7) (a : BitVec 7) (k : BitVec 1) (p : BitVec 2)
  /-- VFABS (R210): Clears the sign bit of each floating-point pattern. -/
  | vfabs (d : BitVec 7) (a : BitVec 7) (k : BitVec 1) (p : BitVec 2)
  /-- VFSQRT (R212): Rounded floating-point square root element-wise. -/
  | vfsqrt (d : BitVec 7) (a : BitVec 7) (k : BitVec 1) (p : BitVec 2)
  /-- VEXP2 (R212): Base-2 exponential element-wise with fixed results. -/
  | vexp2 (d : BitVec 7) (a : BitVec 7) (k : BitVec 1) (p : BitVec 2)
  /-- VLOG2 (R212): Base-2 logarithm element-wise. -/
  | vlog2 (d : BitVec 7) (a : BitVec 7) (k : BitVec 1) (p : BitVec 2)
  /-- VRCP (R212): Reciprocal element-wise. -/
  | vrcp (d : BitVec 7) (a : BitVec 7) (k : BitVec 1) (p : BitVec 2)
  /-- VRSQRT (R212): Reciprocal square root element-wise. -/
  | vrsqrt (d : BitVec 7) (a : BitVec 7) (k : BitVec 1) (p : BitVec 2)
  /-- VCVT (R213): Converts each element between types, optionally block-scaled, with one rounding. -/
  | vcvt (d : BitVec 7) (a : BitVec 7) (k : BitVec 1) (p : BitVec 2)
  /-- VCLZ (R199): Counts leading zeros of each element. -/
  | vclz (d : BitVec 7) (a : BitVec 7) (k : BitVec 1) (p : BitVec 2)
  /-- VPOPC (R199): Counts set bits of each element. -/
  | vpopc (d : BitVec 7) (a : BitVec 7) (k : BitVec 1) (p : BitVec 2)
  /-- VSEARCH (R201): Compares each element with AKEY under AKMASK into a mask register. -/
  | vsearch (d : BitVec 7) (a : BitVec 7) (k : BitVec 1) (p : BitVec 2)
  /-- VKWRITE (R202): Writes the AKEY bits selected by AKMASK into the elements that a0 marks. -/
  | vkwrite (d : BitVec 7) (a : BitVec 7) (k : BitVec 1) (p : BitVec 1)
  /-- VCOMPRESS (R224): Packs the elements that a0 marks into consecutive positions from START. -/
  | vcompress (d : BitVec 7) (a : BitVec 7)
  /-- VEXPAND (R224): Spreads consecutive source elements to the positions that a0 marks. -/
  | vexpand (d : BitVec 7) (a : BitVec 7)
  /-- VREV (R222): Reverses the element order between START and VL. -/
  | vrev (d : BitVec 7) (a : BitVec 7) (p : BitVec 2)
  /-- VIOTA (R223): Writes to each element the count of earlier marked elements. -/
  | viota (d : BitVec 7) (a : BitVec 7) (p : BitVec 2)
  /-- VBCAST (R225): Broadcasts a scalar into every active element. -/
  | vbcast (d : BitVec 7) (x : BitVec 7)
  /-- VEXTR (R225): Extracts one element into a scalar register. -/
  | vextr (d : BitVec 7) (s : BitVec 7) (x : BitVec 7)
  /-- VINSR (R225): Inserts a scalar into one element. -/
  | vinsr (d : BitVec 7) (s : BitVec 7) (x : BitVec 7)
  /-- VSLLI (R197): Shifts each element left by an immediate. -/
  | vslli (d : BitVec 7) (s : BitVec 7) (i : BitVec 7)
  /-- VSRLI (R197): Shifts each element right logically by an immediate. -/
  | vsrli (d : BitVec 7) (s : BitVec 7) (i : BitVec 7)
  /-- VSRAI (R197): Shifts each element right arithmetically by an immediate. -/
  | vsrai (d : BitVec 7) (s : BitVec 7) (i : BitVec 7)
  /-- VADDI (R186): Adds a signed 7-bit immediate to each element with wrap. -/
  | vaddi (d : BitVec 7) (s : BitVec 7) (i : BitVec 7)
  /-- VSLIDEUP (R221): Moves elements up by a scalar amount. -/
  | vslideup (d : BitVec 7) (s : BitVec 7) (x : BitVec 7)
  /-- VSLIDEDN (R221): Moves elements down by a scalar amount, filling with 0. -/
  | vslidedn (d : BitVec 7) (s : BitVec 7) (x : BitVec 7)
  /-- VREDSUM (R216): Sums active integer elements exactly into a scalar. -/
  | vredsum (d : BitVec 7) (s : BitVec 7)
  /-- VREDMIN (R216): Reduces active elements to their minimum in a scalar. -/
  | vredmin (d : BitVec 7) (s : BitVec 7)
  /-- VREDMAX (R216): Reduces active elements to their maximum in a scalar. -/
  | vredmax (d : BitVec 7) (s : BitVec 7)
  /-- VREDAND (R216): Reduces active elements by bitwise AND. -/
  | vredand (d : BitVec 7) (s : BitVec 7)
  /-- VREDOR (R216): Reduces active elements by bitwise OR. -/
  | vredor (d : BitVec 7) (s : BitVec 7)
  /-- VREDXOR (R216): Reduces active elements by bitwise XOR. -/
  | vredxor (d : BitVec 7) (s : BitVec 7)
  /-- VFREDSUM (R52): Sums active floating-point elements in the published tree into an f32 scalar. -/
  | vfredsum (d : BitVec 7) (s : BitVec 7) (x : BitVec 7)
  /-- VFREDMAX (R216): Writes the largest active floating-point element as f32. -/
  | vfredmax (d : BitVec 7) (s : BitVec 7)
  /-- VFREDMIN (R216): Writes the smallest active floating-point element as f32. -/
  | vfredmin (d : BitVec 7) (s : BitVec 7)
  /-- VSEGSUM (R217): Sums each 32-element block into one destination element. -/
  | vsegsum (d : BitVec 7) (s : BitVec 7) (x : BitVec 7)
  /-- VMPOPC (R218): Counts marked elements into a scalar. -/
  | vmpopc (d : BitVec 7) (s : BitVec 7)
  /-- VMFIRST (R218): Writes the index of the first marked element, or -1. -/
  | vmfirst (d : BitVec 7) (s : BitVec 7)
  /-- VBCAST_MD (R225): Masked density-time form of VBCAST. -/
  | vbcastMd (d : BitVec 7) (x : BitVec 7)
  /-- VSLLI_MD (R197): Masked density-time form of VSLLI. -/
  | vslliMd (d : BitVec 7) (s : BitVec 7) (i : BitVec 7)
  /-- VSRLI_MD (R197): Masked density-time form of VSRLI. -/
  | vsrliMd (d : BitVec 7) (s : BitVec 7) (i : BitVec 7)
  /-- VSRAI_MD (R197): Masked density-time form of VSRAI. -/
  | vsraiMd (d : BitVec 7) (s : BitVec 7) (i : BitVec 7)
  /-- VADDI_MD (R186): Masked density-time form of VADDI. -/
  | vaddiMd (d : BitVec 7) (s : BitVec 7) (i : BitVec 7)
  /-- VSLIDEUP_MD (R221): Masked form of VSLIDEUP. -/
  | vslideupMd (d : BitVec 7) (s : BitVec 7) (x : BitVec 7)
  /-- VSLIDEDN_MD (R221): Masked form of VSLIDEDN. -/
  | vslidednMd (d : BitVec 7) (s : BitVec 7) (x : BitVec 7)
  /-- VREDSUM_MD (R216): Masked form of VREDSUM. -/
  | vredsumMd (d : BitVec 7) (s : BitVec 7)
  /-- VREDMIN_MD (R216): Masked form of VREDMIN. -/
  | vredminMd (d : BitVec 7) (s : BitVec 7)
  /-- VREDMAX_MD (R216): Masked form of VREDMAX. -/
  | vredmaxMd (d : BitVec 7) (s : BitVec 7)
  /-- VREDAND_MD (R216): Masked form of VREDAND. -/
  | vredandMd (d : BitVec 7) (s : BitVec 7)
  /-- VREDOR_MD (R216): Masked form of VREDOR. -/
  | vredorMd (d : BitVec 7) (s : BitVec 7)
  /-- VREDXOR_MD (R216): Masked form of VREDXOR. -/
  | vredxorMd (d : BitVec 7) (s : BitVec 7)
  /-- VFREDSUM_MD (R52): Masked form of VFREDSUM. -/
  | vfredsumMd (d : BitVec 7) (s : BitVec 7) (x : BitVec 7)
  /-- VFREDMAX_MD (R216): Masked form of VFREDMAX. -/
  | vfredmaxMd (d : BitVec 7) (s : BitVec 7)
  /-- VFREDMIN_MD (R216): Masked form of VFREDMIN. -/
  | vfredminMd (d : BitVec 7) (s : BitVec 7)
  /-- VSEGSUM_MD (R217): Masked form of VSEGSUM. -/
  | vsegsumMd (d : BitVec 7) (s : BitVec 7) (x : BitVec 7)
  /-- VMPOPC_MD (R218): Masked form of VMPOPC. -/
  | vmpopcMd (d : BitVec 7) (s : BitVec 7)
  /-- VMFIRST_MD (R218): Masked form of VMFIRST. -/
  | vmfirstMd (d : BitVec 7) (s : BitVec 7)
  /-- VLD (R324): Loads a unit-stride array group from global memory in a translation and a data phase. -/
  | vld (d : BitVec 7) (b : BitVec 7) (p : BitVec 2)
  /-- VLDS (R323): Loads a strided array group from global memory. -/
  | vlds (d : BitVec 7) (b : BitVec 7) (s : BitVec 7) (p : BitVec 2)
  /-- VLDX (R323): Gathers an array group from global memory by an index group. -/
  | vldx (d : BitVec 7) (b : BitVec 7) (x : BitVec 7) (p : BitVec 2)
  /-- VLDL (R327): Loads an array group from local scratch. -/
  | vldl (d : BitVec 7) (b : BitVec 7) (p : BitVec 2)
  /-- VLDY (R327): Loads an array group from layer space. -/
  | vldy (d : BitVec 7) (b : BitVec 7) (p : BitVec 2)
  /-- VLDYS (R327): Loads a strided array group from layer space. -/
  | vldys (d : BitVec 7) (b : BitVec 7) (s : BitVec 7) (p : BitVec 2)
  /-- VLDFF (R326): Fault-first load that truncates VL at a later fault instead of trapping. -/
  | vldff (d : BitVec 7) (b : BitVec 7) (p : BitVec 2)
  /-- VST (R324): Stores a unit-stride array group to global memory. -/
  | vst (d : BitVec 7) (b : BitVec 7) (p : BitVec 2)
  /-- VSTS (R323): Stores a strided array group to global memory. -/
  | vsts (d : BitVec 7) (b : BitVec 7) (s : BitVec 7) (p : BitVec 2)
  /-- VSTX (R323): Scatters an array group to global memory by an index group. -/
  | vstx (d : BitVec 7) (b : BitVec 7) (x : BitVec 7) (p : BitVec 2)
  /-- VSTL (R327): Stores an array group to local scratch. -/
  | vstl (d : BitVec 7) (b : BitVec 7) (p : BitVec 2)
  /-- VSTY (R327): Stores an array group to layer space. -/
  | vsty (d : BitVec 7) (b : BitVec 7) (p : BitVec 2)
  /-- VSTYS (R327): Stores a strided array group to layer space. -/
  | vstys (d : BitVec 7) (b : BitVec 7) (s : BitVec 7) (p : BitVec 2)
  /-- WAITV (R334): Arms up to 64 home monitors and sleeps until any or all match or WAITTO expires. -/
  | waitv (d : BitVec 7) (a : BitVec 7) (b : BitVec 7) (k : BitVec 1)
  /-- VSTR (R335): Adds active elements into memory at their homes as remote-reduce packets. -/
  | vstr (d : BitVec 7) (a : BitVec 7) (b : BitVec 7) (p : BitVec 2)
  /-- ASHAPE (R165): Sets SHAPE type, layers and VL through the array issue queue and returns the granted VL. -/
  | ashape (d : BitVec 7) (a : BitVec 7) (b : BitVec 7)
  /-- AWAIT (R177): Sleeps until every earlier array, tile and broadcast instruction of the core has completed. -/
  | await
  /-- AROLE (R162): Changes way roles after draining earlier work, clears or keeps contents and clips SHAPE. -/
  | arole (d : BitVec 7) (a : BitVec 7) (b : BitVec 7)
  /-- AFLUSH (R178): Writes back dirty cache lines in a virtual range. -/
  | aflush (a : BitVec 7) (b : BitVec 7)
  /-- ACLR (R179): Clears every data row of every array way. -/
  | aclr
  /-- AINVAL (R180): Invalidates cache lines in a range without write-back and gives ownership to hart 0. -/
  | ainval (a : BitVec 7) (b : BitVec 7)
  /-- MBEGIN (R232): Opens a broadcast block for the selected micro-threads. -/
  | mbegin (a : BitVec 7)
  /-- MEND (R233): Translates and issues the collected broadcast block as one unit. -/
  | mend
  /-- MSPLIT (R235): Queues the release of selected micro-threads into private mode at a block offset. -/
  | msplit (a : BitVec 7) (b : BitVec 7)
  /-- MJOIN (R242): Sleeps until the selected micro-threads are no longer private and writes stopped and faulted masks. -/
  | mjoin (d : BitVec 7) (a : BitVec 7)
  /-- MSTOP (R238): Ends a private block and stops the micro-thread, merging its flags. -/
  | mstop
  /-- MNEXT (R238): Ends a private block and fetches the block at an m register address. -/
  | mnext (a : BitVec 3)
  /-- MBR (R238): Ends a private block and fetches one of two blocks by PRED. -/
  | mbr (a : BitVec 3) (b : BitVec 3)
  /-- MLINKR (R244): Reads the LINK of the left or right neighbour micro-thread into an m register. -/
  | mlinkr (d : BitVec 3) (l : BitVec 1)
  /-- MLINKW (R244): Publishes m7 into the micro-thread's LINK. -/
  | mlinkw
  /-- MSETM (R246): Queues a write of a value into an m register of each selected micro-thread. -/
  | msetm (d : BitVec 7) (a : BitVec 7) (m : BitVec 3)
  /-- MGETM (R246): Reads an m register of one micro-thread into gd. -/
  | mgetm (d : BitVec 7) (a : BitVec 7) (m : BitVec 3)
  /-- MSTAT (R246): Reads the state word of one micro-thread into gd. -/
  | mstat (d : BitVec 7) (a : BitVec 7)
  /-- MRESET (R243): Returns selected micro-threads to the broadcast state at once or at their next block boundary. -/
  | mreset (a : BitVec 7)
  /-- TATTACH (R265): Queues a request for tile rows and receives the rows granted. -/
  | tattach (d : BitVec 7) (a : BitVec 7)
  /-- TDETACH (R266): Releases the core's tile rows after earlier tile words complete. -/
  | tdetach
  /-- TMMA (R255): Queues a matrix step that adds eight-term products into the core's granted tile rows. -/
  | tmma (t : BitVec 1) (a : BitVec 7) (b : BitVec 7)
  /-- TZERO (R259): Zeroes the granted rows of a tile. -/
  | tzero (t : BitVec 1)
  /-- TREAD (R261): Converts granted tile rows into an array group. -/
  | tread (d : BitVec 7) (t : BitVec 1) (b : BitVec 7)
  /-- TLOAD (R262): Loads 32-bit patterns from an array group into granted tile rows. -/
  | tload (t : BitVec 1) (a : BitVec 7) (b : BitVec 7)
  /-- TWAIT (R264): Holds the hart until earlier tile words on a tile have completed. -/
  | twait (t : BitVec 1)
deriving DecidableEq, Repr

end Sys2Proof
end

