-- ==== Sys2Proof/WellFormed.lean ====
section
/-! DEFINITION. The conditions on a word's operands that its bits alone decide (R60, R70, R71).

A word that breaks one of them is no instruction: it traps as illegal instruction 0x01 (R71). -/

namespace Sys2Proof

/-- A scalar register field names g0 to g63; 64 to 127 make the word illegal (R60). -/
def scalarReg (r : BitVec 7) : Bool := decide (r.toNat < 64)

/-- The operand conditions of a word (R60, R69, R70, R75, R202). The steps of the device have none. -/
def wellFormed : Instr → Bool
  | .contextSave _ => true
  | .contextRestore _ => true
  | .scalarResultArrival _ _ => true
  | .arrayInstructionBegin _ => true
  | .arrayInstructionComplete _ => true
  | .tileAccept _ _ => true
  | .tileWordComplete => true
  | .microThreadRelease _ => true
  | .blockFetch _ => true
  | .peerFaultInterrupt _ => true
  | .meshInterrupt _ => true
  | .cycleCompare _ => true
  | .mailboxInterrupt _ => true
  | .faultQueueNonEmpty _ => true
  | .microThreadSummary _ => true
  | .managementInterrupt _ => true
  | .arrayParityTrap _ => true
  | .busErrorTrap _ => true
  | .streamFaultTrap _ => true
  | .directoryOverflowTrap _ => true
  | .microThreadFaultTrap _ => true
  | .sleepWake _ => true
  | .walkComplete _ => true
  | .homeReadRequest _ => true
  | .homeWriteArrival _ _ _ _ => true
  | .homeAtomic _ _ _ _ => true
  | .monitorMatchReply _ => true
  | .waitaTimeout _ => true
  | .waitvTimeout _ => true
  | .vstrPacketArrival _ _ _ _ _ _ => true
  | .syncRequestArrival _ _ _ _ _ => true
  | .syncGrant _ => true
  | .copyChunk _ => true
  | .copyComplete _ => true
  | .promiseMissed _ => true
  | .faultReply _ => true
  | .streamUnit _ _ => true
  | .streamComplete _ => true
  | .scfgInstall _ => true
  | .channelMessageDelivery _ _ _ _ _ _ => true
  | .nputLanding _ _ _ _ _ _ => true
  | .meshMessageArrival _ _ _ _ _ => true
  | .preemptMessage _ _ _ => true
  | .spillRedelivery => true
  | .nodeDispatch _ => true
  | .nodeAging _ => true
  | .triggerArrival _ _ => true
  | .triggerSpawnRetry _ => true
  | .mailboxRequest _ _ _ => true
  | .mailboxNext _ => true
  | .mailboxNotify _ _ => true
  | .faultWindowTake _ => true
  | .faultWindowReply _ => true
  | .directoryTake _ _ => true
  | .directoryAck _ _ => true
  | .violationLogTake _ _ => true
  | .errorCountersClear _ => true
  | .heatEntryRead _ _ => true
  | .heatSeedWrite _ _ => true
  | .heatClear _ => true
  | .hostFaultTake _ => true
  | .hostFaultReply _ _ => true
  | .svcRetire _ _ => true
  | .svcClear _ _ => true
  | .svcReleaseHart _ => true
  | .evlogRead => true
  | .codecInstallWrite _ => true
  | .attestationRequest => true
  | .loadStart => true
  | .registerWrite _ _ => true
  | .deviceReset => true
  | .hardwareError _ _ _ => true
  | .relocationStallEnd _ => true
  | .xratioStallEnd _ => true
  | .powerComparison _ islands => islands.length == 16
  | .codecLearningComplete _ => true
  | .codecResampleStart _ => true
  | .scrubberRecode _ _ _ => true
  | .scrubberPassEnd _ => true
  | .codecTableInstall _ => true
  | .illegalInstruction _ => true
  | .instructionFetchFault => true
  | .homeAcknowledgement _ => true
  | .msixVectorUnmask _ => true
  | .add d a b => scalarReg d && scalarReg a && scalarReg b
  | .sub d a b => scalarReg d && scalarReg a && scalarReg b
  | .and d a b => scalarReg d && scalarReg a && scalarReg b
  | .or d a b => scalarReg d && scalarReg a && scalarReg b
  | .xor d a b => scalarReg d && scalarReg a && scalarReg b
  | .andn d a b => scalarReg d && scalarReg a && scalarReg b
  | .sll d a b => scalarReg d && scalarReg a && scalarReg b
  | .srl d a b => scalarReg d && scalarReg a && scalarReg b
  | .sra d a b => scalarReg d && scalarReg a && scalarReg b
  | .slt d a b => scalarReg d && scalarReg a && scalarReg b
  | .sltn d a b => scalarReg d && scalarReg a && scalarReg b
  | .min d a b => scalarReg d && scalarReg a && scalarReg b
  | .max d a b => scalarReg d && scalarReg a && scalarReg b
  | .minn d a b => scalarReg d && scalarReg a && scalarReg b
  | .maxn d a b => scalarReg d && scalarReg a && scalarReg b
  | .addw d a b => scalarReg d && scalarReg a && scalarReg b
  | .subw d a b => scalarReg d && scalarReg a && scalarReg b
  | .cmov d a b => scalarReg d && scalarReg a && scalarReg b
  | .mul d a b => scalarReg d && scalarReg a && scalarReg b
  | .mulh d a b => scalarReg d && scalarReg a && scalarReg b
  | .mulhn d a b => scalarReg d && scalarReg a && scalarReg b
  | .div d a b => scalarReg d && scalarReg a && scalarReg b
  | .divn d a b => scalarReg d && scalarReg a && scalarReg b
  | .rem d a b => scalarReg d && scalarReg a && scalarReg b
  | .remn d a b => scalarReg d && scalarReg a && scalarReg b
  | .clz d a => scalarReg d && scalarReg a
  | .ctz d a => scalarReg d && scalarReg a
  | .popc d a => scalarReg d && scalarReg a
  | .rev d a => scalarReg d && scalarReg a
  | .bswap d a => scalarReg d && scalarReg a
  | .rotl d a b => scalarReg d && scalarReg a && scalarReg b
  | .rotr d a b => scalarReg d && scalarReg a && scalarReg b
  | .fadd d a b => scalarReg d && scalarReg a && scalarReg b
  | .fsub d a b => scalarReg d && scalarReg a && scalarReg b
  | .fmul d a b => scalarReg d && scalarReg a && scalarReg b
  | .fdiv d a b => scalarReg d && scalarReg a && scalarReg b
  | .fma d a b => scalarReg d && scalarReg a && scalarReg b
  | .fmin d a b => scalarReg d && scalarReg a && scalarReg b
  | .fmax d a b => scalarReg d && scalarReg a && scalarReg b
  | .fsqrt d a => scalarReg d && scalarReg a
  | .feq d a b => scalarReg d && scalarReg a && scalarReg b
  | .flt d a b => scalarReg d && scalarReg a && scalarReg b
  | .fle d a b => scalarReg d && scalarReg a && scalarReg b
  | .fcvtis d a => scalarReg d && scalarReg a
  | .fcvtsi d a => scalarReg d && scalarReg a
  | .fclass d a => scalarReg d && scalarReg a
  | .fcvtbf d a => scalarReg d && scalarReg a
  | .fcvtfb d a => scalarReg d && scalarReg a
  | .addi d a _ => scalarReg d && scalarReg a
  | .andi d a _ => scalarReg d && scalarReg a
  | .ori d a _ => scalarReg d && scalarReg a
  | .xori d a _ => scalarReg d && scalarReg a
  | .slli d a _ => scalarReg d && scalarReg a
  | .srli d a _ => scalarReg d && scalarReg a
  | .srai d a _ => scalarReg d && scalarReg a
  | .slti d a _ => scalarReg d && scalarReg a
  | .lih d _ => scalarReg d
  | .auip d _ => scalarReg d
  | .jal _ => true
  | .jalr d a _ => scalarReg d && scalarReg a
  | .beq _ a b _ => scalarReg a && scalarReg b
  | .bne _ a b _ => scalarReg a && scalarReg b
  | .blt _ a b _ => scalarReg a && scalarReg b
  | .bge _ a b _ => scalarReg a && scalarReg b
  | .bltn _ a b _ => scalarReg a && scalarReg b
  | .bgen _ a b _ => scalarReg a && scalarReg b
  | .lb d a _ => scalarReg d && scalarReg a
  | .lh d a _ => scalarReg d && scalarReg a
  | .lw d a _ => scalarReg d && scalarReg a
  | .ld d a _ => scalarReg d && scalarReg a
  | .lbz d a _ => scalarReg d && scalarReg a
  | .lhz d a _ => scalarReg d && scalarReg a
  | .lwz d a _ => scalarReg d && scalarReg a
  | .sb s a _ => scalarReg s && scalarReg a
  | .sh s a _ => scalarReg s && scalarReg a
  | .sw s a _ => scalarReg s && scalarReg a
  | .sd s a _ => scalarReg s && scalarReg a
  | .aadd d a b => scalarReg d && scalarReg a && scalarReg b
  | .aswap d a b => scalarReg d && scalarReg a && scalarReg b
  | .aand d a b => scalarReg d && scalarReg a && scalarReg b
  | .aor d a b => scalarReg d && scalarReg a && scalarReg b
  | .axor d a b => scalarReg d && scalarReg a && scalarReg b
  | .amin d a b => scalarReg d && scalarReg a && scalarReg b
  | .amax d a b => scalarReg d && scalarReg a && scalarReg b
  | .aminn d a b => scalarReg d && scalarReg a && scalarReg b
  | .amaxn d a b => scalarReg d && scalarReg a && scalarReg b
  | .acas d a b => scalarReg d && scalarReg a && scalarReg b
  | .aaddw d a b => scalarReg d && scalarReg a && scalarReg b
  | .aswapw d a b => scalarReg d && scalarReg a && scalarReg b
  | .aandw d a b => scalarReg d && scalarReg a && scalarReg b
  | .aorw d a b => scalarReg d && scalarReg a && scalarReg b
  | .axorw d a b => scalarReg d && scalarReg a && scalarReg b
  | .aminw d a b => scalarReg d && scalarReg a && scalarReg b
  | .amaxw d a b => scalarReg d && scalarReg a && scalarReg b
  | .aminnw d a b => scalarReg d && scalarReg a && scalarReg b
  | .amaxnw d a b => scalarReg d && scalarReg a && scalarReg b
  | .acasw d a b => scalarReg d && scalarReg a && scalarReg b
  | .afadd d a b => scalarReg d && scalarReg a && scalarReg b
  | .sbind d a b => scalarReg d && scalarReg a && scalarReg b
  | .sunbind d a b => scalarReg d && scalarReg a && scalarReg b
  | .sacq a => scalarReg a
  | .sacqs a => scalarReg a
  | .stry d a => scalarReg d && scalarReg a
  | .srel a => scalarReg a
  | .fence s _ _ => decide (s.toNat < 6)
  | .waita d a b => scalarReg d && scalarReg a && scalarReg b
  | .csrr d _ => scalarReg d
  | .csrw d a _ => scalarReg d && scalarReg a
  | .csrs d a _ => scalarReg d && scalarReg a
  | .csrc d a _ => scalarReg d && scalarReg a
  | .ecall => true
  | .ebreak => true
  | .eret => true
  | .sleep => true
  | .switch => true
  | .tlbinv a b => scalarReg a && scalarReg b
  | .icinv => true
  | .xprobe d a => scalarReg d && scalarReg a
  | .aown => true
  | .halt => true
  | .fmt _ _ _ _ _ _ => true
  | .ldl d a _ => scalarReg d && scalarReg a
  | .stl s a _ => scalarReg s && scalarReg a
  | .ldy d a _ => scalarReg d && scalarReg a
  | .sty s a _ => scalarReg s && scalarReg a
  | .cpy d a => scalarReg d && scalarReg a
  | .cpyw a b => scalarReg a && scalarReg b
  | .cpyq d a => scalarReg d && scalarReg a
  | .cpyx a => scalarReg a
  | .nsend d a b => scalarReg d && scalarReg a && scalarReg b
  | .nput d a b => scalarReg d && scalarReg a && scalarReg b
  | .nrecv d a => scalarReg d && scalarReg a
  | .npoll d a => scalarReg d && scalarReg a
  | .nfree a => scalarReg a
  | .nint a b => scalarReg a && scalarReg b
  | .tkspawn d a => scalarReg d && scalarReg a
  | .tkget d => scalarReg d
  | .tkdone a => scalarReg a
  | .tkarm a b => scalarReg a && scalarReg b
  | .tkbind a b => scalarReg a && scalarReg b
  | .tkunbind a => scalarReg a
  | .tkdep a b => scalarReg a && scalarReg b
  | .scfg d a b => scalarReg d && scalarReg a && scalarReg b
  | .sopen d a => scalarReg d && scalarReg a
  | .sclose a => scalarReg a
  | .sstat d a => scalarReg d && scalarReg a
  | .vadd _ _ _ _ _ _ => true
  | .vsub _ _ _ _ _ _ => true
  | .vadds _ _ _ _ _ _ => true
  | .vsubs _ _ _ _ _ _ => true
  | .vmul _ _ _ _ _ _ => true
  | .vmulh _ _ _ _ _ _ => true
  | .vmin _ _ _ _ _ _ => true
  | .vmax _ _ _ _ _ _ => true
  | .vminn _ _ _ _ _ _ => true
  | .vmaxn _ _ _ _ _ _ => true
  | .vand _ _ _ _ _ _ => true
  | .vor _ _ _ _ _ _ => true
  | .vxor _ _ _ _ _ _ => true
  | .vbool _ _ _ _ _ _ => true
  | .vsll _ _ _ _ _ _ => true
  | .vsrl _ _ _ _ _ _ => true
  | .vsra _ _ _ _ _ _ => true
  | .vmerge _ _ _ _ _ => true
  | .vmac _ _ _ _ _ _ => true
  | .vwmac _ _ _ _ _ _ => true
  | .vdot _ _ _ _ _ _ => true
  | .vdots _ _ _ _ _ _ => true
  | .vfadd _ _ _ _ _ _ => true
  | .vfsub _ _ _ _ _ _ => true
  | .vfmul _ _ _ _ _ _ => true
  | .vfma _ _ _ _ _ _ => true
  | .vfmin _ _ _ _ _ _ => true
  | .vfmax _ _ _ _ _ _ => true
  | .vfdiv _ _ _ _ _ _ => true
  | .vfms _ _ _ _ _ _ => true
  | .vcfle _ _ _ _ _ _ => true
  | .vcfun _ _ _ _ _ _ => true
  | .vceq _ _ _ _ _ _ => true
  | .vcne _ _ _ _ _ _ => true
  | .vclt _ _ _ _ _ _ => true
  | .vcge _ _ _ _ _ _ => true
  | .vcltn _ _ _ _ _ _ => true
  | .vcgen _ _ _ _ _ _ => true
  | .vcfeq _ _ _ _ _ _ => true
  | .vcflt _ _ _ _ _ _ => true
  | .vmov _ _ _ _ => true
  | .vnot _ _ _ _ => true
  | .vneg _ _ _ _ => true
  | .vabs _ _ _ _ => true
  | .vfneg _ _ _ _ => true
  | .vfabs _ _ _ _ => true
  | .vfsqrt _ _ _ _ => true
  | .vexp2 _ _ _ _ => true
  | .vlog2 _ _ _ _ => true
  | .vrcp _ _ _ _ => true
  | .vrsqrt _ _ _ _ => true
  | .vcvt _ _ _ _ => true
  | .vclz _ _ _ _ => true
  | .vpopc _ _ _ _ => true
  | .vsearch _ _ _ _ => true
  | .vkwrite d a _ _ => decide (d = a)
  | .vcompress _ _ => true
  | .vexpand _ _ => true
  | .vrev _ _ _ => true
  | .viota _ _ _ => true
  | .vbcast _ x => scalarReg x
  | .vextr d _ x => scalarReg d && scalarReg x
  | .vinsr _ s x => scalarReg s && scalarReg x
  | .vslli _ _ _ => true
  | .vsrli _ _ _ => true
  | .vsrai _ _ _ => true
  | .vaddi _ _ _ => true
  | .vslideup _ _ x => scalarReg x
  | .vslidedn _ _ x => scalarReg x
  | .vredsum d _ => scalarReg d
  | .vredmin d _ => scalarReg d
  | .vredmax d _ => scalarReg d
  | .vredand d _ => scalarReg d
  | .vredor d _ => scalarReg d
  | .vredxor d _ => scalarReg d
  | .vfredsum d _ _ => scalarReg d
  | .vfredmax d _ => scalarReg d
  | .vfredmin d _ => scalarReg d
  | .vsegsum _ _ _ => true
  | .vmpopc d _ => scalarReg d
  | .vmfirst d _ => scalarReg d
  | .vbcastMd _ x => scalarReg x
  | .vslliMd _ _ _ => true
  | .vsrliMd _ _ _ => true
  | .vsraiMd _ _ _ => true
  | .vaddiMd _ _ _ => true
  | .vslideupMd _ _ x => scalarReg x
  | .vslidednMd _ _ x => scalarReg x
  | .vredsumMd d _ => scalarReg d
  | .vredminMd d _ => scalarReg d
  | .vredmaxMd d _ => scalarReg d
  | .vredandMd d _ => scalarReg d
  | .vredorMd d _ => scalarReg d
  | .vredxorMd d _ => scalarReg d
  | .vfredsumMd d _ _ => scalarReg d
  | .vfredmaxMd d _ => scalarReg d
  | .vfredminMd d _ => scalarReg d
  | .vsegsumMd _ _ _ => true
  | .vmpopcMd d _ => scalarReg d
  | .vmfirstMd d _ => scalarReg d
  | .vld _ b p => scalarReg b && decide (p ≠ 3)
  | .vlds _ b s p => scalarReg b && scalarReg s && decide (p ≠ 3)
  | .vldx _ b _ p => scalarReg b && decide (p ≠ 3)
  | .vldl _ b p => scalarReg b && decide (p ≠ 3)
  | .vldy _ b p => scalarReg b && decide (p ≠ 3)
  | .vldys _ b s p => scalarReg b && scalarReg s && decide (p ≠ 3)
  | .vldff _ b p => scalarReg b && decide (p ≠ 3)
  | .vst _ b p => scalarReg b && decide (p ≠ 3)
  | .vsts _ b s p => scalarReg b && scalarReg s && decide (p ≠ 3)
  | .vstx _ b _ p => scalarReg b && decide (p ≠ 3)
  | .vstl _ b p => scalarReg b && decide (p ≠ 3)
  | .vsty _ b p => scalarReg b && decide (p ≠ 3)
  | .vstys _ b s p => scalarReg b && scalarReg s && decide (p ≠ 3)
  | .waitv _ _ _ _ => true
  | .vstr d _ _ p => scalarReg d && decide (p ≠ 3)
  | .ashape d a b => scalarReg d && scalarReg a && scalarReg b
  | .await => true
  | .arole d a b => scalarReg d && scalarReg a && scalarReg b
  | .aflush a b => scalarReg a && scalarReg b
  | .aclr => true
  | .ainval a b => scalarReg a && scalarReg b
  | .mbegin a => scalarReg a
  | .mend => true
  | .msplit a b => scalarReg a && scalarReg b
  | .mjoin d a => scalarReg d && scalarReg a
  | .mstop => true
  | .mnext _ => true
  | .mbr _ _ => true
  | .mlinkr _ _ => true
  | .mlinkw => true
  | .msetm d a _ => scalarReg d && scalarReg a
  | .mgetm d a _ => scalarReg d && scalarReg a
  | .mstat d a => scalarReg d && scalarReg a
  | .mreset a => scalarReg a
  | .tattach d a => scalarReg d && scalarReg a
  | .tdetach => true
  | .tmma _ _ _ => true
  | .tzero _ => true
  | .tread _ _ b => scalarReg b
  | .tload _ _ b => scalarReg b
  | .twait _ => true

end Sys2Proof
end

