-- ==== Sys2Proof/Decode.lean ====
section
/-! DEFINITION. Instruction words to instructions and back (R59 to R71).

`decode` is total: a word that no row of the opcode map assigns, or whose operands break R60, R69, R70 or R75,
answers `none`, and the hart that issues it traps as illegal instruction 0x01 (R71).  The encoder below is written
from the same tables. -/

namespace Sys2Proof

/-- Field [lo + n - 1 : lo] of a word (R62). -/
def fld (w : IWord) (lo n : Nat) : BitVec n := BitVec.ofNat n (w.toNat / 2 ^ lo)

/-- The words of major 0x01 (Tables 03-2 to 03-7): ADD/SUB/AND.... -/
def decodeMajor01 (w : IWord) : Option Instr :=
  if fld w 0 5 = 0 then
    some (.add (fld w 19 7) (fld w 12 7) (fld w 5 7))
  else if fld w 0 5 = 1 then
    some (.sub (fld w 19 7) (fld w 12 7) (fld w 5 7))
  else if fld w 0 5 = 2 then
    some (.and (fld w 19 7) (fld w 12 7) (fld w 5 7))
  else if fld w 0 5 = 3 then
    some (.or (fld w 19 7) (fld w 12 7) (fld w 5 7))
  else if fld w 0 5 = 4 then
    some (.xor (fld w 19 7) (fld w 12 7) (fld w 5 7))
  else if fld w 0 5 = 5 then
    some (.andn (fld w 19 7) (fld w 12 7) (fld w 5 7))
  else if fld w 0 5 = 6 then
    some (.sll (fld w 19 7) (fld w 12 7) (fld w 5 7))
  else if fld w 0 5 = 7 then
    some (.srl (fld w 19 7) (fld w 12 7) (fld w 5 7))
  else if fld w 0 5 = 8 then
    some (.sra (fld w 19 7) (fld w 12 7) (fld w 5 7))
  else if fld w 0 5 = 9 then
    some (.slt (fld w 19 7) (fld w 12 7) (fld w 5 7))
  else if fld w 0 5 = 10 then
    some (.sltn (fld w 19 7) (fld w 12 7) (fld w 5 7))
  else if fld w 0 5 = 11 then
    some (.min (fld w 19 7) (fld w 12 7) (fld w 5 7))
  else if fld w 0 5 = 12 then
    some (.max (fld w 19 7) (fld w 12 7) (fld w 5 7))
  else if fld w 0 5 = 13 then
    some (.minn (fld w 19 7) (fld w 12 7) (fld w 5 7))
  else if fld w 0 5 = 14 then
    some (.maxn (fld w 19 7) (fld w 12 7) (fld w 5 7))
  else if fld w 0 5 = 15 then
    some (.addw (fld w 19 7) (fld w 12 7) (fld w 5 7))
  else if fld w 0 5 = 16 then
    some (.subw (fld w 19 7) (fld w 12 7) (fld w 5 7))
  else if fld w 0 5 = 17 then
    some (.cmov (fld w 19 7) (fld w 12 7) (fld w 5 7))
  else none

/-- The words of major 0x02 (Tables 03-2 to 03-7): MUL/MULH/MULHN.... -/
def decodeMajor02 (w : IWord) : Option Instr :=
  if fld w 0 5 = 0 then
    some (.mul (fld w 19 7) (fld w 12 7) (fld w 5 7))
  else if fld w 0 5 = 1 then
    some (.mulh (fld w 19 7) (fld w 12 7) (fld w 5 7))
  else if fld w 0 5 = 2 then
    some (.mulhn (fld w 19 7) (fld w 12 7) (fld w 5 7))
  else if fld w 0 5 = 3 then
    some (.div (fld w 19 7) (fld w 12 7) (fld w 5 7))
  else if fld w 0 5 = 4 then
    some (.divn (fld w 19 7) (fld w 12 7) (fld w 5 7))
  else if fld w 0 5 = 5 then
    some (.rem (fld w 19 7) (fld w 12 7) (fld w 5 7))
  else if fld w 0 5 = 6 then
    some (.remn (fld w 19 7) (fld w 12 7) (fld w 5 7))
  else if fld w 0 12 = 8 then
    some (.clz (fld w 19 7) (fld w 12 7))
  else if fld w 0 12 = 9 then
    some (.ctz (fld w 19 7) (fld w 12 7))
  else if fld w 0 12 = 10 then
    some (.popc (fld w 19 7) (fld w 12 7))
  else if fld w 0 12 = 11 then
    some (.rev (fld w 19 7) (fld w 12 7))
  else if fld w 0 12 = 12 then
    some (.bswap (fld w 19 7) (fld w 12 7))
  else if fld w 0 5 = 13 then
    some (.rotl (fld w 19 7) (fld w 12 7) (fld w 5 7))
  else if fld w 0 5 = 14 then
    some (.rotr (fld w 19 7) (fld w 12 7) (fld w 5 7))
  else none

/-- The words of major 0x03 (Tables 03-2 to 03-7): FADD/FSUB/FMUL.... -/
def decodeMajor03 (w : IWord) : Option Instr :=
  if fld w 0 5 = 0 then
    some (.fadd (fld w 19 7) (fld w 12 7) (fld w 5 7))
  else if fld w 0 5 = 1 then
    some (.fsub (fld w 19 7) (fld w 12 7) (fld w 5 7))
  else if fld w 0 5 = 2 then
    some (.fmul (fld w 19 7) (fld w 12 7) (fld w 5 7))
  else if fld w 0 5 = 3 then
    some (.fdiv (fld w 19 7) (fld w 12 7) (fld w 5 7))
  else if fld w 0 5 = 4 then
    some (.fma (fld w 19 7) (fld w 12 7) (fld w 5 7))
  else if fld w 0 5 = 5 then
    some (.fmin (fld w 19 7) (fld w 12 7) (fld w 5 7))
  else if fld w 0 5 = 6 then
    some (.fmax (fld w 19 7) (fld w 12 7) (fld w 5 7))
  else if fld w 0 12 = 7 then
    some (.fsqrt (fld w 19 7) (fld w 12 7))
  else if fld w 0 5 = 8 then
    some (.feq (fld w 19 7) (fld w 12 7) (fld w 5 7))
  else if fld w 0 5 = 9 then
    some (.flt (fld w 19 7) (fld w 12 7) (fld w 5 7))
  else if fld w 0 5 = 10 then
    some (.fle (fld w 19 7) (fld w 12 7) (fld w 5 7))
  else if fld w 0 12 = 11 then
    some (.fcvtis (fld w 19 7) (fld w 12 7))
  else if fld w 0 12 = 12 then
    some (.fcvtsi (fld w 19 7) (fld w 12 7))
  else if fld w 0 12 = 13 then
    some (.fclass (fld w 19 7) (fld w 12 7))
  else if fld w 0 12 = 14 then
    some (.fcvtbf (fld w 19 7) (fld w 12 7))
  else if fld w 0 12 = 15 then
    some (.fcvtfb (fld w 19 7) (fld w 12 7))
  else none

/-- The words of major 0x04 (Tables 03-2 to 03-7): ADDI. -/
def decodeMajor04 (w : IWord) : Option Instr :=
  some (.addi (fld w 19 7) (fld w 12 7) (fld w 0 12))

/-- The words of major 0x05 (Tables 03-2 to 03-7): ANDI. -/
def decodeMajor05 (w : IWord) : Option Instr :=
  some (.andi (fld w 19 7) (fld w 12 7) (fld w 0 12))

/-- The words of major 0x06 (Tables 03-2 to 03-7): ORI. -/
def decodeMajor06 (w : IWord) : Option Instr :=
  some (.ori (fld w 19 7) (fld w 12 7) (fld w 0 12))

/-- The words of major 0x07 (Tables 03-2 to 03-7): XORI. -/
def decodeMajor07 (w : IWord) : Option Instr :=
  some (.xori (fld w 19 7) (fld w 12 7) (fld w 0 12))

/-- The words of major 0x08 (Tables 03-2 to 03-7): SLLI/SRLI/SRAI. -/
def decodeMajor08 (w : IWord) : Option Instr :=
  if fld w 6 6 = 0 then
    some (.slli (fld w 19 7) (fld w 12 7) (fld w 0 6))
  else if fld w 6 6 = 16 then
    some (.srli (fld w 19 7) (fld w 12 7) (fld w 0 6))
  else if fld w 6 6 = 32 then
    some (.srai (fld w 19 7) (fld w 12 7) (fld w 0 6))
  else none

/-- The words of major 0x09 (Tables 03-2 to 03-7): SLTI. -/
def decodeMajor09 (w : IWord) : Option Instr :=
  some (.slti (fld w 19 7) (fld w 12 7) (fld w 0 12))

/-- The words of major 0x0A (Tables 03-2 to 03-7): LIH. -/
def decodeMajor0A (w : IWord) : Option Instr :=
  some (.lih (fld w 19 7) (fld w 0 19))

/-- The words of major 0x0B (Tables 03-2 to 03-7): AUIP. -/
def decodeMajor0B (w : IWord) : Option Instr :=
  some (.auip (fld w 19 7) (fld w 0 19))

/-- The words of major 0x0C (Tables 03-2 to 03-7): JAL. -/
def decodeMajor0C (w : IWord) : Option Instr :=
  some (.jal (fld w 0 26))

/-- The words of major 0x0D (Tables 03-2 to 03-7): JALR. -/
def decodeMajor0D (w : IWord) : Option Instr :=
  some (.jalr (fld w 19 7) (fld w 12 7) (fld w 0 12))

/-- The words of major 0x0E (Tables 03-2 to 03-7): BEQ. -/
def decodeMajor0E (w : IWord) : Option Instr :=
  some (.beq (fld w 19 7) (fld w 12 7) (fld w 5 7) (fld w 0 5))

/-- The words of major 0x0F (Tables 03-2 to 03-7): BNE. -/
def decodeMajor0F (w : IWord) : Option Instr :=
  some (.bne (fld w 19 7) (fld w 12 7) (fld w 5 7) (fld w 0 5))

/-- The words of major 0x10 (Tables 03-2 to 03-7): BLT. -/
def decodeMajor10 (w : IWord) : Option Instr :=
  some (.blt (fld w 19 7) (fld w 12 7) (fld w 5 7) (fld w 0 5))

/-- The words of major 0x11 (Tables 03-2 to 03-7): BGE. -/
def decodeMajor11 (w : IWord) : Option Instr :=
  some (.bge (fld w 19 7) (fld w 12 7) (fld w 5 7) (fld w 0 5))

/-- The words of major 0x12 (Tables 03-2 to 03-7): BLTN. -/
def decodeMajor12 (w : IWord) : Option Instr :=
  some (.bltn (fld w 19 7) (fld w 12 7) (fld w 5 7) (fld w 0 5))

/-- The words of major 0x13 (Tables 03-2 to 03-7): BGEN. -/
def decodeMajor13 (w : IWord) : Option Instr :=
  some (.bgen (fld w 19 7) (fld w 12 7) (fld w 5 7) (fld w 0 5))

/-- The words of major 0x14 (Tables 03-2 to 03-7): LB/LH/LW.... -/
def decodeMajor14 (w : IWord) : Option Instr :=
  if fld w 9 3 = 0 then
    some (.lb (fld w 19 7) (fld w 12 7) (fld w 0 9))
  else if fld w 9 3 = 1 then
    some (.lh (fld w 19 7) (fld w 12 7) (fld w 0 9))
  else if fld w 9 3 = 2 then
    some (.lw (fld w 19 7) (fld w 12 7) (fld w 0 9))
  else if fld w 9 3 = 3 then
    some (.ld (fld w 19 7) (fld w 12 7) (fld w 0 9))
  else if fld w 9 3 = 4 then
    some (.lbz (fld w 19 7) (fld w 12 7) (fld w 0 9))
  else if fld w 9 3 = 5 then
    some (.lhz (fld w 19 7) (fld w 12 7) (fld w 0 9))
  else if fld w 9 3 = 6 then
    some (.lwz (fld w 19 7) (fld w 12 7) (fld w 0 9))
  else none

/-- The words of major 0x15 (Tables 03-2 to 03-7): SB/SH/SW.... -/
def decodeMajor15 (w : IWord) : Option Instr :=
  if fld w 9 3 = 0 then
    some (.sb (fld w 19 7) (fld w 12 7) (fld w 0 9))
  else if fld w 9 3 = 1 then
    some (.sh (fld w 19 7) (fld w 12 7) (fld w 0 9))
  else if fld w 9 3 = 2 then
    some (.sw (fld w 19 7) (fld w 12 7) (fld w 0 9))
  else if fld w 9 3 = 3 then
    some (.sd (fld w 19 7) (fld w 12 7) (fld w 0 9))
  else none

/-- The words of major 0x16 (Tables 03-2 to 03-7): AADD/ASWAP/AAND.... -/
def decodeMajor16 (w : IWord) : Option Instr :=
  if fld w 0 5 = 0 then
    some (.aadd (fld w 19 7) (fld w 12 7) (fld w 5 7))
  else if fld w 0 5 = 1 then
    some (.aswap (fld w 19 7) (fld w 12 7) (fld w 5 7))
  else if fld w 0 5 = 2 then
    some (.aand (fld w 19 7) (fld w 12 7) (fld w 5 7))
  else if fld w 0 5 = 3 then
    some (.aor (fld w 19 7) (fld w 12 7) (fld w 5 7))
  else if fld w 0 5 = 4 then
    some (.axor (fld w 19 7) (fld w 12 7) (fld w 5 7))
  else if fld w 0 5 = 5 then
    some (.amin (fld w 19 7) (fld w 12 7) (fld w 5 7))
  else if fld w 0 5 = 6 then
    some (.amax (fld w 19 7) (fld w 12 7) (fld w 5 7))
  else if fld w 0 5 = 7 then
    some (.aminn (fld w 19 7) (fld w 12 7) (fld w 5 7))
  else if fld w 0 5 = 8 then
    some (.amaxn (fld w 19 7) (fld w 12 7) (fld w 5 7))
  else if fld w 0 5 = 9 then
    some (.acas (fld w 19 7) (fld w 12 7) (fld w 5 7))
  else if fld w 0 5 = 16 then
    some (.aaddw (fld w 19 7) (fld w 12 7) (fld w 5 7))
  else if fld w 0 5 = 17 then
    some (.aswapw (fld w 19 7) (fld w 12 7) (fld w 5 7))
  else if fld w 0 5 = 18 then
    some (.aandw (fld w 19 7) (fld w 12 7) (fld w 5 7))
  else if fld w 0 5 = 19 then
    some (.aorw (fld w 19 7) (fld w 12 7) (fld w 5 7))
  else if fld w 0 5 = 20 then
    some (.axorw (fld w 19 7) (fld w 12 7) (fld w 5 7))
  else if fld w 0 5 = 21 then
    some (.aminw (fld w 19 7) (fld w 12 7) (fld w 5 7))
  else if fld w 0 5 = 22 then
    some (.amaxw (fld w 19 7) (fld w 12 7) (fld w 5 7))
  else if fld w 0 5 = 23 then
    some (.aminnw (fld w 19 7) (fld w 12 7) (fld w 5 7))
  else if fld w 0 5 = 24 then
    some (.amaxnw (fld w 19 7) (fld w 12 7) (fld w 5 7))
  else if fld w 0 5 = 25 then
    some (.acasw (fld w 19 7) (fld w 12 7) (fld w 5 7))
  else if fld w 0 5 = 26 then
    some (.afadd (fld w 19 7) (fld w 12 7) (fld w 5 7))
  else none

/-- The words of major 0x17 (Tables 03-2 to 03-7): SBIND/SUNBIND/SACQ.... -/
def decodeMajor17 (w : IWord) : Option Instr :=
  if fld w 0 5 = 0 then
    some (.sbind (fld w 19 7) (fld w 12 7) (fld w 5 7))
  else if fld w 0 5 = 1 then
    some (.sunbind (fld w 19 7) (fld w 12 7) (fld w 5 7))
  else if fld w 0 12 = 2 ∧ fld w 19 7 = 0 then
    some (.sacq (fld w 12 7))
  else if fld w 0 12 = 3 ∧ fld w 19 7 = 0 then
    some (.sacqs (fld w 12 7))
  else if fld w 0 12 = 4 then
    some (.stry (fld w 19 7) (fld w 12 7))
  else if fld w 0 12 = 5 ∧ fld w 19 7 = 0 then
    some (.srel (fld w 12 7))
  else if fld w 0 5 = 6 ∧ fld w 12 14 = 0 then
    some (.fence (fld w 9 3) (fld w 7 2) (fld w 5 2))
  else if fld w 0 5 = 7 then
    some (.waita (fld w 19 7) (fld w 12 7) (fld w 5 7))
  else none

/-- The words of major 0x18 (Tables 03-2 to 03-7): CSRR/CSRW/CSRS.... -/
def decodeMajor18 (w : IWord) : Option Instr :=
  if fld w 10 9 = 0 then
    some (.csrr (fld w 19 7) (fld w 0 10))
  else if fld w 10 2 = 1 then
    some (.csrw (fld w 19 7) (fld w 12 7) (fld w 0 10))
  else if fld w 10 2 = 2 then
    some (.csrs (fld w 19 7) (fld w 12 7) (fld w 0 10))
  else if fld w 10 2 = 3 then
    some (.csrc (fld w 19 7) (fld w 12 7) (fld w 0 10))
  else none

/-- The words of major 0x19 (Tables 03-2 to 03-7): ECALL/EBREAK/ERET.... -/
def decodeMajor19 (w : IWord) : Option Instr :=
  if fld w 0 26 = 0 then
    some .ecall
  else if fld w 0 26 = 1 then
    some .ebreak
  else if fld w 0 26 = 2 then
    some .eret
  else if fld w 0 26 = 3 then
    some .sleep
  else if fld w 0 26 = 4 then
    some .switch
  else if fld w 0 5 = 5 ∧ fld w 19 7 = 0 then
    some (.tlbinv (fld w 12 7) (fld w 5 7))
  else if fld w 0 26 = 6 then
    some .icinv
  else if fld w 0 12 = 7 then
    some (.xprobe (fld w 19 7) (fld w 12 7))
  else if fld w 0 26 = 8 then
    some .aown
  else if fld w 0 26 = 9 then
    some .halt
  else none

/-- The words of major 0x1A (Tables 03-2 to 03-7): FMT. -/
def decodeMajor1A (w : IWord) : Option Instr :=
  if fld w 0 5 = 0 then
    some (.fmt (fld w 21 5) (fld w 16 5) (fld w 11 5) (fld w 8 3) (fld w 7 1) (fld w 5 2))
  else none

/-- The words of major 0x1B (Tables 03-2 to 03-7): LDL/STL/LDY.... -/
def decodeMajor1B (w : IWord) : Option Instr :=
  if fld w 10 2 = 0 then
    some (.ldl (fld w 19 7) (fld w 12 7) (fld w 0 10))
  else if fld w 10 2 = 1 then
    some (.stl (fld w 19 7) (fld w 12 7) (fld w 0 10))
  else if fld w 10 2 = 2 then
    some (.ldy (fld w 19 7) (fld w 12 7) (fld w 0 10))
  else if fld w 10 2 = 3 then
    some (.sty (fld w 19 7) (fld w 12 7) (fld w 0 10))
  else none

/-- The words of major 0x1C (Tables 03-2 to 03-7): CPY/CPYW/CPYQ.... -/
def decodeMajor1C (w : IWord) : Option Instr :=
  if fld w 0 12 = 0 then
    some (.cpy (fld w 19 7) (fld w 12 7))
  else if fld w 0 5 = 1 ∧ fld w 19 7 = 0 then
    some (.cpyw (fld w 12 7) (fld w 5 7))
  else if fld w 0 12 = 2 then
    some (.cpyq (fld w 19 7) (fld w 12 7))
  else if fld w 0 12 = 3 ∧ fld w 19 7 = 0 then
    some (.cpyx (fld w 12 7))
  else none

/-- The words of major 0x1D (Tables 03-2 to 03-7): NSEND/NPUT/NRECV.... -/
def decodeMajor1D (w : IWord) : Option Instr :=
  if fld w 0 5 = 0 then
    some (.nsend (fld w 19 7) (fld w 12 7) (fld w 5 7))
  else if fld w 0 5 = 1 then
    some (.nput (fld w 19 7) (fld w 12 7) (fld w 5 7))
  else if fld w 0 12 = 2 then
    some (.nrecv (fld w 19 7) (fld w 12 7))
  else if fld w 0 12 = 3 then
    some (.npoll (fld w 19 7) (fld w 12 7))
  else if fld w 0 12 = 4 ∧ fld w 19 7 = 0 then
    some (.nfree (fld w 12 7))
  else if fld w 0 5 = 5 ∧ fld w 19 7 = 0 then
    some (.nint (fld w 12 7) (fld w 5 7))
  else none

/-- The words of major 0x1E (Tables 03-2 to 03-7): TKSPAWN/TKGET/TKDONE.... -/
def decodeMajor1E (w : IWord) : Option Instr :=
  if fld w 0 12 = 0 then
    some (.tkspawn (fld w 19 7) (fld w 12 7))
  else if fld w 0 19 = 1 then
    some (.tkget (fld w 19 7))
  else if fld w 0 12 = 2 ∧ fld w 19 7 = 0 then
    some (.tkdone (fld w 12 7))
  else if fld w 0 5 = 3 ∧ fld w 19 7 = 0 then
    some (.tkarm (fld w 12 7) (fld w 5 7))
  else if fld w 0 5 = 4 ∧ fld w 19 7 = 0 then
    some (.tkbind (fld w 12 7) (fld w 5 7))
  else if fld w 0 12 = 5 ∧ fld w 19 7 = 0 then
    some (.tkunbind (fld w 12 7))
  else if fld w 0 5 = 6 ∧ fld w 19 7 = 0 then
    some (.tkdep (fld w 12 7) (fld w 5 7))
  else none

/-- The words of major 0x1F (Tables 03-2 to 03-7): SCFG/SOPEN/SCLOSE.... -/
def decodeMajor1F (w : IWord) : Option Instr :=
  if fld w 0 5 = 0 then
    some (.scfg (fld w 19 7) (fld w 12 7) (fld w 5 7))
  else if fld w 0 12 = 1 then
    some (.sopen (fld w 19 7) (fld w 12 7))
  else if fld w 0 12 = 2 ∧ fld w 19 7 = 0 then
    some (.sclose (fld w 12 7))
  else if fld w 0 12 = 3 then
    some (.sstat (fld w 19 7) (fld w 12 7))
  else none

/-- The words of major 0x20 (Tables 03-2 to 03-7): VADD/VSUB. -/
def decodeMajor20 (w : IWord) : Option Instr :=
  if fld w 0 1 = 0 then
    some (.vadd (fld w 19 7) (fld w 12 7) (fld w 5 7) (fld w 4 1) (fld w 3 1) (fld w 1 2))
  else if fld w 0 1 = 1 then
    some (.vsub (fld w 19 7) (fld w 12 7) (fld w 5 7) (fld w 4 1) (fld w 3 1) (fld w 1 2))
  else none

/-- The words of major 0x21 (Tables 03-2 to 03-7): VADDS/VSUBS. -/
def decodeMajor21 (w : IWord) : Option Instr :=
  if fld w 0 1 = 0 then
    some (.vadds (fld w 19 7) (fld w 12 7) (fld w 5 7) (fld w 4 1) (fld w 3 1) (fld w 1 2))
  else if fld w 0 1 = 1 then
    some (.vsubs (fld w 19 7) (fld w 12 7) (fld w 5 7) (fld w 4 1) (fld w 3 1) (fld w 1 2))
  else none

/-- The words of major 0x22 (Tables 03-2 to 03-7): VMUL/VMULH. -/
def decodeMajor22 (w : IWord) : Option Instr :=
  if fld w 0 1 = 0 then
    some (.vmul (fld w 19 7) (fld w 12 7) (fld w 5 7) (fld w 4 1) (fld w 3 1) (fld w 1 2))
  else if fld w 0 1 = 1 then
    some (.vmulh (fld w 19 7) (fld w 12 7) (fld w 5 7) (fld w 4 1) (fld w 3 1) (fld w 1 2))
  else none

/-- The words of major 0x23 (Tables 03-2 to 03-7): VMIN/VMAX. -/
def decodeMajor23 (w : IWord) : Option Instr :=
  if fld w 0 1 = 0 then
    some (.vmin (fld w 19 7) (fld w 12 7) (fld w 5 7) (fld w 4 1) (fld w 3 1) (fld w 1 2))
  else if fld w 0 1 = 1 then
    some (.vmax (fld w 19 7) (fld w 12 7) (fld w 5 7) (fld w 4 1) (fld w 3 1) (fld w 1 2))
  else none

/-- The words of major 0x24 (Tables 03-2 to 03-7): VMINN/VMAXN. -/
def decodeMajor24 (w : IWord) : Option Instr :=
  if fld w 0 1 = 0 then
    some (.vminn (fld w 19 7) (fld w 12 7) (fld w 5 7) (fld w 4 1) (fld w 3 1) (fld w 1 2))
  else if fld w 0 1 = 1 then
    some (.vmaxn (fld w 19 7) (fld w 12 7) (fld w 5 7) (fld w 4 1) (fld w 3 1) (fld w 1 2))
  else none

/-- The words of major 0x25 (Tables 03-2 to 03-7): VAND/VOR. -/
def decodeMajor25 (w : IWord) : Option Instr :=
  if fld w 0 1 = 0 then
    some (.vand (fld w 19 7) (fld w 12 7) (fld w 5 7) (fld w 4 1) (fld w 3 1) (fld w 1 2))
  else if fld w 0 1 = 1 then
    some (.vor (fld w 19 7) (fld w 12 7) (fld w 5 7) (fld w 4 1) (fld w 3 1) (fld w 1 2))
  else none

/-- The words of major 0x26 (Tables 03-2 to 03-7): VXOR/VBOOL. -/
def decodeMajor26 (w : IWord) : Option Instr :=
  if fld w 0 1 = 0 then
    some (.vxor (fld w 19 7) (fld w 12 7) (fld w 5 7) (fld w 4 1) (fld w 3 1) (fld w 1 2))
  else if fld w 0 1 = 1 then
    some (.vbool (fld w 19 7) (fld w 12 7) (fld w 5 7) (fld w 4 1) (fld w 3 1) (fld w 1 2))
  else none

/-- The words of major 0x27 (Tables 03-2 to 03-7): VSLL/VSRL. -/
noncomputable def decodeMajor27 (w : IWord) : Option Instr :=
  if fld w 0 1 = 0 then
    some (.vsll (fld w 19 7) (fld w 12 7) (fld w 5 7) (fld w 4 1) (fld w 3 1) (fld w 1 2))
  else if fld w 0 1 = 1 then
    some (.vsrl (fld w 19 7) (fld w 12 7) (fld w 5 7) (fld w 4 1) (fld w 3 1) (fld w 1 2))
  else none

/-- The words of major 0x28 (Tables 03-2 to 03-7): VSRA/VMERGE. -/
noncomputable def decodeMajor28 (w : IWord) : Option Instr :=
  if fld w 0 1 = 0 then
    some (.vsra (fld w 19 7) (fld w 12 7) (fld w 5 7) (fld w 4 1) (fld w 3 1) (fld w 1 2))
  else if fld w 0 3 = 1 then
    some (.vmerge (fld w 19 7) (fld w 12 7) (fld w 5 7) (fld w 4 1) (fld w 3 1))
  else none

/-- The words of major 0x29 (Tables 03-2 to 03-7): VMAC/VWMAC. -/
noncomputable def decodeMajor29 (w : IWord) : Option Instr :=
  if fld w 0 1 = 0 then
    some (.vmac (fld w 19 7) (fld w 12 7) (fld w 5 7) (fld w 4 1) (fld w 3 1) (fld w 1 2))
  else if fld w 0 1 = 1 then
    some (.vwmac (fld w 19 7) (fld w 12 7) (fld w 5 7) (fld w 4 1) (fld w 3 1) (fld w 1 2))
  else none

/-- The words of major 0x2A (Tables 03-2 to 03-7): VDOT/VDOTS. -/
noncomputable def decodeMajor2A (w : IWord) : Option Instr :=
  if fld w 0 1 = 0 then
    some (.vdot (fld w 19 7) (fld w 12 7) (fld w 5 7) (fld w 4 1) (fld w 3 1) (fld w 1 2))
  else if fld w 0 1 = 1 then
    some (.vdots (fld w 19 7) (fld w 12 7) (fld w 5 7) (fld w 4 1) (fld w 3 1) (fld w 1 2))
  else none

/-- The words of major 0x2B (Tables 03-2 to 03-7): VFADD/VFSUB. -/
noncomputable def decodeMajor2B (w : IWord) : Option Instr :=
  if fld w 0 1 = 0 then
    some (.vfadd (fld w 19 7) (fld w 12 7) (fld w 5 7) (fld w 4 1) (fld w 3 1) (fld w 1 2))
  else if fld w 0 1 = 1 then
    some (.vfsub (fld w 19 7) (fld w 12 7) (fld w 5 7) (fld w 4 1) (fld w 3 1) (fld w 1 2))
  else none

/-- The words of major 0x2C (Tables 03-2 to 03-7): VFMUL/VFMA. -/
noncomputable def decodeMajor2C (w : IWord) : Option Instr :=
  if fld w 0 1 = 0 then
    some (.vfmul (fld w 19 7) (fld w 12 7) (fld w 5 7) (fld w 4 1) (fld w 3 1) (fld w 1 2))
  else if fld w 0 1 = 1 then
    some (.vfma (fld w 19 7) (fld w 12 7) (fld w 5 7) (fld w 4 1) (fld w 3 1) (fld w 1 2))
  else none

/-- The words of major 0x2D (Tables 03-2 to 03-7): VFMIN/VFMAX. -/
noncomputable def decodeMajor2D (w : IWord) : Option Instr :=
  if fld w 0 1 = 0 then
    some (.vfmin (fld w 19 7) (fld w 12 7) (fld w 5 7) (fld w 4 1) (fld w 3 1) (fld w 1 2))
  else if fld w 0 1 = 1 then
    some (.vfmax (fld w 19 7) (fld w 12 7) (fld w 5 7) (fld w 4 1) (fld w 3 1) (fld w 1 2))
  else none

/-- The words of major 0x2E (Tables 03-2 to 03-7): VFDIV/VFMS. -/
noncomputable def decodeMajor2E (w : IWord) : Option Instr :=
  if fld w 0 1 = 0 then
    some (.vfdiv (fld w 19 7) (fld w 12 7) (fld w 5 7) (fld w 4 1) (fld w 3 1) (fld w 1 2))
  else if fld w 0 1 = 1 then
    some (.vfms (fld w 19 7) (fld w 12 7) (fld w 5 7) (fld w 4 1) (fld w 3 1) (fld w 1 2))
  else none

/-- The words of major 0x2F (Tables 03-2 to 03-7): VCFLE/VCFUN. -/
noncomputable def decodeMajor2F (w : IWord) : Option Instr :=
  if fld w 0 1 = 0 then
    some (.vcfle (fld w 19 7) (fld w 12 7) (fld w 5 7) (fld w 4 1) (fld w 3 1) (fld w 1 2))
  else if fld w 0 1 = 1 then
    some (.vcfun (fld w 19 7) (fld w 12 7) (fld w 5 7) (fld w 4 1) (fld w 3 1) (fld w 1 2))
  else none

/-- The words of major 0x30 (Tables 03-2 to 03-7): VCEQ/VCNE. -/
noncomputable def decodeMajor30 (w : IWord) : Option Instr :=
  if fld w 0 1 = 0 then
    some (.vceq (fld w 19 7) (fld w 12 7) (fld w 5 7) (fld w 4 1) (fld w 3 1) (fld w 1 2))
  else if fld w 0 1 = 1 then
    some (.vcne (fld w 19 7) (fld w 12 7) (fld w 5 7) (fld w 4 1) (fld w 3 1) (fld w 1 2))
  else none

/-- The words of major 0x31 (Tables 03-2 to 03-7): VCLT/VCGE. -/
noncomputable def decodeMajor31 (w : IWord) : Option Instr :=
  if fld w 0 1 = 0 then
    some (.vclt (fld w 19 7) (fld w 12 7) (fld w 5 7) (fld w 4 1) (fld w 3 1) (fld w 1 2))
  else if fld w 0 1 = 1 then
    some (.vcge (fld w 19 7) (fld w 12 7) (fld w 5 7) (fld w 4 1) (fld w 3 1) (fld w 1 2))
  else none

/-- The words of major 0x32 (Tables 03-2 to 03-7): VCLTN/VCGEN. -/
noncomputable def decodeMajor32 (w : IWord) : Option Instr :=
  if fld w 0 1 = 0 then
    some (.vcltn (fld w 19 7) (fld w 12 7) (fld w 5 7) (fld w 4 1) (fld w 3 1) (fld w 1 2))
  else if fld w 0 1 = 1 then
    some (.vcgen (fld w 19 7) (fld w 12 7) (fld w 5 7) (fld w 4 1) (fld w 3 1) (fld w 1 2))
  else none

/-- The words of major 0x33 (Tables 03-2 to 03-7): VCFEQ/VCFLT. -/
noncomputable def decodeMajor33 (w : IWord) : Option Instr :=
  if fld w 0 1 = 0 then
    some (.vcfeq (fld w 19 7) (fld w 12 7) (fld w 5 7) (fld w 4 1) (fld w 3 1) (fld w 1 2))
  else if fld w 0 1 = 1 then
    some (.vcflt (fld w 19 7) (fld w 12 7) (fld w 5 7) (fld w 4 1) (fld w 3 1) (fld w 1 2))
  else none

/-- The words of major 0x34 (Tables 03-2 to 03-7): VMOV/VNOT/VNEG.... -/
noncomputable def decodeMajor34 (w : IWord) : Option Instr :=
  if fld w 0 1 = 0 ∧ fld w 3 1 = 0 ∧ fld w 5 7 = 0 then
    some (.vmov (fld w 19 7) (fld w 12 7) (fld w 4 1) (fld w 1 2))
  else if fld w 0 1 = 0 ∧ fld w 3 1 = 0 ∧ fld w 5 7 = 1 then
    some (.vnot (fld w 19 7) (fld w 12 7) (fld w 4 1) (fld w 1 2))
  else if fld w 0 1 = 0 ∧ fld w 3 1 = 0 ∧ fld w 5 7 = 2 then
    some (.vneg (fld w 19 7) (fld w 12 7) (fld w 4 1) (fld w 1 2))
  else if fld w 0 1 = 0 ∧ fld w 3 1 = 0 ∧ fld w 5 7 = 3 then
    some (.vabs (fld w 19 7) (fld w 12 7) (fld w 4 1) (fld w 1 2))
  else if fld w 0 1 = 0 ∧ fld w 3 1 = 0 ∧ fld w 5 7 = 4 then
    some (.vfneg (fld w 19 7) (fld w 12 7) (fld w 4 1) (fld w 1 2))
  else if fld w 0 1 = 0 ∧ fld w 3 1 = 0 ∧ fld w 5 7 = 5 then
    some (.vfabs (fld w 19 7) (fld w 12 7) (fld w 4 1) (fld w 1 2))
  else if fld w 0 1 = 0 ∧ fld w 3 1 = 0 ∧ fld w 5 7 = 6 then
    some (.vfsqrt (fld w 19 7) (fld w 12 7) (fld w 4 1) (fld w 1 2))
  else if fld w 0 1 = 0 ∧ fld w 3 1 = 0 ∧ fld w 5 7 = 7 then
    some (.vexp2 (fld w 19 7) (fld w 12 7) (fld w 4 1) (fld w 1 2))
  else if fld w 0 1 = 0 ∧ fld w 3 1 = 0 ∧ fld w 5 7 = 8 then
    some (.vlog2 (fld w 19 7) (fld w 12 7) (fld w 4 1) (fld w 1 2))
  else if fld w 0 1 = 0 ∧ fld w 3 1 = 0 ∧ fld w 5 7 = 9 then
    some (.vrcp (fld w 19 7) (fld w 12 7) (fld w 4 1) (fld w 1 2))
  else if fld w 0 1 = 0 ∧ fld w 3 1 = 0 ∧ fld w 5 7 = 10 then
    some (.vrsqrt (fld w 19 7) (fld w 12 7) (fld w 4 1) (fld w 1 2))
  else if fld w 0 1 = 0 ∧ fld w 3 1 = 0 ∧ fld w 5 7 = 11 then
    some (.vcvt (fld w 19 7) (fld w 12 7) (fld w 4 1) (fld w 1 2))
  else if fld w 0 1 = 0 ∧ fld w 3 1 = 0 ∧ fld w 5 7 = 12 then
    some (.vclz (fld w 19 7) (fld w 12 7) (fld w 4 1) (fld w 1 2))
  else if fld w 0 1 = 0 ∧ fld w 3 1 = 0 ∧ fld w 5 7 = 13 then
    some (.vpopc (fld w 19 7) (fld w 12 7) (fld w 4 1) (fld w 1 2))
  else if fld w 0 1 = 0 ∧ fld w 3 1 = 0 ∧ fld w 5 7 = 14 then
    some (.vsearch (fld w 19 7) (fld w 12 7) (fld w 4 1) (fld w 1 2))
  else if fld w 0 2 = 0 ∧ fld w 3 1 = 0 ∧ fld w 5 7 = 15 then
    some (.vkwrite (fld w 19 7) (fld w 12 7) (fld w 4 1) (fld w 2 1))
  else if fld w 0 12 = 512 then
    some (.vcompress (fld w 19 7) (fld w 12 7))
  else if fld w 0 12 = 544 then
    some (.vexpand (fld w 19 7) (fld w 12 7))
  else if fld w 0 1 = 0 ∧ fld w 3 9 = 72 then
    some (.vrev (fld w 19 7) (fld w 12 7) (fld w 1 2))
  else if fld w 0 1 = 0 ∧ fld w 3 9 = 76 then
    some (.viota (fld w 19 7) (fld w 12 7) (fld w 1 2))
  else none

/-- The words of major 0x35 (Tables 03-2 to 03-7): VBCAST/VEXTR/VINSR.... -/
noncomputable def decodeMajor35 (w : IWord) : Option Instr :=
  if fld w 0 5 = 0 ∧ fld w 12 7 = 0 then
    some (.vbcast (fld w 19 7) (fld w 5 7))
  else if fld w 0 5 = 1 then
    some (.vextr (fld w 19 7) (fld w 12 7) (fld w 5 7))
  else if fld w 0 5 = 2 then
    some (.vinsr (fld w 19 7) (fld w 12 7) (fld w 5 7))
  else if fld w 0 5 = 3 then
    some (.vslli (fld w 19 7) (fld w 12 7) (fld w 5 7))
  else if fld w 0 5 = 4 then
    some (.vsrli (fld w 19 7) (fld w 12 7) (fld w 5 7))
  else if fld w 0 5 = 5 then
    some (.vsrai (fld w 19 7) (fld w 12 7) (fld w 5 7))
  else if fld w 0 5 = 6 then
    some (.vaddi (fld w 19 7) (fld w 12 7) (fld w 5 7))
  else if fld w 0 5 = 7 then
    some (.vslideup (fld w 19 7) (fld w 12 7) (fld w 5 7))
  else if fld w 0 5 = 8 then
    some (.vslidedn (fld w 19 7) (fld w 12 7) (fld w 5 7))
  else if fld w 0 12 = 9 then
    some (.vredsum (fld w 19 7) (fld w 12 7))
  else if fld w 0 12 = 10 then
    some (.vredmin (fld w 19 7) (fld w 12 7))
  else if fld w 0 12 = 11 then
    some (.vredmax (fld w 19 7) (fld w 12 7))
  else if fld w 0 12 = 12 then
    some (.vredand (fld w 19 7) (fld w 12 7))
  else if fld w 0 12 = 13 then
    some (.vredor (fld w 19 7) (fld w 12 7))
  else if fld w 0 12 = 14 then
    some (.vredxor (fld w 19 7) (fld w 12 7))
  else if fld w 0 5 = 15 then
    some (.vfredsum (fld w 19 7) (fld w 12 7) (fld w 5 7))
  else if fld w 0 12 = 16 then
    some (.vfredmax (fld w 19 7) (fld w 12 7))
  else if fld w 0 12 = 17 then
    some (.vfredmin (fld w 19 7) (fld w 12 7))
  else if fld w 0 5 = 18 then
    some (.vsegsum (fld w 19 7) (fld w 12 7) (fld w 5 7))
  else if fld w 0 12 = 19 then
    some (.vmpopc (fld w 19 7) (fld w 12 7))
  else if fld w 0 12 = 20 then
    some (.vmfirst (fld w 19 7) (fld w 12 7))
  else none

/-- The words of major 0x3D (Tables 03-2 to 03-7): VBCAST_MD/VSLLI_MD/VSRLI_MD.... -/
noncomputable def decodeMajor3D (w : IWord) : Option Instr :=
  if fld w 0 5 = 0 ∧ fld w 12 7 = 0 then
    some (.vbcastMd (fld w 19 7) (fld w 5 7))
  else if fld w 0 5 = 3 then
    some (.vslliMd (fld w 19 7) (fld w 12 7) (fld w 5 7))
  else if fld w 0 5 = 4 then
    some (.vsrliMd (fld w 19 7) (fld w 12 7) (fld w 5 7))
  else if fld w 0 5 = 5 then
    some (.vsraiMd (fld w 19 7) (fld w 12 7) (fld w 5 7))
  else if fld w 0 5 = 6 then
    some (.vaddiMd (fld w 19 7) (fld w 12 7) (fld w 5 7))
  else if fld w 0 5 = 7 then
    some (.vslideupMd (fld w 19 7) (fld w 12 7) (fld w 5 7))
  else if fld w 0 5 = 8 then
    some (.vslidednMd (fld w 19 7) (fld w 12 7) (fld w 5 7))
  else if fld w 0 12 = 9 then
    some (.vredsumMd (fld w 19 7) (fld w 12 7))
  else if fld w 0 12 = 10 then
    some (.vredminMd (fld w 19 7) (fld w 12 7))
  else if fld w 0 12 = 11 then
    some (.vredmaxMd (fld w 19 7) (fld w 12 7))
  else if fld w 0 12 = 12 then
    some (.vredandMd (fld w 19 7) (fld w 12 7))
  else if fld w 0 12 = 13 then
    some (.vredorMd (fld w 19 7) (fld w 12 7))
  else if fld w 0 12 = 14 then
    some (.vredxorMd (fld w 19 7) (fld w 12 7))
  else if fld w 0 5 = 15 then
    some (.vfredsumMd (fld w 19 7) (fld w 12 7) (fld w 5 7))
  else if fld w 0 12 = 16 then
    some (.vfredmaxMd (fld w 19 7) (fld w 12 7))
  else if fld w 0 12 = 17 then
    some (.vfredminMd (fld w 19 7) (fld w 12 7))
  else if fld w 0 5 = 18 then
    some (.vsegsumMd (fld w 19 7) (fld w 12 7) (fld w 5 7))
  else if fld w 0 12 = 19 then
    some (.vmpopcMd (fld w 19 7) (fld w 12 7))
  else if fld w 0 12 = 20 then
    some (.vmfirstMd (fld w 19 7) (fld w 12 7))
  else none

/-- The words of major 0x36 (Tables 03-2 to 03-7): VLD/VLDS/VLDX.... -/
noncomputable def decodeMajor36 (w : IWord) : Option Instr :=
  if fld w 2 10 = 0 then
    some (.vld (fld w 19 7) (fld w 12 7) (fld w 0 2))
  else if fld w 2 3 = 1 then
    some (.vlds (fld w 19 7) (fld w 12 7) (fld w 5 7) (fld w 0 2))
  else if fld w 2 3 = 2 then
    some (.vldx (fld w 19 7) (fld w 12 7) (fld w 5 7) (fld w 0 2))
  else if fld w 2 10 = 3 then
    some (.vldl (fld w 19 7) (fld w 12 7) (fld w 0 2))
  else if fld w 2 10 = 4 then
    some (.vldy (fld w 19 7) (fld w 12 7) (fld w 0 2))
  else if fld w 2 3 = 5 then
    some (.vldys (fld w 19 7) (fld w 12 7) (fld w 5 7) (fld w 0 2))
  else if fld w 2 10 = 6 then
    some (.vldff (fld w 19 7) (fld w 12 7) (fld w 0 2))
  else none

/-- The words of major 0x37 (Tables 03-2 to 03-7): VST/VSTS/VSTX.... -/
noncomputable def decodeMajor37 (w : IWord) : Option Instr :=
  if fld w 2 10 = 0 then
    some (.vst (fld w 19 7) (fld w 12 7) (fld w 0 2))
  else if fld w 2 3 = 1 then
    some (.vsts (fld w 19 7) (fld w 12 7) (fld w 5 7) (fld w 0 2))
  else if fld w 2 3 = 2 then
    some (.vstx (fld w 19 7) (fld w 12 7) (fld w 5 7) (fld w 0 2))
  else if fld w 2 10 = 3 then
    some (.vstl (fld w 19 7) (fld w 12 7) (fld w 0 2))
  else if fld w 2 10 = 4 then
    some (.vsty (fld w 19 7) (fld w 12 7) (fld w 0 2))
  else if fld w 2 3 = 5 then
    some (.vstys (fld w 19 7) (fld w 12 7) (fld w 5 7) (fld w 0 2))
  else none

/-- The words of major 0x3C (Tables 03-2 to 03-7): WAITV/VSTR. -/
noncomputable def decodeMajor3C (w : IWord) : Option Instr :=
  if fld w 0 4 = 0 then
    some (.waitv (fld w 19 7) (fld w 12 7) (fld w 5 7) (fld w 4 1))
  else if fld w 0 1 = 1 ∧ fld w 3 2 = 0 then
    some (.vstr (fld w 19 7) (fld w 12 7) (fld w 5 7) (fld w 1 2))
  else none

/-- The words of major 0x38 (Tables 03-2 to 03-7): ASHAPE/AWAIT/AROLE.... -/
noncomputable def decodeMajor38 (w : IWord) : Option Instr :=
  if fld w 0 5 = 0 then
    some (.ashape (fld w 19 7) (fld w 12 7) (fld w 5 7))
  else if fld w 0 26 = 1 then
    some .await
  else if fld w 0 5 = 2 then
    some (.arole (fld w 19 7) (fld w 12 7) (fld w 5 7))
  else if fld w 0 5 = 3 ∧ fld w 19 7 = 0 then
    some (.aflush (fld w 12 7) (fld w 5 7))
  else if fld w 0 26 = 4 then
    some .aclr
  else if fld w 0 5 = 5 ∧ fld w 19 7 = 0 then
    some (.ainval (fld w 12 7) (fld w 5 7))
  else none

/-- The words of major 0x39 (Tables 03-2 to 03-7): MBEGIN/MEND/MSPLIT.... -/
noncomputable def decodeMajor39 (w : IWord) : Option Instr :=
  if fld w 0 12 = 0 ∧ fld w 19 7 = 0 then
    some (.mbegin (fld w 12 7))
  else if fld w 0 26 = 1 then
    some .mend
  else if fld w 0 5 = 2 ∧ fld w 19 7 = 0 then
    some (.msplit (fld w 12 7) (fld w 5 7))
  else if fld w 0 12 = 3 then
    some (.mjoin (fld w 19 7) (fld w 12 7))
  else if fld w 0 26 = 4 then
    some .mstop
  else if fld w 0 12 = 5 ∧ fld w 15 11 = 0 then
    some (.mnext (fld w 12 3))
  else if fld w 0 5 = 6 ∧ fld w 8 4 = 0 ∧ fld w 15 11 = 0 then
    some (.mbr (fld w 12 3) (fld w 5 3))
  else if fld w 0 12 = 7 ∧ fld w 13 6 = 0 ∧ fld w 22 4 = 0 then
    some (.mlinkr (fld w 19 3) (fld w 12 1))
  else if fld w 0 26 = 8 then
    some .mlinkw
  else if fld w 0 5 = 9 ∧ fld w 8 4 = 0 then
    some (.msetm (fld w 19 7) (fld w 12 7) (fld w 5 3))
  else if fld w 0 5 = 10 ∧ fld w 8 4 = 0 then
    some (.mgetm (fld w 19 7) (fld w 12 7) (fld w 5 3))
  else if fld w 0 12 = 11 then
    some (.mstat (fld w 19 7) (fld w 12 7))
  else if fld w 0 12 = 12 ∧ fld w 19 7 = 0 then
    some (.mreset (fld w 12 7))
  else none

/-- The words of major 0x3A (Tables 03-2 to 03-7): TATTACH/TDETACH/TMMA.... -/
noncomputable def decodeMajor3A (w : IWord) : Option Instr :=
  if fld w 0 12 = 0 then
    some (.tattach (fld w 19 7) (fld w 12 7))
  else if fld w 0 26 = 1 then
    some .tdetach
  else if fld w 0 5 = 2 ∧ fld w 20 6 = 0 then
    some (.tmma (fld w 19 1) (fld w 12 7) (fld w 5 7))
  else if fld w 0 19 = 3 ∧ fld w 20 6 = 0 then
    some (.tzero (fld w 19 1))
  else if fld w 0 5 = 4 ∧ fld w 13 6 = 0 then
    some (.tread (fld w 19 7) (fld w 12 1) (fld w 5 7))
  else if fld w 0 5 = 5 ∧ fld w 20 6 = 0 then
    some (.tload (fld w 19 1) (fld w 12 7) (fld w 5 7))
  else if fld w 0 19 = 6 ∧ fld w 20 6 = 0 then
    some (.twait (fld w 19 1))
  else none

/-- The instruction a word assigns, before its operands are checked (Table 03-2). -/
noncomputable def decodeRaw (w : IWord) : Option Instr :=
  match (fld w 26 6).toNat with
  | 0x01 => decodeMajor01 w
  | 0x02 => decodeMajor02 w
  | 0x03 => decodeMajor03 w
  | 0x04 => decodeMajor04 w
  | 0x05 => decodeMajor05 w
  | 0x06 => decodeMajor06 w
  | 0x07 => decodeMajor07 w
  | 0x08 => decodeMajor08 w
  | 0x09 => decodeMajor09 w
  | 0x0A => decodeMajor0A w
  | 0x0B => decodeMajor0B w
  | 0x0C => decodeMajor0C w
  | 0x0D => decodeMajor0D w
  | 0x0E => decodeMajor0E w
  | 0x0F => decodeMajor0F w
  | 0x10 => decodeMajor10 w
  | 0x11 => decodeMajor11 w
  | 0x12 => decodeMajor12 w
  | 0x13 => decodeMajor13 w
  | 0x14 => decodeMajor14 w
  | 0x15 => decodeMajor15 w
  | 0x16 => decodeMajor16 w
  | 0x17 => decodeMajor17 w
  | 0x18 => decodeMajor18 w
  | 0x19 => decodeMajor19 w
  | 0x1A => decodeMajor1A w
  | 0x1B => decodeMajor1B w
  | 0x1C => decodeMajor1C w
  | 0x1D => decodeMajor1D w
  | 0x1E => decodeMajor1E w
  | 0x1F => decodeMajor1F w
  | 0x20 => decodeMajor20 w
  | 0x21 => decodeMajor21 w
  | 0x22 => decodeMajor22 w
  | 0x23 => decodeMajor23 w
  | 0x24 => decodeMajor24 w
  | 0x25 => decodeMajor25 w
  | 0x26 => decodeMajor26 w
  | 0x27 => decodeMajor27 w
  | 0x28 => decodeMajor28 w
  | 0x29 => decodeMajor29 w
  | 0x2A => decodeMajor2A w
  | 0x2B => decodeMajor2B w
  | 0x2C => decodeMajor2C w
  | 0x2D => decodeMajor2D w
  | 0x2E => decodeMajor2E w
  | 0x2F => decodeMajor2F w
  | 0x30 => decodeMajor30 w
  | 0x31 => decodeMajor31 w
  | 0x32 => decodeMajor32 w
  | 0x33 => decodeMajor33 w
  | 0x34 => decodeMajor34 w
  | 0x35 => decodeMajor35 w
  | 0x3D => decodeMajor3D w
  | 0x36 => decodeMajor36 w
  | 0x37 => decodeMajor37 w
  | 0x3C => decodeMajor3C w
  | 0x38 => decodeMajor38 w
  | 0x39 => decodeMajor39 w
  | 0x3A => decodeMajor3A w
  | _ => none

/-- The instruction of a word, or `none` where the word traps as 0x01 (R71). -/
noncomputable def decode (w : IWord) : Option Instr :=
  match decodeRaw w with
  | some i => if wellFormed i then some i else none
  | none => none

/-! ### The words that are instructions

`assigned` answers whether `decode` gives an instruction, without building one (Laws/Assigned.lean shows that they
agree), so that what only asks this stays executable. -/

def assignedMajor01 (w : IWord) : Bool :=
  if fld w 0 5 = 0 then
    scalarReg (fld w 19 7) && scalarReg (fld w 12 7) && scalarReg (fld w 5 7)
  else if fld w 0 5 = 1 then
    scalarReg (fld w 19 7) && scalarReg (fld w 12 7) && scalarReg (fld w 5 7)
  else if fld w 0 5 = 2 then
    scalarReg (fld w 19 7) && scalarReg (fld w 12 7) && scalarReg (fld w 5 7)
  else if fld w 0 5 = 3 then
    scalarReg (fld w 19 7) && scalarReg (fld w 12 7) && scalarReg (fld w 5 7)
  else if fld w 0 5 = 4 then
    scalarReg (fld w 19 7) && scalarReg (fld w 12 7) && scalarReg (fld w 5 7)
  else if fld w 0 5 = 5 then
    scalarReg (fld w 19 7) && scalarReg (fld w 12 7) && scalarReg (fld w 5 7)
  else if fld w 0 5 = 6 then
    scalarReg (fld w 19 7) && scalarReg (fld w 12 7) && scalarReg (fld w 5 7)
  else if fld w 0 5 = 7 then
    scalarReg (fld w 19 7) && scalarReg (fld w 12 7) && scalarReg (fld w 5 7)
  else if fld w 0 5 = 8 then
    scalarReg (fld w 19 7) && scalarReg (fld w 12 7) && scalarReg (fld w 5 7)
  else if fld w 0 5 = 9 then
    scalarReg (fld w 19 7) && scalarReg (fld w 12 7) && scalarReg (fld w 5 7)
  else if fld w 0 5 = 10 then
    scalarReg (fld w 19 7) && scalarReg (fld w 12 7) && scalarReg (fld w 5 7)
  else if fld w 0 5 = 11 then
    scalarReg (fld w 19 7) && scalarReg (fld w 12 7) && scalarReg (fld w 5 7)
  else if fld w 0 5 = 12 then
    scalarReg (fld w 19 7) && scalarReg (fld w 12 7) && scalarReg (fld w 5 7)
  else if fld w 0 5 = 13 then
    scalarReg (fld w 19 7) && scalarReg (fld w 12 7) && scalarReg (fld w 5 7)
  else if fld w 0 5 = 14 then
    scalarReg (fld w 19 7) && scalarReg (fld w 12 7) && scalarReg (fld w 5 7)
  else if fld w 0 5 = 15 then
    scalarReg (fld w 19 7) && scalarReg (fld w 12 7) && scalarReg (fld w 5 7)
  else if fld w 0 5 = 16 then
    scalarReg (fld w 19 7) && scalarReg (fld w 12 7) && scalarReg (fld w 5 7)
  else if fld w 0 5 = 17 then
    scalarReg (fld w 19 7) && scalarReg (fld w 12 7) && scalarReg (fld w 5 7)
  else false

def assignedMajor02 (w : IWord) : Bool :=
  if fld w 0 5 = 0 then
    scalarReg (fld w 19 7) && scalarReg (fld w 12 7) && scalarReg (fld w 5 7)
  else if fld w 0 5 = 1 then
    scalarReg (fld w 19 7) && scalarReg (fld w 12 7) && scalarReg (fld w 5 7)
  else if fld w 0 5 = 2 then
    scalarReg (fld w 19 7) && scalarReg (fld w 12 7) && scalarReg (fld w 5 7)
  else if fld w 0 5 = 3 then
    scalarReg (fld w 19 7) && scalarReg (fld w 12 7) && scalarReg (fld w 5 7)
  else if fld w 0 5 = 4 then
    scalarReg (fld w 19 7) && scalarReg (fld w 12 7) && scalarReg (fld w 5 7)
  else if fld w 0 5 = 5 then
    scalarReg (fld w 19 7) && scalarReg (fld w 12 7) && scalarReg (fld w 5 7)
  else if fld w 0 5 = 6 then
    scalarReg (fld w 19 7) && scalarReg (fld w 12 7) && scalarReg (fld w 5 7)
  else if fld w 0 12 = 8 then
    scalarReg (fld w 19 7) && scalarReg (fld w 12 7)
  else if fld w 0 12 = 9 then
    scalarReg (fld w 19 7) && scalarReg (fld w 12 7)
  else if fld w 0 12 = 10 then
    scalarReg (fld w 19 7) && scalarReg (fld w 12 7)
  else if fld w 0 12 = 11 then
    scalarReg (fld w 19 7) && scalarReg (fld w 12 7)
  else if fld w 0 12 = 12 then
    scalarReg (fld w 19 7) && scalarReg (fld w 12 7)
  else if fld w 0 5 = 13 then
    scalarReg (fld w 19 7) && scalarReg (fld w 12 7) && scalarReg (fld w 5 7)
  else if fld w 0 5 = 14 then
    scalarReg (fld w 19 7) && scalarReg (fld w 12 7) && scalarReg (fld w 5 7)
  else false

def assignedMajor03 (w : IWord) : Bool :=
  if fld w 0 5 = 0 then
    scalarReg (fld w 19 7) && scalarReg (fld w 12 7) && scalarReg (fld w 5 7)
  else if fld w 0 5 = 1 then
    scalarReg (fld w 19 7) && scalarReg (fld w 12 7) && scalarReg (fld w 5 7)
  else if fld w 0 5 = 2 then
    scalarReg (fld w 19 7) && scalarReg (fld w 12 7) && scalarReg (fld w 5 7)
  else if fld w 0 5 = 3 then
    scalarReg (fld w 19 7) && scalarReg (fld w 12 7) && scalarReg (fld w 5 7)
  else if fld w 0 5 = 4 then
    scalarReg (fld w 19 7) && scalarReg (fld w 12 7) && scalarReg (fld w 5 7)
  else if fld w 0 5 = 5 then
    scalarReg (fld w 19 7) && scalarReg (fld w 12 7) && scalarReg (fld w 5 7)
  else if fld w 0 5 = 6 then
    scalarReg (fld w 19 7) && scalarReg (fld w 12 7) && scalarReg (fld w 5 7)
  else if fld w 0 12 = 7 then
    scalarReg (fld w 19 7) && scalarReg (fld w 12 7)
  else if fld w 0 5 = 8 then
    scalarReg (fld w 19 7) && scalarReg (fld w 12 7) && scalarReg (fld w 5 7)
  else if fld w 0 5 = 9 then
    scalarReg (fld w 19 7) && scalarReg (fld w 12 7) && scalarReg (fld w 5 7)
  else if fld w 0 5 = 10 then
    scalarReg (fld w 19 7) && scalarReg (fld w 12 7) && scalarReg (fld w 5 7)
  else if fld w 0 12 = 11 then
    scalarReg (fld w 19 7) && scalarReg (fld w 12 7)
  else if fld w 0 12 = 12 then
    scalarReg (fld w 19 7) && scalarReg (fld w 12 7)
  else if fld w 0 12 = 13 then
    scalarReg (fld w 19 7) && scalarReg (fld w 12 7)
  else if fld w 0 12 = 14 then
    scalarReg (fld w 19 7) && scalarReg (fld w 12 7)
  else if fld w 0 12 = 15 then
    scalarReg (fld w 19 7) && scalarReg (fld w 12 7)
  else false

def assignedMajor04 (w : IWord) : Bool :=
  scalarReg (fld w 19 7) && scalarReg (fld w 12 7)

def assignedMajor05 (w : IWord) : Bool :=
  scalarReg (fld w 19 7) && scalarReg (fld w 12 7)

def assignedMajor06 (w : IWord) : Bool :=
  scalarReg (fld w 19 7) && scalarReg (fld w 12 7)

def assignedMajor07 (w : IWord) : Bool :=
  scalarReg (fld w 19 7) && scalarReg (fld w 12 7)

def assignedMajor08 (w : IWord) : Bool :=
  if fld w 6 6 = 0 then
    scalarReg (fld w 19 7) && scalarReg (fld w 12 7)
  else if fld w 6 6 = 16 then
    scalarReg (fld w 19 7) && scalarReg (fld w 12 7)
  else if fld w 6 6 = 32 then
    scalarReg (fld w 19 7) && scalarReg (fld w 12 7)
  else false

def assignedMajor09 (w : IWord) : Bool :=
  scalarReg (fld w 19 7) && scalarReg (fld w 12 7)

def assignedMajor0A (w : IWord) : Bool :=
  scalarReg (fld w 19 7)

def assignedMajor0B (w : IWord) : Bool :=
  scalarReg (fld w 19 7)

def assignedMajor0C (_ : IWord) : Bool :=
  true

def assignedMajor0D (w : IWord) : Bool :=
  scalarReg (fld w 19 7) && scalarReg (fld w 12 7)

def assignedMajor0E (w : IWord) : Bool :=
  scalarReg (fld w 12 7) && scalarReg (fld w 5 7)

def assignedMajor0F (w : IWord) : Bool :=
  scalarReg (fld w 12 7) && scalarReg (fld w 5 7)

def assignedMajor10 (w : IWord) : Bool :=
  scalarReg (fld w 12 7) && scalarReg (fld w 5 7)

def assignedMajor11 (w : IWord) : Bool :=
  scalarReg (fld w 12 7) && scalarReg (fld w 5 7)

def assignedMajor12 (w : IWord) : Bool :=
  scalarReg (fld w 12 7) && scalarReg (fld w 5 7)

def assignedMajor13 (w : IWord) : Bool :=
  scalarReg (fld w 12 7) && scalarReg (fld w 5 7)

def assignedMajor14 (w : IWord) : Bool :=
  if fld w 9 3 = 0 then
    scalarReg (fld w 19 7) && scalarReg (fld w 12 7)
  else if fld w 9 3 = 1 then
    scalarReg (fld w 19 7) && scalarReg (fld w 12 7)
  else if fld w 9 3 = 2 then
    scalarReg (fld w 19 7) && scalarReg (fld w 12 7)
  else if fld w 9 3 = 3 then
    scalarReg (fld w 19 7) && scalarReg (fld w 12 7)
  else if fld w 9 3 = 4 then
    scalarReg (fld w 19 7) && scalarReg (fld w 12 7)
  else if fld w 9 3 = 5 then
    scalarReg (fld w 19 7) && scalarReg (fld w 12 7)
  else if fld w 9 3 = 6 then
    scalarReg (fld w 19 7) && scalarReg (fld w 12 7)
  else false

def assignedMajor15 (w : IWord) : Bool :=
  if fld w 9 3 = 0 then
    scalarReg (fld w 19 7) && scalarReg (fld w 12 7)
  else if fld w 9 3 = 1 then
    scalarReg (fld w 19 7) && scalarReg (fld w 12 7)
  else if fld w 9 3 = 2 then
    scalarReg (fld w 19 7) && scalarReg (fld w 12 7)
  else if fld w 9 3 = 3 then
    scalarReg (fld w 19 7) && scalarReg (fld w 12 7)
  else false

def assignedMajor16 (w : IWord) : Bool :=
  if fld w 0 5 = 0 then
    scalarReg (fld w 19 7) && scalarReg (fld w 12 7) && scalarReg (fld w 5 7)
  else if fld w 0 5 = 1 then
    scalarReg (fld w 19 7) && scalarReg (fld w 12 7) && scalarReg (fld w 5 7)
  else if fld w 0 5 = 2 then
    scalarReg (fld w 19 7) && scalarReg (fld w 12 7) && scalarReg (fld w 5 7)
  else if fld w 0 5 = 3 then
    scalarReg (fld w 19 7) && scalarReg (fld w 12 7) && scalarReg (fld w 5 7)
  else if fld w 0 5 = 4 then
    scalarReg (fld w 19 7) && scalarReg (fld w 12 7) && scalarReg (fld w 5 7)
  else if fld w 0 5 = 5 then
    scalarReg (fld w 19 7) && scalarReg (fld w 12 7) && scalarReg (fld w 5 7)
  else if fld w 0 5 = 6 then
    scalarReg (fld w 19 7) && scalarReg (fld w 12 7) && scalarReg (fld w 5 7)
  else if fld w 0 5 = 7 then
    scalarReg (fld w 19 7) && scalarReg (fld w 12 7) && scalarReg (fld w 5 7)
  else if fld w 0 5 = 8 then
    scalarReg (fld w 19 7) && scalarReg (fld w 12 7) && scalarReg (fld w 5 7)
  else if fld w 0 5 = 9 then
    scalarReg (fld w 19 7) && scalarReg (fld w 12 7) && scalarReg (fld w 5 7)
  else if fld w 0 5 = 16 then
    scalarReg (fld w 19 7) && scalarReg (fld w 12 7) && scalarReg (fld w 5 7)
  else if fld w 0 5 = 17 then
    scalarReg (fld w 19 7) && scalarReg (fld w 12 7) && scalarReg (fld w 5 7)
  else if fld w 0 5 = 18 then
    scalarReg (fld w 19 7) && scalarReg (fld w 12 7) && scalarReg (fld w 5 7)
  else if fld w 0 5 = 19 then
    scalarReg (fld w 19 7) && scalarReg (fld w 12 7) && scalarReg (fld w 5 7)
  else if fld w 0 5 = 20 then
    scalarReg (fld w 19 7) && scalarReg (fld w 12 7) && scalarReg (fld w 5 7)
  else if fld w 0 5 = 21 then
    scalarReg (fld w 19 7) && scalarReg (fld w 12 7) && scalarReg (fld w 5 7)
  else if fld w 0 5 = 22 then
    scalarReg (fld w 19 7) && scalarReg (fld w 12 7) && scalarReg (fld w 5 7)
  else if fld w 0 5 = 23 then
    scalarReg (fld w 19 7) && scalarReg (fld w 12 7) && scalarReg (fld w 5 7)
  else if fld w 0 5 = 24 then
    scalarReg (fld w 19 7) && scalarReg (fld w 12 7) && scalarReg (fld w 5 7)
  else if fld w 0 5 = 25 then
    scalarReg (fld w 19 7) && scalarReg (fld w 12 7) && scalarReg (fld w 5 7)
  else if fld w 0 5 = 26 then
    scalarReg (fld w 19 7) && scalarReg (fld w 12 7) && scalarReg (fld w 5 7)
  else false

def assignedMajor17 (w : IWord) : Bool :=
  if fld w 0 5 = 0 then
    scalarReg (fld w 19 7) && scalarReg (fld w 12 7) && scalarReg (fld w 5 7)
  else if fld w 0 5 = 1 then
    scalarReg (fld w 19 7) && scalarReg (fld w 12 7) && scalarReg (fld w 5 7)
  else if fld w 0 12 = 2 ∧ fld w 19 7 = 0 then
    scalarReg (fld w 12 7)
  else if fld w 0 12 = 3 ∧ fld w 19 7 = 0 then
    scalarReg (fld w 12 7)
  else if fld w 0 12 = 4 then
    scalarReg (fld w 19 7) && scalarReg (fld w 12 7)
  else if fld w 0 12 = 5 ∧ fld w 19 7 = 0 then
    scalarReg (fld w 12 7)
  else if fld w 0 5 = 6 ∧ fld w 12 14 = 0 then
    decide ((fld w 9 3).toNat < 6)
  else if fld w 0 5 = 7 then
    scalarReg (fld w 19 7) && scalarReg (fld w 12 7) && scalarReg (fld w 5 7)
  else false

def assignedMajor18 (w : IWord) : Bool :=
  if fld w 10 9 = 0 then
    scalarReg (fld w 19 7)
  else if fld w 10 2 = 1 then
    scalarReg (fld w 19 7) && scalarReg (fld w 12 7)
  else if fld w 10 2 = 2 then
    scalarReg (fld w 19 7) && scalarReg (fld w 12 7)
  else if fld w 10 2 = 3 then
    scalarReg (fld w 19 7) && scalarReg (fld w 12 7)
  else false

def assignedMajor19 (w : IWord) : Bool :=
  if fld w 0 26 = 0 then
    true
  else if fld w 0 26 = 1 then
    true
  else if fld w 0 26 = 2 then
    true
  else if fld w 0 26 = 3 then
    true
  else if fld w 0 26 = 4 then
    true
  else if fld w 0 5 = 5 ∧ fld w 19 7 = 0 then
    scalarReg (fld w 12 7) && scalarReg (fld w 5 7)
  else if fld w 0 26 = 6 then
    true
  else if fld w 0 12 = 7 then
    scalarReg (fld w 19 7) && scalarReg (fld w 12 7)
  else if fld w 0 26 = 8 then
    true
  else if fld w 0 26 = 9 then
    true
  else false

def assignedMajor1A (w : IWord) : Bool :=
  if fld w 0 5 = 0 then
    true
  else false

def assignedMajor1B (w : IWord) : Bool :=
  if fld w 10 2 = 0 then
    scalarReg (fld w 19 7) && scalarReg (fld w 12 7)
  else if fld w 10 2 = 1 then
    scalarReg (fld w 19 7) && scalarReg (fld w 12 7)
  else if fld w 10 2 = 2 then
    scalarReg (fld w 19 7) && scalarReg (fld w 12 7)
  else if fld w 10 2 = 3 then
    scalarReg (fld w 19 7) && scalarReg (fld w 12 7)
  else false

def assignedMajor1C (w : IWord) : Bool :=
  if fld w 0 12 = 0 then
    scalarReg (fld w 19 7) && scalarReg (fld w 12 7)
  else if fld w 0 5 = 1 ∧ fld w 19 7 = 0 then
    scalarReg (fld w 12 7) && scalarReg (fld w 5 7)
  else if fld w 0 12 = 2 then
    scalarReg (fld w 19 7) && scalarReg (fld w 12 7)
  else if fld w 0 12 = 3 ∧ fld w 19 7 = 0 then
    scalarReg (fld w 12 7)
  else false

def assignedMajor1D (w : IWord) : Bool :=
  if fld w 0 5 = 0 then
    scalarReg (fld w 19 7) && scalarReg (fld w 12 7) && scalarReg (fld w 5 7)
  else if fld w 0 5 = 1 then
    scalarReg (fld w 19 7) && scalarReg (fld w 12 7) && scalarReg (fld w 5 7)
  else if fld w 0 12 = 2 then
    scalarReg (fld w 19 7) && scalarReg (fld w 12 7)
  else if fld w 0 12 = 3 then
    scalarReg (fld w 19 7) && scalarReg (fld w 12 7)
  else if fld w 0 12 = 4 ∧ fld w 19 7 = 0 then
    scalarReg (fld w 12 7)
  else if fld w 0 5 = 5 ∧ fld w 19 7 = 0 then
    scalarReg (fld w 12 7) && scalarReg (fld w 5 7)
  else false

def assignedMajor1E (w : IWord) : Bool :=
  if fld w 0 12 = 0 then
    scalarReg (fld w 19 7) && scalarReg (fld w 12 7)
  else if fld w 0 19 = 1 then
    scalarReg (fld w 19 7)
  else if fld w 0 12 = 2 ∧ fld w 19 7 = 0 then
    scalarReg (fld w 12 7)
  else if fld w 0 5 = 3 ∧ fld w 19 7 = 0 then
    scalarReg (fld w 12 7) && scalarReg (fld w 5 7)
  else if fld w 0 5 = 4 ∧ fld w 19 7 = 0 then
    scalarReg (fld w 12 7) && scalarReg (fld w 5 7)
  else if fld w 0 12 = 5 ∧ fld w 19 7 = 0 then
    scalarReg (fld w 12 7)
  else if fld w 0 5 = 6 ∧ fld w 19 7 = 0 then
    scalarReg (fld w 12 7) && scalarReg (fld w 5 7)
  else false

def assignedMajor1F (w : IWord) : Bool :=
  if fld w 0 5 = 0 then
    scalarReg (fld w 19 7) && scalarReg (fld w 12 7) && scalarReg (fld w 5 7)
  else if fld w 0 12 = 1 then
    scalarReg (fld w 19 7) && scalarReg (fld w 12 7)
  else if fld w 0 12 = 2 ∧ fld w 19 7 = 0 then
    scalarReg (fld w 12 7)
  else if fld w 0 12 = 3 then
    scalarReg (fld w 19 7) && scalarReg (fld w 12 7)
  else false

def assignedMajor20 (w : IWord) : Bool :=
  if fld w 0 1 = 0 then
    true
  else if fld w 0 1 = 1 then
    true
  else false

def assignedMajor21 (w : IWord) : Bool :=
  if fld w 0 1 = 0 then
    true
  else if fld w 0 1 = 1 then
    true
  else false

def assignedMajor22 (w : IWord) : Bool :=
  if fld w 0 1 = 0 then
    true
  else if fld w 0 1 = 1 then
    true
  else false

def assignedMajor23 (w : IWord) : Bool :=
  if fld w 0 1 = 0 then
    true
  else if fld w 0 1 = 1 then
    true
  else false

def assignedMajor24 (w : IWord) : Bool :=
  if fld w 0 1 = 0 then
    true
  else if fld w 0 1 = 1 then
    true
  else false

def assignedMajor25 (w : IWord) : Bool :=
  if fld w 0 1 = 0 then
    true
  else if fld w 0 1 = 1 then
    true
  else false

def assignedMajor26 (w : IWord) : Bool :=
  if fld w 0 1 = 0 then
    true
  else if fld w 0 1 = 1 then
    true
  else false

def assignedMajor27 (w : IWord) : Bool :=
  if fld w 0 1 = 0 then
    true
  else if fld w 0 1 = 1 then
    true
  else false

def assignedMajor28 (w : IWord) : Bool :=
  if fld w 0 1 = 0 then
    true
  else if fld w 0 3 = 1 then
    true
  else false

def assignedMajor29 (w : IWord) : Bool :=
  if fld w 0 1 = 0 then
    true
  else if fld w 0 1 = 1 then
    true
  else false

def assignedMajor2A (w : IWord) : Bool :=
  if fld w 0 1 = 0 then
    true
  else if fld w 0 1 = 1 then
    true
  else false

def assignedMajor2B (w : IWord) : Bool :=
  if fld w 0 1 = 0 then
    true
  else if fld w 0 1 = 1 then
    true
  else false

def assignedMajor2C (w : IWord) : Bool :=
  if fld w 0 1 = 0 then
    true
  else if fld w 0 1 = 1 then
    true
  else false

def assignedMajor2D (w : IWord) : Bool :=
  if fld w 0 1 = 0 then
    true
  else if fld w 0 1 = 1 then
    true
  else false

def assignedMajor2E (w : IWord) : Bool :=
  if fld w 0 1 = 0 then
    true
  else if fld w 0 1 = 1 then
    true
  else false

def assignedMajor2F (w : IWord) : Bool :=
  if fld w 0 1 = 0 then
    true
  else if fld w 0 1 = 1 then
    true
  else false

def assignedMajor30 (w : IWord) : Bool :=
  if fld w 0 1 = 0 then
    true
  else if fld w 0 1 = 1 then
    true
  else false

def assignedMajor31 (w : IWord) : Bool :=
  if fld w 0 1 = 0 then
    true
  else if fld w 0 1 = 1 then
    true
  else false

def assignedMajor32 (w : IWord) : Bool :=
  if fld w 0 1 = 0 then
    true
  else if fld w 0 1 = 1 then
    true
  else false

def assignedMajor33 (w : IWord) : Bool :=
  if fld w 0 1 = 0 then
    true
  else if fld w 0 1 = 1 then
    true
  else false

def assignedMajor34 (w : IWord) : Bool :=
  if fld w 0 1 = 0 ∧ fld w 3 1 = 0 ∧ fld w 5 7 = 0 then
    true
  else if fld w 0 1 = 0 ∧ fld w 3 1 = 0 ∧ fld w 5 7 = 1 then
    true
  else if fld w 0 1 = 0 ∧ fld w 3 1 = 0 ∧ fld w 5 7 = 2 then
    true
  else if fld w 0 1 = 0 ∧ fld w 3 1 = 0 ∧ fld w 5 7 = 3 then
    true
  else if fld w 0 1 = 0 ∧ fld w 3 1 = 0 ∧ fld w 5 7 = 4 then
    true
  else if fld w 0 1 = 0 ∧ fld w 3 1 = 0 ∧ fld w 5 7 = 5 then
    true
  else if fld w 0 1 = 0 ∧ fld w 3 1 = 0 ∧ fld w 5 7 = 6 then
    true
  else if fld w 0 1 = 0 ∧ fld w 3 1 = 0 ∧ fld w 5 7 = 7 then
    true
  else if fld w 0 1 = 0 ∧ fld w 3 1 = 0 ∧ fld w 5 7 = 8 then
    true
  else if fld w 0 1 = 0 ∧ fld w 3 1 = 0 ∧ fld w 5 7 = 9 then
    true
  else if fld w 0 1 = 0 ∧ fld w 3 1 = 0 ∧ fld w 5 7 = 10 then
    true
  else if fld w 0 1 = 0 ∧ fld w 3 1 = 0 ∧ fld w 5 7 = 11 then
    true
  else if fld w 0 1 = 0 ∧ fld w 3 1 = 0 ∧ fld w 5 7 = 12 then
    true
  else if fld w 0 1 = 0 ∧ fld w 3 1 = 0 ∧ fld w 5 7 = 13 then
    true
  else if fld w 0 1 = 0 ∧ fld w 3 1 = 0 ∧ fld w 5 7 = 14 then
    true
  else if fld w 0 2 = 0 ∧ fld w 3 1 = 0 ∧ fld w 5 7 = 15 then
    decide ((fld w 19 7) = (fld w 12 7))
  else if fld w 0 12 = 512 then
    true
  else if fld w 0 12 = 544 then
    true
  else if fld w 0 1 = 0 ∧ fld w 3 9 = 72 then
    true
  else if fld w 0 1 = 0 ∧ fld w 3 9 = 76 then
    true
  else false

def assignedMajor35 (w : IWord) : Bool :=
  if fld w 0 5 = 0 ∧ fld w 12 7 = 0 then
    scalarReg (fld w 5 7)
  else if fld w 0 5 = 1 then
    scalarReg (fld w 19 7) && scalarReg (fld w 5 7)
  else if fld w 0 5 = 2 then
    scalarReg (fld w 12 7) && scalarReg (fld w 5 7)
  else if fld w 0 5 = 3 then
    true
  else if fld w 0 5 = 4 then
    true
  else if fld w 0 5 = 5 then
    true
  else if fld w 0 5 = 6 then
    true
  else if fld w 0 5 = 7 then
    scalarReg (fld w 5 7)
  else if fld w 0 5 = 8 then
    scalarReg (fld w 5 7)
  else if fld w 0 12 = 9 then
    scalarReg (fld w 19 7)
  else if fld w 0 12 = 10 then
    scalarReg (fld w 19 7)
  else if fld w 0 12 = 11 then
    scalarReg (fld w 19 7)
  else if fld w 0 12 = 12 then
    scalarReg (fld w 19 7)
  else if fld w 0 12 = 13 then
    scalarReg (fld w 19 7)
  else if fld w 0 12 = 14 then
    scalarReg (fld w 19 7)
  else if fld w 0 5 = 15 then
    scalarReg (fld w 19 7)
  else if fld w 0 12 = 16 then
    scalarReg (fld w 19 7)
  else if fld w 0 12 = 17 then
    scalarReg (fld w 19 7)
  else if fld w 0 5 = 18 then
    true
  else if fld w 0 12 = 19 then
    scalarReg (fld w 19 7)
  else if fld w 0 12 = 20 then
    scalarReg (fld w 19 7)
  else false

def assignedMajor3D (w : IWord) : Bool :=
  if fld w 0 5 = 0 ∧ fld w 12 7 = 0 then
    scalarReg (fld w 5 7)
  else if fld w 0 5 = 3 then
    true
  else if fld w 0 5 = 4 then
    true
  else if fld w 0 5 = 5 then
    true
  else if fld w 0 5 = 6 then
    true
  else if fld w 0 5 = 7 then
    scalarReg (fld w 5 7)
  else if fld w 0 5 = 8 then
    scalarReg (fld w 5 7)
  else if fld w 0 12 = 9 then
    scalarReg (fld w 19 7)
  else if fld w 0 12 = 10 then
    scalarReg (fld w 19 7)
  else if fld w 0 12 = 11 then
    scalarReg (fld w 19 7)
  else if fld w 0 12 = 12 then
    scalarReg (fld w 19 7)
  else if fld w 0 12 = 13 then
    scalarReg (fld w 19 7)
  else if fld w 0 12 = 14 then
    scalarReg (fld w 19 7)
  else if fld w 0 5 = 15 then
    scalarReg (fld w 19 7)
  else if fld w 0 12 = 16 then
    scalarReg (fld w 19 7)
  else if fld w 0 12 = 17 then
    scalarReg (fld w 19 7)
  else if fld w 0 5 = 18 then
    true
  else if fld w 0 12 = 19 then
    scalarReg (fld w 19 7)
  else if fld w 0 12 = 20 then
    scalarReg (fld w 19 7)
  else false

def assignedMajor36 (w : IWord) : Bool :=
  if fld w 2 10 = 0 then
    scalarReg (fld w 12 7) && decide ((fld w 0 2) ≠ 3)
  else if fld w 2 3 = 1 then
    scalarReg (fld w 12 7) && scalarReg (fld w 5 7) && decide ((fld w 0 2) ≠ 3)
  else if fld w 2 3 = 2 then
    scalarReg (fld w 12 7) && decide ((fld w 0 2) ≠ 3)
  else if fld w 2 10 = 3 then
    scalarReg (fld w 12 7) && decide ((fld w 0 2) ≠ 3)
  else if fld w 2 10 = 4 then
    scalarReg (fld w 12 7) && decide ((fld w 0 2) ≠ 3)
  else if fld w 2 3 = 5 then
    scalarReg (fld w 12 7) && scalarReg (fld w 5 7) && decide ((fld w 0 2) ≠ 3)
  else if fld w 2 10 = 6 then
    scalarReg (fld w 12 7) && decide ((fld w 0 2) ≠ 3)
  else false

def assignedMajor37 (w : IWord) : Bool :=
  if fld w 2 10 = 0 then
    scalarReg (fld w 12 7) && decide ((fld w 0 2) ≠ 3)
  else if fld w 2 3 = 1 then
    scalarReg (fld w 12 7) && scalarReg (fld w 5 7) && decide ((fld w 0 2) ≠ 3)
  else if fld w 2 3 = 2 then
    scalarReg (fld w 12 7) && decide ((fld w 0 2) ≠ 3)
  else if fld w 2 10 = 3 then
    scalarReg (fld w 12 7) && decide ((fld w 0 2) ≠ 3)
  else if fld w 2 10 = 4 then
    scalarReg (fld w 12 7) && decide ((fld w 0 2) ≠ 3)
  else if fld w 2 3 = 5 then
    scalarReg (fld w 12 7) && scalarReg (fld w 5 7) && decide ((fld w 0 2) ≠ 3)
  else false

def assignedMajor3C (w : IWord) : Bool :=
  if fld w 0 4 = 0 then
    true
  else if fld w 0 1 = 1 ∧ fld w 3 2 = 0 then
    scalarReg (fld w 19 7) && decide ((fld w 1 2) ≠ 3)
  else false

def assignedMajor38 (w : IWord) : Bool :=
  if fld w 0 5 = 0 then
    scalarReg (fld w 19 7) && scalarReg (fld w 12 7) && scalarReg (fld w 5 7)
  else if fld w 0 26 = 1 then
    true
  else if fld w 0 5 = 2 then
    scalarReg (fld w 19 7) && scalarReg (fld w 12 7) && scalarReg (fld w 5 7)
  else if fld w 0 5 = 3 ∧ fld w 19 7 = 0 then
    scalarReg (fld w 12 7) && scalarReg (fld w 5 7)
  else if fld w 0 26 = 4 then
    true
  else if fld w 0 5 = 5 ∧ fld w 19 7 = 0 then
    scalarReg (fld w 12 7) && scalarReg (fld w 5 7)
  else false

def assignedMajor39 (w : IWord) : Bool :=
  if fld w 0 12 = 0 ∧ fld w 19 7 = 0 then
    scalarReg (fld w 12 7)
  else if fld w 0 26 = 1 then
    true
  else if fld w 0 5 = 2 ∧ fld w 19 7 = 0 then
    scalarReg (fld w 12 7) && scalarReg (fld w 5 7)
  else if fld w 0 12 = 3 then
    scalarReg (fld w 19 7) && scalarReg (fld w 12 7)
  else if fld w 0 26 = 4 then
    true
  else if fld w 0 12 = 5 ∧ fld w 15 11 = 0 then
    true
  else if fld w 0 5 = 6 ∧ fld w 8 4 = 0 ∧ fld w 15 11 = 0 then
    true
  else if fld w 0 12 = 7 ∧ fld w 13 6 = 0 ∧ fld w 22 4 = 0 then
    true
  else if fld w 0 26 = 8 then
    true
  else if fld w 0 5 = 9 ∧ fld w 8 4 = 0 then
    scalarReg (fld w 19 7) && scalarReg (fld w 12 7)
  else if fld w 0 5 = 10 ∧ fld w 8 4 = 0 then
    scalarReg (fld w 19 7) && scalarReg (fld w 12 7)
  else if fld w 0 12 = 11 then
    scalarReg (fld w 19 7) && scalarReg (fld w 12 7)
  else if fld w 0 12 = 12 ∧ fld w 19 7 = 0 then
    scalarReg (fld w 12 7)
  else false

def assignedMajor3A (w : IWord) : Bool :=
  if fld w 0 12 = 0 then
    scalarReg (fld w 19 7) && scalarReg (fld w 12 7)
  else if fld w 0 26 = 1 then
    true
  else if fld w 0 5 = 2 ∧ fld w 20 6 = 0 then
    true
  else if fld w 0 19 = 3 ∧ fld w 20 6 = 0 then
    true
  else if fld w 0 5 = 4 ∧ fld w 13 6 = 0 then
    scalarReg (fld w 5 7)
  else if fld w 0 5 = 5 ∧ fld w 20 6 = 0 then
    scalarReg (fld w 5 7)
  else if fld w 0 19 = 6 ∧ fld w 20 6 = 0 then
    true
  else false

/-- Whether a word is an instruction (R71). -/
def assigned (w : IWord) : Bool :=
  match (fld w 26 6).toNat with
  | 0x01 => assignedMajor01 w
  | 0x02 => assignedMajor02 w
  | 0x03 => assignedMajor03 w
  | 0x04 => assignedMajor04 w
  | 0x05 => assignedMajor05 w
  | 0x06 => assignedMajor06 w
  | 0x07 => assignedMajor07 w
  | 0x08 => assignedMajor08 w
  | 0x09 => assignedMajor09 w
  | 0x0A => assignedMajor0A w
  | 0x0B => assignedMajor0B w
  | 0x0C => assignedMajor0C w
  | 0x0D => assignedMajor0D w
  | 0x0E => assignedMajor0E w
  | 0x0F => assignedMajor0F w
  | 0x10 => assignedMajor10 w
  | 0x11 => assignedMajor11 w
  | 0x12 => assignedMajor12 w
  | 0x13 => assignedMajor13 w
  | 0x14 => assignedMajor14 w
  | 0x15 => assignedMajor15 w
  | 0x16 => assignedMajor16 w
  | 0x17 => assignedMajor17 w
  | 0x18 => assignedMajor18 w
  | 0x19 => assignedMajor19 w
  | 0x1A => assignedMajor1A w
  | 0x1B => assignedMajor1B w
  | 0x1C => assignedMajor1C w
  | 0x1D => assignedMajor1D w
  | 0x1E => assignedMajor1E w
  | 0x1F => assignedMajor1F w
  | 0x20 => assignedMajor20 w
  | 0x21 => assignedMajor21 w
  | 0x22 => assignedMajor22 w
  | 0x23 => assignedMajor23 w
  | 0x24 => assignedMajor24 w
  | 0x25 => assignedMajor25 w
  | 0x26 => assignedMajor26 w
  | 0x27 => assignedMajor27 w
  | 0x28 => assignedMajor28 w
  | 0x29 => assignedMajor29 w
  | 0x2A => assignedMajor2A w
  | 0x2B => assignedMajor2B w
  | 0x2C => assignedMajor2C w
  | 0x2D => assignedMajor2D w
  | 0x2E => assignedMajor2E w
  | 0x2F => assignedMajor2F w
  | 0x30 => assignedMajor30 w
  | 0x31 => assignedMajor31 w
  | 0x32 => assignedMajor32 w
  | 0x33 => assignedMajor33 w
  | 0x34 => assignedMajor34 w
  | 0x35 => assignedMajor35 w
  | 0x3D => assignedMajor3D w
  | 0x36 => assignedMajor36 w
  | 0x37 => assignedMajor37 w
  | 0x3C => assignedMajor3C w
  | 0x38 => assignedMajor38 w
  | 0x39 => assignedMajor39 w
  | 0x3A => assignedMajor3A w
  | _ => false

/-- The word of an instruction (Table 03-1 and R63 to R70).  A step of the device has no word: its image is the
all-zeros word, which is illegal (R73) and so decodes to nothing. -/
def encode : Instr → IWord
  | .contextSave _ => 0
  | .contextRestore _ => 0
  | .scalarResultArrival _ _ => 0
  | .arrayInstructionBegin _ => 0
  | .arrayInstructionComplete _ => 0
  | .tileAccept _ _ => 0
  | .tileWordComplete => 0
  | .microThreadRelease _ => 0
  | .blockFetch _ => 0
  | .peerFaultInterrupt _ => 0
  | .meshInterrupt _ => 0
  | .cycleCompare _ => 0
  | .mailboxInterrupt _ => 0
  | .faultQueueNonEmpty _ => 0
  | .microThreadSummary _ => 0
  | .managementInterrupt _ => 0
  | .arrayParityTrap _ => 0
  | .busErrorTrap _ => 0
  | .streamFaultTrap _ => 0
  | .directoryOverflowTrap _ => 0
  | .microThreadFaultTrap _ => 0
  | .sleepWake _ => 0
  | .walkComplete _ => 0
  | .homeReadRequest _ => 0
  | .homeWriteArrival _ _ _ _ => 0
  | .homeAtomic _ _ _ _ => 0
  | .monitorMatchReply _ => 0
  | .waitaTimeout _ => 0
  | .waitvTimeout _ => 0
  | .vstrPacketArrival _ _ _ _ _ _ => 0
  | .syncRequestArrival _ _ _ _ _ => 0
  | .syncGrant _ => 0
  | .copyChunk _ => 0
  | .copyComplete _ => 0
  | .promiseMissed _ => 0
  | .faultReply _ => 0
  | .streamUnit _ _ => 0
  | .streamComplete _ => 0
  | .scfgInstall _ => 0
  | .channelMessageDelivery _ _ _ _ _ _ => 0
  | .nputLanding _ _ _ _ _ _ => 0
  | .meshMessageArrival _ _ _ _ _ => 0
  | .preemptMessage _ _ _ => 0
  | .spillRedelivery => 0
  | .nodeDispatch _ => 0
  | .nodeAging _ => 0
  | .triggerArrival _ _ => 0
  | .triggerSpawnRetry _ => 0
  | .mailboxRequest _ _ _ => 0
  | .mailboxNext _ => 0
  | .mailboxNotify _ _ => 0
  | .faultWindowTake _ => 0
  | .faultWindowReply _ => 0
  | .directoryTake _ _ => 0
  | .directoryAck _ _ => 0
  | .violationLogTake _ _ => 0
  | .errorCountersClear _ => 0
  | .heatEntryRead _ _ => 0
  | .heatSeedWrite _ _ => 0
  | .heatClear _ => 0
  | .hostFaultTake _ => 0
  | .hostFaultReply _ _ => 0
  | .svcRetire _ _ => 0
  | .svcClear _ _ => 0
  | .svcReleaseHart _ => 0
  | .evlogRead => 0
  | .codecInstallWrite _ => 0
  | .attestationRequest => 0
  | .loadStart => 0
  | .registerWrite _ _ => 0
  | .deviceReset => 0
  | .hardwareError _ _ _ => 0
  | .relocationStallEnd _ => 0
  | .xratioStallEnd _ => 0
  | .powerComparison _ _ => 0
  | .codecLearningComplete _ => 0
  | .codecResampleStart _ => 0
  | .scrubberRecode _ _ _ => 0
  | .scrubberPassEnd _ => 0
  | .codecTableInstall _ => 0
  | .illegalInstruction _ => 0
  | .instructionFetchFault => 0
  | .homeAcknowledgement _ => 0
  | .msixVectorUnmask _ => 0
  | .add d a b => BitVec.ofNat 32 (0x04000000 + d.toNat * 524288 + a.toNat * 4096 + b.toNat * 32)
  | .sub d a b => BitVec.ofNat 32 (0x04000001 + d.toNat * 524288 + a.toNat * 4096 + b.toNat * 32)
  | .and d a b => BitVec.ofNat 32 (0x04000002 + d.toNat * 524288 + a.toNat * 4096 + b.toNat * 32)
  | .or d a b => BitVec.ofNat 32 (0x04000003 + d.toNat * 524288 + a.toNat * 4096 + b.toNat * 32)
  | .xor d a b => BitVec.ofNat 32 (0x04000004 + d.toNat * 524288 + a.toNat * 4096 + b.toNat * 32)
  | .andn d a b => BitVec.ofNat 32 (0x04000005 + d.toNat * 524288 + a.toNat * 4096 + b.toNat * 32)
  | .sll d a b => BitVec.ofNat 32 (0x04000006 + d.toNat * 524288 + a.toNat * 4096 + b.toNat * 32)
  | .srl d a b => BitVec.ofNat 32 (0x04000007 + d.toNat * 524288 + a.toNat * 4096 + b.toNat * 32)
  | .sra d a b => BitVec.ofNat 32 (0x04000008 + d.toNat * 524288 + a.toNat * 4096 + b.toNat * 32)
  | .slt d a b => BitVec.ofNat 32 (0x04000009 + d.toNat * 524288 + a.toNat * 4096 + b.toNat * 32)
  | .sltn d a b => BitVec.ofNat 32 (0x0400000A + d.toNat * 524288 + a.toNat * 4096 + b.toNat * 32)
  | .min d a b => BitVec.ofNat 32 (0x0400000B + d.toNat * 524288 + a.toNat * 4096 + b.toNat * 32)
  | .max d a b => BitVec.ofNat 32 (0x0400000C + d.toNat * 524288 + a.toNat * 4096 + b.toNat * 32)
  | .minn d a b => BitVec.ofNat 32 (0x0400000D + d.toNat * 524288 + a.toNat * 4096 + b.toNat * 32)
  | .maxn d a b => BitVec.ofNat 32 (0x0400000E + d.toNat * 524288 + a.toNat * 4096 + b.toNat * 32)
  | .addw d a b => BitVec.ofNat 32 (0x0400000F + d.toNat * 524288 + a.toNat * 4096 + b.toNat * 32)
  | .subw d a b => BitVec.ofNat 32 (0x04000010 + d.toNat * 524288 + a.toNat * 4096 + b.toNat * 32)
  | .cmov d a b => BitVec.ofNat 32 (0x04000011 + d.toNat * 524288 + a.toNat * 4096 + b.toNat * 32)
  | .mul d a b => BitVec.ofNat 32 (0x08000000 + d.toNat * 524288 + a.toNat * 4096 + b.toNat * 32)
  | .mulh d a b => BitVec.ofNat 32 (0x08000001 + d.toNat * 524288 + a.toNat * 4096 + b.toNat * 32)
  | .mulhn d a b => BitVec.ofNat 32 (0x08000002 + d.toNat * 524288 + a.toNat * 4096 + b.toNat * 32)
  | .div d a b => BitVec.ofNat 32 (0x08000003 + d.toNat * 524288 + a.toNat * 4096 + b.toNat * 32)
  | .divn d a b => BitVec.ofNat 32 (0x08000004 + d.toNat * 524288 + a.toNat * 4096 + b.toNat * 32)
  | .rem d a b => BitVec.ofNat 32 (0x08000005 + d.toNat * 524288 + a.toNat * 4096 + b.toNat * 32)
  | .remn d a b => BitVec.ofNat 32 (0x08000006 + d.toNat * 524288 + a.toNat * 4096 + b.toNat * 32)
  | .clz d a => BitVec.ofNat 32 (0x08000008 + d.toNat * 524288 + a.toNat * 4096)
  | .ctz d a => BitVec.ofNat 32 (0x08000009 + d.toNat * 524288 + a.toNat * 4096)
  | .popc d a => BitVec.ofNat 32 (0x0800000A + d.toNat * 524288 + a.toNat * 4096)
  | .rev d a => BitVec.ofNat 32 (0x0800000B + d.toNat * 524288 + a.toNat * 4096)
  | .bswap d a => BitVec.ofNat 32 (0x0800000C + d.toNat * 524288 + a.toNat * 4096)
  | .rotl d a b => BitVec.ofNat 32 (0x0800000D + d.toNat * 524288 + a.toNat * 4096 + b.toNat * 32)
  | .rotr d a b => BitVec.ofNat 32 (0x0800000E + d.toNat * 524288 + a.toNat * 4096 + b.toNat * 32)
  | .fadd d a b => BitVec.ofNat 32 (0x0C000000 + d.toNat * 524288 + a.toNat * 4096 + b.toNat * 32)
  | .fsub d a b => BitVec.ofNat 32 (0x0C000001 + d.toNat * 524288 + a.toNat * 4096 + b.toNat * 32)
  | .fmul d a b => BitVec.ofNat 32 (0x0C000002 + d.toNat * 524288 + a.toNat * 4096 + b.toNat * 32)
  | .fdiv d a b => BitVec.ofNat 32 (0x0C000003 + d.toNat * 524288 + a.toNat * 4096 + b.toNat * 32)
  | .fma d a b => BitVec.ofNat 32 (0x0C000004 + d.toNat * 524288 + a.toNat * 4096 + b.toNat * 32)
  | .fmin d a b => BitVec.ofNat 32 (0x0C000005 + d.toNat * 524288 + a.toNat * 4096 + b.toNat * 32)
  | .fmax d a b => BitVec.ofNat 32 (0x0C000006 + d.toNat * 524288 + a.toNat * 4096 + b.toNat * 32)
  | .fsqrt d a => BitVec.ofNat 32 (0x0C000007 + d.toNat * 524288 + a.toNat * 4096)
  | .feq d a b => BitVec.ofNat 32 (0x0C000008 + d.toNat * 524288 + a.toNat * 4096 + b.toNat * 32)
  | .flt d a b => BitVec.ofNat 32 (0x0C000009 + d.toNat * 524288 + a.toNat * 4096 + b.toNat * 32)
  | .fle d a b => BitVec.ofNat 32 (0x0C00000A + d.toNat * 524288 + a.toNat * 4096 + b.toNat * 32)
  | .fcvtis d a => BitVec.ofNat 32 (0x0C00000B + d.toNat * 524288 + a.toNat * 4096)
  | .fcvtsi d a => BitVec.ofNat 32 (0x0C00000C + d.toNat * 524288 + a.toNat * 4096)
  | .fclass d a => BitVec.ofNat 32 (0x0C00000D + d.toNat * 524288 + a.toNat * 4096)
  | .fcvtbf d a => BitVec.ofNat 32 (0x0C00000E + d.toNat * 524288 + a.toNat * 4096)
  | .fcvtfb d a => BitVec.ofNat 32 (0x0C00000F + d.toNat * 524288 + a.toNat * 4096)
  | .addi d a i => BitVec.ofNat 32 (0x10000000 + d.toNat * 524288 + a.toNat * 4096 + i.toNat)
  | .andi d a i => BitVec.ofNat 32 (0x14000000 + d.toNat * 524288 + a.toNat * 4096 + i.toNat)
  | .ori d a i => BitVec.ofNat 32 (0x18000000 + d.toNat * 524288 + a.toNat * 4096 + i.toNat)
  | .xori d a i => BitVec.ofNat 32 (0x1C000000 + d.toNat * 524288 + a.toNat * 4096 + i.toNat)
  | .slli d a n => BitVec.ofNat 32 (0x20000000 + d.toNat * 524288 + a.toNat * 4096 + n.toNat)
  | .srli d a n => BitVec.ofNat 32 (0x20000400 + d.toNat * 524288 + a.toNat * 4096 + n.toNat)
  | .srai d a n => BitVec.ofNat 32 (0x20000800 + d.toNat * 524288 + a.toNat * 4096 + n.toNat)
  | .slti d a i => BitVec.ofNat 32 (0x24000000 + d.toNat * 524288 + a.toNat * 4096 + i.toNat)
  | .lih d i => BitVec.ofNat 32 (0x28000000 + d.toNat * 524288 + i.toNat)
  | .auip d i => BitVec.ofNat 32 (0x2C000000 + d.toNat * 524288 + i.toNat)
  | .jal i => BitVec.ofNat 32 (0x30000000 + i.toNat)
  | .jalr d a i => BitVec.ofNat 32 (0x34000000 + d.toNat * 524288 + a.toNat * 4096 + i.toNat)
  | .beq i a b i2 => BitVec.ofNat 32 (0x38000000 + i.toNat * 524288 + a.toNat * 4096 + b.toNat * 32 + i2.toNat)
  | .bne i a b i2 => BitVec.ofNat 32 (0x3C000000 + i.toNat * 524288 + a.toNat * 4096 + b.toNat * 32 + i2.toNat)
  | .blt i a b i2 => BitVec.ofNat 32 (0x40000000 + i.toNat * 524288 + a.toNat * 4096 + b.toNat * 32 + i2.toNat)
  | .bge i a b i2 => BitVec.ofNat 32 (0x44000000 + i.toNat * 524288 + a.toNat * 4096 + b.toNat * 32 + i2.toNat)
  | .bltn i a b i2 => BitVec.ofNat 32 (0x48000000 + i.toNat * 524288 + a.toNat * 4096 + b.toNat * 32 + i2.toNat)
  | .bgen i a b i2 => BitVec.ofNat 32 (0x4C000000 + i.toNat * 524288 + a.toNat * 4096 + b.toNat * 32 + i2.toNat)
  | .lb d a i => BitVec.ofNat 32 (0x50000000 + d.toNat * 524288 + a.toNat * 4096 + i.toNat)
  | .lh d a i => BitVec.ofNat 32 (0x50000200 + d.toNat * 524288 + a.toNat * 4096 + i.toNat)
  | .lw d a i => BitVec.ofNat 32 (0x50000400 + d.toNat * 524288 + a.toNat * 4096 + i.toNat)
  | .ld d a i => BitVec.ofNat 32 (0x50000600 + d.toNat * 524288 + a.toNat * 4096 + i.toNat)
  | .lbz d a i => BitVec.ofNat 32 (0x50000800 + d.toNat * 524288 + a.toNat * 4096 + i.toNat)
  | .lhz d a i => BitVec.ofNat 32 (0x50000A00 + d.toNat * 524288 + a.toNat * 4096 + i.toNat)
  | .lwz d a i => BitVec.ofNat 32 (0x50000C00 + d.toNat * 524288 + a.toNat * 4096 + i.toNat)
  | .sb s a i => BitVec.ofNat 32 (0x54000000 + s.toNat * 524288 + a.toNat * 4096 + i.toNat)
  | .sh s a i => BitVec.ofNat 32 (0x54000200 + s.toNat * 524288 + a.toNat * 4096 + i.toNat)
  | .sw s a i => BitVec.ofNat 32 (0x54000400 + s.toNat * 524288 + a.toNat * 4096 + i.toNat)
  | .sd s a i => BitVec.ofNat 32 (0x54000600 + s.toNat * 524288 + a.toNat * 4096 + i.toNat)
  | .aadd d a b => BitVec.ofNat 32 (0x58000000 + d.toNat * 524288 + a.toNat * 4096 + b.toNat * 32)
  | .aswap d a b => BitVec.ofNat 32 (0x58000001 + d.toNat * 524288 + a.toNat * 4096 + b.toNat * 32)
  | .aand d a b => BitVec.ofNat 32 (0x58000002 + d.toNat * 524288 + a.toNat * 4096 + b.toNat * 32)
  | .aor d a b => BitVec.ofNat 32 (0x58000003 + d.toNat * 524288 + a.toNat * 4096 + b.toNat * 32)
  | .axor d a b => BitVec.ofNat 32 (0x58000004 + d.toNat * 524288 + a.toNat * 4096 + b.toNat * 32)
  | .amin d a b => BitVec.ofNat 32 (0x58000005 + d.toNat * 524288 + a.toNat * 4096 + b.toNat * 32)
  | .amax d a b => BitVec.ofNat 32 (0x58000006 + d.toNat * 524288 + a.toNat * 4096 + b.toNat * 32)
  | .aminn d a b => BitVec.ofNat 32 (0x58000007 + d.toNat * 524288 + a.toNat * 4096 + b.toNat * 32)
  | .amaxn d a b => BitVec.ofNat 32 (0x58000008 + d.toNat * 524288 + a.toNat * 4096 + b.toNat * 32)
  | .acas d a b => BitVec.ofNat 32 (0x58000009 + d.toNat * 524288 + a.toNat * 4096 + b.toNat * 32)
  | .aaddw d a b => BitVec.ofNat 32 (0x58000010 + d.toNat * 524288 + a.toNat * 4096 + b.toNat * 32)
  | .aswapw d a b => BitVec.ofNat 32 (0x58000011 + d.toNat * 524288 + a.toNat * 4096 + b.toNat * 32)
  | .aandw d a b => BitVec.ofNat 32 (0x58000012 + d.toNat * 524288 + a.toNat * 4096 + b.toNat * 32)
  | .aorw d a b => BitVec.ofNat 32 (0x58000013 + d.toNat * 524288 + a.toNat * 4096 + b.toNat * 32)
  | .axorw d a b => BitVec.ofNat 32 (0x58000014 + d.toNat * 524288 + a.toNat * 4096 + b.toNat * 32)
  | .aminw d a b => BitVec.ofNat 32 (0x58000015 + d.toNat * 524288 + a.toNat * 4096 + b.toNat * 32)
  | .amaxw d a b => BitVec.ofNat 32 (0x58000016 + d.toNat * 524288 + a.toNat * 4096 + b.toNat * 32)
  | .aminnw d a b => BitVec.ofNat 32 (0x58000017 + d.toNat * 524288 + a.toNat * 4096 + b.toNat * 32)
  | .amaxnw d a b => BitVec.ofNat 32 (0x58000018 + d.toNat * 524288 + a.toNat * 4096 + b.toNat * 32)
  | .acasw d a b => BitVec.ofNat 32 (0x58000019 + d.toNat * 524288 + a.toNat * 4096 + b.toNat * 32)
  | .afadd d a b => BitVec.ofNat 32 (0x5800001A + d.toNat * 524288 + a.toNat * 4096 + b.toNat * 32)
  | .sbind d a b => BitVec.ofNat 32 (0x5C000000 + d.toNat * 524288 + a.toNat * 4096 + b.toNat * 32)
  | .sunbind d a b => BitVec.ofNat 32 (0x5C000001 + d.toNat * 524288 + a.toNat * 4096 + b.toNat * 32)
  | .sacq a => BitVec.ofNat 32 (0x5C000002 + a.toNat * 4096)
  | .sacqs a => BitVec.ofNat 32 (0x5C000003 + a.toNat * 4096)
  | .stry d a => BitVec.ofNat 32 (0x5C000004 + d.toNat * 524288 + a.toNat * 4096)
  | .srel a => BitVec.ofNat 32 (0x5C000005 + a.toNat * 4096)
  | .fence s l k => BitVec.ofNat 32 (0x5C000006 + s.toNat * 512 + l.toNat * 128 + k.toNat * 32)
  | .waita d a b => BitVec.ofNat 32 (0x5C000007 + d.toNat * 524288 + a.toNat * 4096 + b.toNat * 32)
  | .csrr d c => BitVec.ofNat 32 (0x60000000 + d.toNat * 524288 + c.toNat)
  | .csrw d a c => BitVec.ofNat 32 (0x60000400 + d.toNat * 524288 + a.toNat * 4096 + c.toNat)
  | .csrs d a c => BitVec.ofNat 32 (0x60000800 + d.toNat * 524288 + a.toNat * 4096 + c.toNat)
  | .csrc d a c => BitVec.ofNat 32 (0x60000C00 + d.toNat * 524288 + a.toNat * 4096 + c.toNat)
  | .ecall => BitVec.ofNat 32 (0x64000000)
  | .ebreak => BitVec.ofNat 32 (0x64000001)
  | .eret => BitVec.ofNat 32 (0x64000002)
  | .sleep => BitVec.ofNat 32 (0x64000003)
  | .switch => BitVec.ofNat 32 (0x64000004)
  | .tlbinv a b => BitVec.ofNat 32 (0x64000005 + a.toNat * 4096 + b.toNat * 32)
  | .icinv => BitVec.ofNat 32 (0x64000006)
  | .xprobe d a => BitVec.ofNat 32 (0x64000007 + d.toNat * 524288 + a.toNat * 4096)
  | .aown => BitVec.ofNat 32 (0x64000008)
  | .halt => BitVec.ofNat 32 (0x64000009)
  | .fmt t u v r s c => BitVec.ofNat 32 (0x68000000 + t.toNat * 2097152 + u.toNat * 65536 + v.toNat * 2048 + r.toNat * 256 + s.toNat * 128 + c.toNat * 32)
  | .ldl d a i => BitVec.ofNat 32 (0x6C000000 + d.toNat * 524288 + a.toNat * 4096 + i.toNat)
  | .stl s a i => BitVec.ofNat 32 (0x6C000400 + s.toNat * 524288 + a.toNat * 4096 + i.toNat)
  | .ldy d a i => BitVec.ofNat 32 (0x6C000800 + d.toNat * 524288 + a.toNat * 4096 + i.toNat)
  | .sty s a i => BitVec.ofNat 32 (0x6C000C00 + s.toNat * 524288 + a.toNat * 4096 + i.toNat)
  | .cpy d a => BitVec.ofNat 32 (0x70000000 + d.toNat * 524288 + a.toNat * 4096)
  | .cpyw a b => BitVec.ofNat 32 (0x70000001 + a.toNat * 4096 + b.toNat * 32)
  | .cpyq d a => BitVec.ofNat 32 (0x70000002 + d.toNat * 524288 + a.toNat * 4096)
  | .cpyx a => BitVec.ofNat 32 (0x70000003 + a.toNat * 4096)
  | .nsend d a b => BitVec.ofNat 32 (0x74000000 + d.toNat * 524288 + a.toNat * 4096 + b.toNat * 32)
  | .nput d a b => BitVec.ofNat 32 (0x74000001 + d.toNat * 524288 + a.toNat * 4096 + b.toNat * 32)
  | .nrecv d a => BitVec.ofNat 32 (0x74000002 + d.toNat * 524288 + a.toNat * 4096)
  | .npoll d a => BitVec.ofNat 32 (0x74000003 + d.toNat * 524288 + a.toNat * 4096)
  | .nfree a => BitVec.ofNat 32 (0x74000004 + a.toNat * 4096)
  | .nint a b => BitVec.ofNat 32 (0x74000005 + a.toNat * 4096 + b.toNat * 32)
  | .tkspawn d a => BitVec.ofNat 32 (0x78000000 + d.toNat * 524288 + a.toNat * 4096)
  | .tkget d => BitVec.ofNat 32 (0x78000001 + d.toNat * 524288)
  | .tkdone a => BitVec.ofNat 32 (0x78000002 + a.toNat * 4096)
  | .tkarm a b => BitVec.ofNat 32 (0x78000003 + a.toNat * 4096 + b.toNat * 32)
  | .tkbind a b => BitVec.ofNat 32 (0x78000004 + a.toNat * 4096 + b.toNat * 32)
  | .tkunbind a => BitVec.ofNat 32 (0x78000005 + a.toNat * 4096)
  | .tkdep a b => BitVec.ofNat 32 (0x78000006 + a.toNat * 4096 + b.toNat * 32)
  | .scfg d a b => BitVec.ofNat 32 (0x7C000000 + d.toNat * 524288 + a.toNat * 4096 + b.toNat * 32)
  | .sopen d a => BitVec.ofNat 32 (0x7C000001 + d.toNat * 524288 + a.toNat * 4096)
  | .sclose a => BitVec.ofNat 32 (0x7C000002 + a.toNat * 4096)
  | .sstat d a => BitVec.ofNat 32 (0x7C000003 + d.toNat * 524288 + a.toNat * 4096)
  | .vadd d a b k j p => BitVec.ofNat 32 (0x80000000 + d.toNat * 524288 + a.toNat * 4096 + b.toNat * 32 + k.toNat * 16 + j.toNat * 8 + p.toNat * 2)
  | .vsub d a b k j p => BitVec.ofNat 32 (0x80000001 + d.toNat * 524288 + a.toNat * 4096 + b.toNat * 32 + k.toNat * 16 + j.toNat * 8 + p.toNat * 2)
  | .vadds d a b k j p => BitVec.ofNat 32 (0x84000000 + d.toNat * 524288 + a.toNat * 4096 + b.toNat * 32 + k.toNat * 16 + j.toNat * 8 + p.toNat * 2)
  | .vsubs d a b k j p => BitVec.ofNat 32 (0x84000001 + d.toNat * 524288 + a.toNat * 4096 + b.toNat * 32 + k.toNat * 16 + j.toNat * 8 + p.toNat * 2)
  | .vmul d a b k j p => BitVec.ofNat 32 (0x88000000 + d.toNat * 524288 + a.toNat * 4096 + b.toNat * 32 + k.toNat * 16 + j.toNat * 8 + p.toNat * 2)
  | .vmulh d a b k j p => BitVec.ofNat 32 (0x88000001 + d.toNat * 524288 + a.toNat * 4096 + b.toNat * 32 + k.toNat * 16 + j.toNat * 8 + p.toNat * 2)
  | .vmin d a b k j p => BitVec.ofNat 32 (0x8C000000 + d.toNat * 524288 + a.toNat * 4096 + b.toNat * 32 + k.toNat * 16 + j.toNat * 8 + p.toNat * 2)
  | .vmax d a b k j p => BitVec.ofNat 32 (0x8C000001 + d.toNat * 524288 + a.toNat * 4096 + b.toNat * 32 + k.toNat * 16 + j.toNat * 8 + p.toNat * 2)
  | .vminn d a b k j p => BitVec.ofNat 32 (0x90000000 + d.toNat * 524288 + a.toNat * 4096 + b.toNat * 32 + k.toNat * 16 + j.toNat * 8 + p.toNat * 2)
  | .vmaxn d a b k j p => BitVec.ofNat 32 (0x90000001 + d.toNat * 524288 + a.toNat * 4096 + b.toNat * 32 + k.toNat * 16 + j.toNat * 8 + p.toNat * 2)
  | .vand d a b k j p => BitVec.ofNat 32 (0x94000000 + d.toNat * 524288 + a.toNat * 4096 + b.toNat * 32 + k.toNat * 16 + j.toNat * 8 + p.toNat * 2)
  | .vor d a b k j p => BitVec.ofNat 32 (0x94000001 + d.toNat * 524288 + a.toNat * 4096 + b.toNat * 32 + k.toNat * 16 + j.toNat * 8 + p.toNat * 2)
  | .vxor d a b k j p => BitVec.ofNat 32 (0x98000000 + d.toNat * 524288 + a.toNat * 4096 + b.toNat * 32 + k.toNat * 16 + j.toNat * 8 + p.toNat * 2)
  | .vbool d a b k j p => BitVec.ofNat 32 (0x98000001 + d.toNat * 524288 + a.toNat * 4096 + b.toNat * 32 + k.toNat * 16 + j.toNat * 8 + p.toNat * 2)
  | .vsll d a b k j p => BitVec.ofNat 32 (0x9C000000 + d.toNat * 524288 + a.toNat * 4096 + b.toNat * 32 + k.toNat * 16 + j.toNat * 8 + p.toNat * 2)
  | .vsrl d a b k j p => BitVec.ofNat 32 (0x9C000001 + d.toNat * 524288 + a.toNat * 4096 + b.toNat * 32 + k.toNat * 16 + j.toNat * 8 + p.toNat * 2)
  | .vsra d a b k j p => BitVec.ofNat 32 (0xA0000000 + d.toNat * 524288 + a.toNat * 4096 + b.toNat * 32 + k.toNat * 16 + j.toNat * 8 + p.toNat * 2)
  | .vmerge d a b k j => BitVec.ofNat 32 (0xA0000001 + d.toNat * 524288 + a.toNat * 4096 + b.toNat * 32 + k.toNat * 16 + j.toNat * 8)
  | .vmac d a b k j p => BitVec.ofNat 32 (0xA4000000 + d.toNat * 524288 + a.toNat * 4096 + b.toNat * 32 + k.toNat * 16 + j.toNat * 8 + p.toNat * 2)
  | .vwmac d a b k j p => BitVec.ofNat 32 (0xA4000001 + d.toNat * 524288 + a.toNat * 4096 + b.toNat * 32 + k.toNat * 16 + j.toNat * 8 + p.toNat * 2)
  | .vdot d a b k j p => BitVec.ofNat 32 (0xA8000000 + d.toNat * 524288 + a.toNat * 4096 + b.toNat * 32 + k.toNat * 16 + j.toNat * 8 + p.toNat * 2)
  | .vdots d a b k j p => BitVec.ofNat 32 (0xA8000001 + d.toNat * 524288 + a.toNat * 4096 + b.toNat * 32 + k.toNat * 16 + j.toNat * 8 + p.toNat * 2)
  | .vfadd d a b k j p => BitVec.ofNat 32 (0xAC000000 + d.toNat * 524288 + a.toNat * 4096 + b.toNat * 32 + k.toNat * 16 + j.toNat * 8 + p.toNat * 2)
  | .vfsub d a b k j p => BitVec.ofNat 32 (0xAC000001 + d.toNat * 524288 + a.toNat * 4096 + b.toNat * 32 + k.toNat * 16 + j.toNat * 8 + p.toNat * 2)
  | .vfmul d a b k j p => BitVec.ofNat 32 (0xB0000000 + d.toNat * 524288 + a.toNat * 4096 + b.toNat * 32 + k.toNat * 16 + j.toNat * 8 + p.toNat * 2)
  | .vfma d a b k j p => BitVec.ofNat 32 (0xB0000001 + d.toNat * 524288 + a.toNat * 4096 + b.toNat * 32 + k.toNat * 16 + j.toNat * 8 + p.toNat * 2)
  | .vfmin d a b k j p => BitVec.ofNat 32 (0xB4000000 + d.toNat * 524288 + a.toNat * 4096 + b.toNat * 32 + k.toNat * 16 + j.toNat * 8 + p.toNat * 2)
  | .vfmax d a b k j p => BitVec.ofNat 32 (0xB4000001 + d.toNat * 524288 + a.toNat * 4096 + b.toNat * 32 + k.toNat * 16 + j.toNat * 8 + p.toNat * 2)
  | .vfdiv d a b k j p => BitVec.ofNat 32 (0xB8000000 + d.toNat * 524288 + a.toNat * 4096 + b.toNat * 32 + k.toNat * 16 + j.toNat * 8 + p.toNat * 2)
  | .vfms d a b k j p => BitVec.ofNat 32 (0xB8000001 + d.toNat * 524288 + a.toNat * 4096 + b.toNat * 32 + k.toNat * 16 + j.toNat * 8 + p.toNat * 2)
  | .vcfle d a b k j p => BitVec.ofNat 32 (0xBC000000 + d.toNat * 524288 + a.toNat * 4096 + b.toNat * 32 + k.toNat * 16 + j.toNat * 8 + p.toNat * 2)
  | .vcfun d a b k j p => BitVec.ofNat 32 (0xBC000001 + d.toNat * 524288 + a.toNat * 4096 + b.toNat * 32 + k.toNat * 16 + j.toNat * 8 + p.toNat * 2)
  | .vceq d a b k j p => BitVec.ofNat 32 (0xC0000000 + d.toNat * 524288 + a.toNat * 4096 + b.toNat * 32 + k.toNat * 16 + j.toNat * 8 + p.toNat * 2)
  | .vcne d a b k j p => BitVec.ofNat 32 (0xC0000001 + d.toNat * 524288 + a.toNat * 4096 + b.toNat * 32 + k.toNat * 16 + j.toNat * 8 + p.toNat * 2)
  | .vclt d a b k j p => BitVec.ofNat 32 (0xC4000000 + d.toNat * 524288 + a.toNat * 4096 + b.toNat * 32 + k.toNat * 16 + j.toNat * 8 + p.toNat * 2)
  | .vcge d a b k j p => BitVec.ofNat 32 (0xC4000001 + d.toNat * 524288 + a.toNat * 4096 + b.toNat * 32 + k.toNat * 16 + j.toNat * 8 + p.toNat * 2)
  | .vcltn d a b k j p => BitVec.ofNat 32 (0xC8000000 + d.toNat * 524288 + a.toNat * 4096 + b.toNat * 32 + k.toNat * 16 + j.toNat * 8 + p.toNat * 2)
  | .vcgen d a b k j p => BitVec.ofNat 32 (0xC8000001 + d.toNat * 524288 + a.toNat * 4096 + b.toNat * 32 + k.toNat * 16 + j.toNat * 8 + p.toNat * 2)
  | .vcfeq d a b k j p => BitVec.ofNat 32 (0xCC000000 + d.toNat * 524288 + a.toNat * 4096 + b.toNat * 32 + k.toNat * 16 + j.toNat * 8 + p.toNat * 2)
  | .vcflt d a b k j p => BitVec.ofNat 32 (0xCC000001 + d.toNat * 524288 + a.toNat * 4096 + b.toNat * 32 + k.toNat * 16 + j.toNat * 8 + p.toNat * 2)
  | .vmov d a k p => BitVec.ofNat 32 (0xD0000000 + d.toNat * 524288 + a.toNat * 4096 + k.toNat * 16 + p.toNat * 2)
  | .vnot d a k p => BitVec.ofNat 32 (0xD0000020 + d.toNat * 524288 + a.toNat * 4096 + k.toNat * 16 + p.toNat * 2)
  | .vneg d a k p => BitVec.ofNat 32 (0xD0000040 + d.toNat * 524288 + a.toNat * 4096 + k.toNat * 16 + p.toNat * 2)
  | .vabs d a k p => BitVec.ofNat 32 (0xD0000060 + d.toNat * 524288 + a.toNat * 4096 + k.toNat * 16 + p.toNat * 2)
  | .vfneg d a k p => BitVec.ofNat 32 (0xD0000080 + d.toNat * 524288 + a.toNat * 4096 + k.toNat * 16 + p.toNat * 2)
  | .vfabs d a k p => BitVec.ofNat 32 (0xD00000A0 + d.toNat * 524288 + a.toNat * 4096 + k.toNat * 16 + p.toNat * 2)
  | .vfsqrt d a k p => BitVec.ofNat 32 (0xD00000C0 + d.toNat * 524288 + a.toNat * 4096 + k.toNat * 16 + p.toNat * 2)
  | .vexp2 d a k p => BitVec.ofNat 32 (0xD00000E0 + d.toNat * 524288 + a.toNat * 4096 + k.toNat * 16 + p.toNat * 2)
  | .vlog2 d a k p => BitVec.ofNat 32 (0xD0000100 + d.toNat * 524288 + a.toNat * 4096 + k.toNat * 16 + p.toNat * 2)
  | .vrcp d a k p => BitVec.ofNat 32 (0xD0000120 + d.toNat * 524288 + a.toNat * 4096 + k.toNat * 16 + p.toNat * 2)
  | .vrsqrt d a k p => BitVec.ofNat 32 (0xD0000140 + d.toNat * 524288 + a.toNat * 4096 + k.toNat * 16 + p.toNat * 2)
  | .vcvt d a k p => BitVec.ofNat 32 (0xD0000160 + d.toNat * 524288 + a.toNat * 4096 + k.toNat * 16 + p.toNat * 2)
  | .vclz d a k p => BitVec.ofNat 32 (0xD0000180 + d.toNat * 524288 + a.toNat * 4096 + k.toNat * 16 + p.toNat * 2)
  | .vpopc d a k p => BitVec.ofNat 32 (0xD00001A0 + d.toNat * 524288 + a.toNat * 4096 + k.toNat * 16 + p.toNat * 2)
  | .vsearch d a k p => BitVec.ofNat 32 (0xD00001C0 + d.toNat * 524288 + a.toNat * 4096 + k.toNat * 16 + p.toNat * 2)
  | .vkwrite d a k p => BitVec.ofNat 32 (0xD00001E0 + d.toNat * 524288 + a.toNat * 4096 + k.toNat * 16 + p.toNat * 4)
  | .vcompress d a => BitVec.ofNat 32 (0xD0000200 + d.toNat * 524288 + a.toNat * 4096)
  | .vexpand d a => BitVec.ofNat 32 (0xD0000220 + d.toNat * 524288 + a.toNat * 4096)
  | .vrev d a p => BitVec.ofNat 32 (0xD0000240 + d.toNat * 524288 + a.toNat * 4096 + p.toNat * 2)
  | .viota d a p => BitVec.ofNat 32 (0xD0000260 + d.toNat * 524288 + a.toNat * 4096 + p.toNat * 2)
  | .vbcast d x => BitVec.ofNat 32 (0xD4000000 + d.toNat * 524288 + x.toNat * 32)
  | .vextr d s x => BitVec.ofNat 32 (0xD4000001 + d.toNat * 524288 + s.toNat * 4096 + x.toNat * 32)
  | .vinsr d s x => BitVec.ofNat 32 (0xD4000002 + d.toNat * 524288 + s.toNat * 4096 + x.toNat * 32)
  | .vslli d s i => BitVec.ofNat 32 (0xD4000003 + d.toNat * 524288 + s.toNat * 4096 + i.toNat * 32)
  | .vsrli d s i => BitVec.ofNat 32 (0xD4000004 + d.toNat * 524288 + s.toNat * 4096 + i.toNat * 32)
  | .vsrai d s i => BitVec.ofNat 32 (0xD4000005 + d.toNat * 524288 + s.toNat * 4096 + i.toNat * 32)
  | .vaddi d s i => BitVec.ofNat 32 (0xD4000006 + d.toNat * 524288 + s.toNat * 4096 + i.toNat * 32)
  | .vslideup d s x => BitVec.ofNat 32 (0xD4000007 + d.toNat * 524288 + s.toNat * 4096 + x.toNat * 32)
  | .vslidedn d s x => BitVec.ofNat 32 (0xD4000008 + d.toNat * 524288 + s.toNat * 4096 + x.toNat * 32)
  | .vredsum d s => BitVec.ofNat 32 (0xD4000009 + d.toNat * 524288 + s.toNat * 4096)
  | .vredmin d s => BitVec.ofNat 32 (0xD400000A + d.toNat * 524288 + s.toNat * 4096)
  | .vredmax d s => BitVec.ofNat 32 (0xD400000B + d.toNat * 524288 + s.toNat * 4096)
  | .vredand d s => BitVec.ofNat 32 (0xD400000C + d.toNat * 524288 + s.toNat * 4096)
  | .vredor d s => BitVec.ofNat 32 (0xD400000D + d.toNat * 524288 + s.toNat * 4096)
  | .vredxor d s => BitVec.ofNat 32 (0xD400000E + d.toNat * 524288 + s.toNat * 4096)
  | .vfredsum d s x => BitVec.ofNat 32 (0xD400000F + d.toNat * 524288 + s.toNat * 4096 + x.toNat * 32)
  | .vfredmax d s => BitVec.ofNat 32 (0xD4000010 + d.toNat * 524288 + s.toNat * 4096)
  | .vfredmin d s => BitVec.ofNat 32 (0xD4000011 + d.toNat * 524288 + s.toNat * 4096)
  | .vsegsum d s x => BitVec.ofNat 32 (0xD4000012 + d.toNat * 524288 + s.toNat * 4096 + x.toNat * 32)
  | .vmpopc d s => BitVec.ofNat 32 (0xD4000013 + d.toNat * 524288 + s.toNat * 4096)
  | .vmfirst d s => BitVec.ofNat 32 (0xD4000014 + d.toNat * 524288 + s.toNat * 4096)
  | .vbcastMd d x => BitVec.ofNat 32 (0xF4000000 + d.toNat * 524288 + x.toNat * 32)
  | .vslliMd d s i => BitVec.ofNat 32 (0xF4000003 + d.toNat * 524288 + s.toNat * 4096 + i.toNat * 32)
  | .vsrliMd d s i => BitVec.ofNat 32 (0xF4000004 + d.toNat * 524288 + s.toNat * 4096 + i.toNat * 32)
  | .vsraiMd d s i => BitVec.ofNat 32 (0xF4000005 + d.toNat * 524288 + s.toNat * 4096 + i.toNat * 32)
  | .vaddiMd d s i => BitVec.ofNat 32 (0xF4000006 + d.toNat * 524288 + s.toNat * 4096 + i.toNat * 32)
  | .vslideupMd d s x => BitVec.ofNat 32 (0xF4000007 + d.toNat * 524288 + s.toNat * 4096 + x.toNat * 32)
  | .vslidednMd d s x => BitVec.ofNat 32 (0xF4000008 + d.toNat * 524288 + s.toNat * 4096 + x.toNat * 32)
  | .vredsumMd d s => BitVec.ofNat 32 (0xF4000009 + d.toNat * 524288 + s.toNat * 4096)
  | .vredminMd d s => BitVec.ofNat 32 (0xF400000A + d.toNat * 524288 + s.toNat * 4096)
  | .vredmaxMd d s => BitVec.ofNat 32 (0xF400000B + d.toNat * 524288 + s.toNat * 4096)
  | .vredandMd d s => BitVec.ofNat 32 (0xF400000C + d.toNat * 524288 + s.toNat * 4096)
  | .vredorMd d s => BitVec.ofNat 32 (0xF400000D + d.toNat * 524288 + s.toNat * 4096)
  | .vredxorMd d s => BitVec.ofNat 32 (0xF400000E + d.toNat * 524288 + s.toNat * 4096)
  | .vfredsumMd d s x => BitVec.ofNat 32 (0xF400000F + d.toNat * 524288 + s.toNat * 4096 + x.toNat * 32)
  | .vfredmaxMd d s => BitVec.ofNat 32 (0xF4000010 + d.toNat * 524288 + s.toNat * 4096)
  | .vfredminMd d s => BitVec.ofNat 32 (0xF4000011 + d.toNat * 524288 + s.toNat * 4096)
  | .vsegsumMd d s x => BitVec.ofNat 32 (0xF4000012 + d.toNat * 524288 + s.toNat * 4096 + x.toNat * 32)
  | .vmpopcMd d s => BitVec.ofNat 32 (0xF4000013 + d.toNat * 524288 + s.toNat * 4096)
  | .vmfirstMd d s => BitVec.ofNat 32 (0xF4000014 + d.toNat * 524288 + s.toNat * 4096)
  | .vld d b p => BitVec.ofNat 32 (0xD8000000 + d.toNat * 524288 + b.toNat * 4096 + p.toNat)
  | .vlds d b s p => BitVec.ofNat 32 (0xD8000004 + d.toNat * 524288 + b.toNat * 4096 + s.toNat * 32 + p.toNat)
  | .vldx d b x p => BitVec.ofNat 32 (0xD8000008 + d.toNat * 524288 + b.toNat * 4096 + x.toNat * 32 + p.toNat)
  | .vldl d b p => BitVec.ofNat 32 (0xD800000C + d.toNat * 524288 + b.toNat * 4096 + p.toNat)
  | .vldy d b p => BitVec.ofNat 32 (0xD8000010 + d.toNat * 524288 + b.toNat * 4096 + p.toNat)
  | .vldys d b s p => BitVec.ofNat 32 (0xD8000014 + d.toNat * 524288 + b.toNat * 4096 + s.toNat * 32 + p.toNat)
  | .vldff d b p => BitVec.ofNat 32 (0xD8000018 + d.toNat * 524288 + b.toNat * 4096 + p.toNat)
  | .vst d b p => BitVec.ofNat 32 (0xDC000000 + d.toNat * 524288 + b.toNat * 4096 + p.toNat)
  | .vsts d b s p => BitVec.ofNat 32 (0xDC000004 + d.toNat * 524288 + b.toNat * 4096 + s.toNat * 32 + p.toNat)
  | .vstx d b x p => BitVec.ofNat 32 (0xDC000008 + d.toNat * 524288 + b.toNat * 4096 + x.toNat * 32 + p.toNat)
  | .vstl d b p => BitVec.ofNat 32 (0xDC00000C + d.toNat * 524288 + b.toNat * 4096 + p.toNat)
  | .vsty d b p => BitVec.ofNat 32 (0xDC000010 + d.toNat * 524288 + b.toNat * 4096 + p.toNat)
  | .vstys d b s p => BitVec.ofNat 32 (0xDC000014 + d.toNat * 524288 + b.toNat * 4096 + s.toNat * 32 + p.toNat)
  | .waitv d a b k => BitVec.ofNat 32 (0xF0000000 + d.toNat * 524288 + a.toNat * 4096 + b.toNat * 32 + k.toNat * 16)
  | .vstr d a b p => BitVec.ofNat 32 (0xF0000001 + d.toNat * 524288 + a.toNat * 4096 + b.toNat * 32 + p.toNat * 2)
  | .ashape d a b => BitVec.ofNat 32 (0xE0000000 + d.toNat * 524288 + a.toNat * 4096 + b.toNat * 32)
  | .await => BitVec.ofNat 32 (0xE0000001)
  | .arole d a b => BitVec.ofNat 32 (0xE0000002 + d.toNat * 524288 + a.toNat * 4096 + b.toNat * 32)
  | .aflush a b => BitVec.ofNat 32 (0xE0000003 + a.toNat * 4096 + b.toNat * 32)
  | .aclr => BitVec.ofNat 32 (0xE0000004)
  | .ainval a b => BitVec.ofNat 32 (0xE0000005 + a.toNat * 4096 + b.toNat * 32)
  | .mbegin a => BitVec.ofNat 32 (0xE4000000 + a.toNat * 4096)
  | .mend => BitVec.ofNat 32 (0xE4000001)
  | .msplit a b => BitVec.ofNat 32 (0xE4000002 + a.toNat * 4096 + b.toNat * 32)
  | .mjoin d a => BitVec.ofNat 32 (0xE4000003 + d.toNat * 524288 + a.toNat * 4096)
  | .mstop => BitVec.ofNat 32 (0xE4000004)
  | .mnext a => BitVec.ofNat 32 (0xE4000005 + a.toNat * 4096)
  | .mbr a b => BitVec.ofNat 32 (0xE4000006 + a.toNat * 4096 + b.toNat * 32)
  | .mlinkr d l => BitVec.ofNat 32 (0xE4000007 + d.toNat * 524288 + l.toNat * 4096)
  | .mlinkw => BitVec.ofNat 32 (0xE4000008)
  | .msetm d a m => BitVec.ofNat 32 (0xE4000009 + d.toNat * 524288 + a.toNat * 4096 + m.toNat * 32)
  | .mgetm d a m => BitVec.ofNat 32 (0xE400000A + d.toNat * 524288 + a.toNat * 4096 + m.toNat * 32)
  | .mstat d a => BitVec.ofNat 32 (0xE400000B + d.toNat * 524288 + a.toNat * 4096)
  | .mreset a => BitVec.ofNat 32 (0xE400000C + a.toNat * 4096)
  | .tattach d a => BitVec.ofNat 32 (0xE8000000 + d.toNat * 524288 + a.toNat * 4096)
  | .tdetach => BitVec.ofNat 32 (0xE8000001)
  | .tmma t a b => BitVec.ofNat 32 (0xE8000002 + t.toNat * 524288 + a.toNat * 4096 + b.toNat * 32)
  | .tzero t => BitVec.ofNat 32 (0xE8000003 + t.toNat * 524288)
  | .tread d t b => BitVec.ofNat 32 (0xE8000004 + d.toNat * 524288 + t.toNat * 4096 + b.toNat * 32)
  | .tload t a b => BitVec.ofNat 32 (0xE8000005 + t.toNat * 524288 + a.toNat * 4096 + b.toNat * 32)
  | .twait t => BitVec.ofNat 32 (0xE8000006 + t.toNat * 524288)

/-- True for the constructors that have a word (287 of the 371 rows of the table). -/
def hasWord : Instr → Bool
  | .contextSave _ => false
  | .contextRestore _ => false
  | .scalarResultArrival _ _ => false
  | .arrayInstructionBegin _ => false
  | .arrayInstructionComplete _ => false
  | .tileAccept _ _ => false
  | .tileWordComplete => false
  | .microThreadRelease _ => false
  | .blockFetch _ => false
  | .peerFaultInterrupt _ => false
  | .meshInterrupt _ => false
  | .cycleCompare _ => false
  | .mailboxInterrupt _ => false
  | .faultQueueNonEmpty _ => false
  | .microThreadSummary _ => false
  | .managementInterrupt _ => false
  | .arrayParityTrap _ => false
  | .busErrorTrap _ => false
  | .streamFaultTrap _ => false
  | .directoryOverflowTrap _ => false
  | .microThreadFaultTrap _ => false
  | .sleepWake _ => false
  | .walkComplete _ => false
  | .homeReadRequest _ => false
  | .homeWriteArrival _ _ _ _ => false
  | .homeAtomic _ _ _ _ => false
  | .monitorMatchReply _ => false
  | .waitaTimeout _ => false
  | .waitvTimeout _ => false
  | .vstrPacketArrival _ _ _ _ _ _ => false
  | .syncRequestArrival _ _ _ _ _ => false
  | .syncGrant _ => false
  | .copyChunk _ => false
  | .copyComplete _ => false
  | .promiseMissed _ => false
  | .faultReply _ => false
  | .streamUnit _ _ => false
  | .streamComplete _ => false
  | .scfgInstall _ => false
  | .channelMessageDelivery _ _ _ _ _ _ => false
  | .nputLanding _ _ _ _ _ _ => false
  | .meshMessageArrival _ _ _ _ _ => false
  | .preemptMessage _ _ _ => false
  | .spillRedelivery => false
  | .nodeDispatch _ => false
  | .nodeAging _ => false
  | .triggerArrival _ _ => false
  | .triggerSpawnRetry _ => false
  | .mailboxRequest _ _ _ => false
  | .mailboxNext _ => false
  | .mailboxNotify _ _ => false
  | .faultWindowTake _ => false
  | .faultWindowReply _ => false
  | .directoryTake _ _ => false
  | .directoryAck _ _ => false
  | .violationLogTake _ _ => false
  | .errorCountersClear _ => false
  | .heatEntryRead _ _ => false
  | .heatSeedWrite _ _ => false
  | .heatClear _ => false
  | .hostFaultTake _ => false
  | .hostFaultReply _ _ => false
  | .svcRetire _ _ => false
  | .svcClear _ _ => false
  | .svcReleaseHart _ => false
  | .evlogRead => false
  | .codecInstallWrite _ => false
  | .attestationRequest => false
  | .loadStart => false
  | .registerWrite _ _ => false
  | .deviceReset => false
  | .hardwareError _ _ _ => false
  | .relocationStallEnd _ => false
  | .xratioStallEnd _ => false
  | .powerComparison _ _ => false
  | .codecLearningComplete _ => false
  | .codecResampleStart _ => false
  | .scrubberRecode _ _ _ => false
  | .scrubberPassEnd _ => false
  | .codecTableInstall _ => false
  | .illegalInstruction _ => false
  | .instructionFetchFault => false
  | .homeAcknowledgement _ => false
  | .msixVectorUnmask _ => false
  | .add _ _ _ => true
  | .sub _ _ _ => true
  | .and _ _ _ => true
  | .or _ _ _ => true
  | .xor _ _ _ => true
  | .andn _ _ _ => true
  | .sll _ _ _ => true
  | .srl _ _ _ => true
  | .sra _ _ _ => true
  | .slt _ _ _ => true
  | .sltn _ _ _ => true
  | .min _ _ _ => true
  | .max _ _ _ => true
  | .minn _ _ _ => true
  | .maxn _ _ _ => true
  | .addw _ _ _ => true
  | .subw _ _ _ => true
  | .cmov _ _ _ => true
  | .mul _ _ _ => true
  | .mulh _ _ _ => true
  | .mulhn _ _ _ => true
  | .div _ _ _ => true
  | .divn _ _ _ => true
  | .rem _ _ _ => true
  | .remn _ _ _ => true
  | .clz _ _ => true
  | .ctz _ _ => true
  | .popc _ _ => true
  | .rev _ _ => true
  | .bswap _ _ => true
  | .rotl _ _ _ => true
  | .rotr _ _ _ => true
  | .fadd _ _ _ => true
  | .fsub _ _ _ => true
  | .fmul _ _ _ => true
  | .fdiv _ _ _ => true
  | .fma _ _ _ => true
  | .fmin _ _ _ => true
  | .fmax _ _ _ => true
  | .fsqrt _ _ => true
  | .feq _ _ _ => true
  | .flt _ _ _ => true
  | .fle _ _ _ => true
  | .fcvtis _ _ => true
  | .fcvtsi _ _ => true
  | .fclass _ _ => true
  | .fcvtbf _ _ => true
  | .fcvtfb _ _ => true
  | .addi _ _ _ => true
  | .andi _ _ _ => true
  | .ori _ _ _ => true
  | .xori _ _ _ => true
  | .slli _ _ _ => true
  | .srli _ _ _ => true
  | .srai _ _ _ => true
  | .slti _ _ _ => true
  | .lih _ _ => true
  | .auip _ _ => true
  | .jal _ => true
  | .jalr _ _ _ => true
  | .beq _ _ _ _ => true
  | .bne _ _ _ _ => true
  | .blt _ _ _ _ => true
  | .bge _ _ _ _ => true
  | .bltn _ _ _ _ => true
  | .bgen _ _ _ _ => true
  | .lb _ _ _ => true
  | .lh _ _ _ => true
  | .lw _ _ _ => true
  | .ld _ _ _ => true
  | .lbz _ _ _ => true
  | .lhz _ _ _ => true
  | .lwz _ _ _ => true
  | .sb _ _ _ => true
  | .sh _ _ _ => true
  | .sw _ _ _ => true
  | .sd _ _ _ => true
  | .aadd _ _ _ => true
  | .aswap _ _ _ => true
  | .aand _ _ _ => true
  | .aor _ _ _ => true
  | .axor _ _ _ => true
  | .amin _ _ _ => true
  | .amax _ _ _ => true
  | .aminn _ _ _ => true
  | .amaxn _ _ _ => true
  | .acas _ _ _ => true
  | .aaddw _ _ _ => true
  | .aswapw _ _ _ => true
  | .aandw _ _ _ => true
  | .aorw _ _ _ => true
  | .axorw _ _ _ => true
  | .aminw _ _ _ => true
  | .amaxw _ _ _ => true
  | .aminnw _ _ _ => true
  | .amaxnw _ _ _ => true
  | .acasw _ _ _ => true
  | .afadd _ _ _ => true
  | .sbind _ _ _ => true
  | .sunbind _ _ _ => true
  | .sacq _ => true
  | .sacqs _ => true
  | .stry _ _ => true
  | .srel _ => true
  | .fence _ _ _ => true
  | .waita _ _ _ => true
  | .csrr _ _ => true
  | .csrw _ _ _ => true
  | .csrs _ _ _ => true
  | .csrc _ _ _ => true
  | .ecall => true
  | .ebreak => true
  | .eret => true
  | .sleep => true
  | .switch => true
  | .tlbinv _ _ => true
  | .icinv => true
  | .xprobe _ _ => true
  | .aown => true
  | .halt => true
  | .fmt _ _ _ _ _ _ => true
  | .ldl _ _ _ => true
  | .stl _ _ _ => true
  | .ldy _ _ _ => true
  | .sty _ _ _ => true
  | .cpy _ _ => true
  | .cpyw _ _ => true
  | .cpyq _ _ => true
  | .cpyx _ => true
  | .nsend _ _ _ => true
  | .nput _ _ _ => true
  | .nrecv _ _ => true
  | .npoll _ _ => true
  | .nfree _ => true
  | .nint _ _ => true
  | .tkspawn _ _ => true
  | .tkget _ => true
  | .tkdone _ => true
  | .tkarm _ _ => true
  | .tkbind _ _ => true
  | .tkunbind _ => true
  | .tkdep _ _ => true
  | .scfg _ _ _ => true
  | .sopen _ _ => true
  | .sclose _ => true
  | .sstat _ _ => true
  | .vadd _ _ _ _ _ _ => true
  | .vsub _ _ _ _ _ _ => true
  | .vadds _ _ _ _ _ _ => true
  | .vsubs _ _ _ _ _ _ => true
  | .vmul _ _ _ _ _ _ => true
  | .vmulh _ _ _ _ _ _ => true
  | .vmin _ _ _ _ _ _ => true
  | .vmax _ _ _ _ _ _ => true
  | .vminn _ _ _ _ _ _ => true
  | .vmaxn _ _ _ _ _ _ => true
  | .vand _ _ _ _ _ _ => true
  | .vor _ _ _ _ _ _ => true
  | .vxor _ _ _ _ _ _ => true
  | .vbool _ _ _ _ _ _ => true
  | .vsll _ _ _ _ _ _ => true
  | .vsrl _ _ _ _ _ _ => true
  | .vsra _ _ _ _ _ _ => true
  | .vmerge _ _ _ _ _ => true
  | .vmac _ _ _ _ _ _ => true
  | .vwmac _ _ _ _ _ _ => true
  | .vdot _ _ _ _ _ _ => true
  | .vdots _ _ _ _ _ _ => true
  | .vfadd _ _ _ _ _ _ => true
  | .vfsub _ _ _ _ _ _ => true
  | .vfmul _ _ _ _ _ _ => true
  | .vfma _ _ _ _ _ _ => true
  | .vfmin _ _ _ _ _ _ => true
  | .vfmax _ _ _ _ _ _ => true
  | .vfdiv _ _ _ _ _ _ => true
  | .vfms _ _ _ _ _ _ => true
  | .vcfle _ _ _ _ _ _ => true
  | .vcfun _ _ _ _ _ _ => true
  | .vceq _ _ _ _ _ _ => true
  | .vcne _ _ _ _ _ _ => true
  | .vclt _ _ _ _ _ _ => true
  | .vcge _ _ _ _ _ _ => true
  | .vcltn _ _ _ _ _ _ => true
  | .vcgen _ _ _ _ _ _ => true
  | .vcfeq _ _ _ _ _ _ => true
  | .vcflt _ _ _ _ _ _ => true
  | .vmov _ _ _ _ => true
  | .vnot _ _ _ _ => true
  | .vneg _ _ _ _ => true
  | .vabs _ _ _ _ => true
  | .vfneg _ _ _ _ => true
  | .vfabs _ _ _ _ => true
  | .vfsqrt _ _ _ _ => true
  | .vexp2 _ _ _ _ => true
  | .vlog2 _ _ _ _ => true
  | .vrcp _ _ _ _ => true
  | .vrsqrt _ _ _ _ => true
  | .vcvt _ _ _ _ => true
  | .vclz _ _ _ _ => true
  | .vpopc _ _ _ _ => true
  | .vsearch _ _ _ _ => true
  | .vkwrite _ _ _ _ => true
  | .vcompress _ _ => true
  | .vexpand _ _ => true
  | .vrev _ _ _ => true
  | .viota _ _ _ => true
  | .vbcast _ _ => true
  | .vextr _ _ _ => true
  | .vinsr _ _ _ => true
  | .vslli _ _ _ => true
  | .vsrli _ _ _ => true
  | .vsrai _ _ _ => true
  | .vaddi _ _ _ => true
  | .vslideup _ _ _ => true
  | .vslidedn _ _ _ => true
  | .vredsum _ _ => true
  | .vredmin _ _ => true
  | .vredmax _ _ => true
  | .vredand _ _ => true
  | .vredor _ _ => true
  | .vredxor _ _ => true
  | .vfredsum _ _ _ => true
  | .vfredmax _ _ => true
  | .vfredmin _ _ => true
  | .vsegsum _ _ _ => true
  | .vmpopc _ _ => true
  | .vmfirst _ _ => true
  | .vbcastMd _ _ => true
  | .vslliMd _ _ _ => true
  | .vsrliMd _ _ _ => true
  | .vsraiMd _ _ _ => true
  | .vaddiMd _ _ _ => true
  | .vslideupMd _ _ _ => true
  | .vslidednMd _ _ _ => true
  | .vredsumMd _ _ => true
  | .vredminMd _ _ => true
  | .vredmaxMd _ _ => true
  | .vredandMd _ _ => true
  | .vredorMd _ _ => true
  | .vredxorMd _ _ => true
  | .vfredsumMd _ _ _ => true
  | .vfredmaxMd _ _ => true
  | .vfredminMd _ _ => true
  | .vsegsumMd _ _ _ => true
  | .vmpopcMd _ _ => true
  | .vmfirstMd _ _ => true
  | .vld _ _ _ => true
  | .vlds _ _ _ _ => true
  | .vldx _ _ _ _ => true
  | .vldl _ _ _ => true
  | .vldy _ _ _ => true
  | .vldys _ _ _ _ => true
  | .vldff _ _ _ => true
  | .vst _ _ _ => true
  | .vsts _ _ _ _ => true
  | .vstx _ _ _ _ => true
  | .vstl _ _ _ => true
  | .vsty _ _ _ => true
  | .vstys _ _ _ _ => true
  | .waitv _ _ _ _ => true
  | .vstr _ _ _ _ => true
  | .ashape _ _ _ => true
  | .await => true
  | .arole _ _ _ => true
  | .aflush _ _ => true
  | .aclr => true
  | .ainval _ _ => true
  | .mbegin _ => true
  | .mend => true
  | .msplit _ _ => true
  | .mjoin _ _ => true
  | .mstop => true
  | .mnext _ => true
  | .mbr _ _ => true
  | .mlinkr _ _ => true
  | .mlinkw => true
  | .msetm _ _ _ => true
  | .mgetm _ _ _ => true
  | .mstat _ _ => true
  | .mreset _ => true
  | .tattach _ _ => true
  | .tdetach => true
  | .tmma _ _ _ => true
  | .tzero _ => true
  | .tread _ _ _ => true
  | .tload _ _ _ => true
  | .twait _ => true

/-- A 32-bit value from its four bytes, the lowest address first (R59: words are stored little-endian). -/
def wordOfBytes (b0 b1 b2 b3 : Byte) : IWord := b3 ++ b2 ++ b1 ++ b0

/-- Byte `k` of a word as it lies in memory (R59). -/
def byteOfWord (w : IWord) (k : Nat) : Byte := w.extractLsb' (8 * k) 8

/-- The instruction the decoder reads from an instruction whose bits are `w`, numbered as the opcode table numbers
them: the word is laid out in its four bytes, little-endian, and read back from them. -/
noncomputable def decodeTableWord (nbits w : Nat) : Option Instr :=
  let x : IWord := BitVec.ofNat 32 (w % 2 ^ nbits)
  decode (wordOfBytes (byteOfWord x 0) (byteOfWord x 1) (byteOfWord x 2) (byteOfWord x 3))

end Sys2Proof
end

