-- ==== Sys2Proof/Config.lean ====
section
/-! DEFINITION. What the spec leaves to the implementation, and the free values.

Every constant here is opaque: nothing in Lean can evaluate it, so whatever is proved holds for every value of it.
A function of a counter gives a fresh value at each draw (the counter is `State.free`). -/

namespace Sys2Proof.Config

/-- The firmware entry (R144): an address set by the management controller, which no program reads. -/
opaque firmwareEntry : Word

/-- Values that firmware leaves in g56 to g63 of a hart when it starts the resident program (R112, Table 05-1). -/
opaque firmwareReg : Nat → Word

/-- Where an f32 special function turns from one of the two values that bracket an exact result to the other, for each
operation (0 VEXP2, 1 VLOG2, 2 VRCP, 3 VRSQRT) and each pair of neighbours, named by the pattern of the lower one (R57):
an input in the order of its value.  A monotone choice within a bracket is such a turn and nothing else. -/
opaque specialTurn : Nat → Nat → Int

/-- Patterns that a TREAD takes from rows which a pending tile word is changing (R263). -/
opaque treadValue : Nat → Word

/-- Flags that such elements raise (R263). -/
opaque treadFlags : Nat → BitVec 6

/-- Which of the accepted tile words that may complete does so (R264). -/
opaque tileTurn : Nat → Nat

/-- The core, of all the others, whose hart has written a reply to a fault window (R407). -/
opaque replySource : Nat → Nat

/-- Patterns of elements whose data rows failed a parity check (R174). -/
opaque parityValue : Nat → Word

/-- Flags that such elements raise (R174). -/
opaque parityFlags : Nat → BitVec 6

/-- Which 64 columns of the subarray a failed parity check covers (modulo 4), and which of the rows that the word reads it
was met on (R174). -/
opaque parityGroup : Nat → Nat
opaque parityRow : Nat → Nat

/-- How many monitors of a home unit (slices 0 to 255, base dies 256 to 263, far ports 264 to 267) the requests of other
cores hold at a tick (R333, R490). -/
opaque otherMonitors : Nat → Nat → Nat

/-- The rows sq0 to sq31 of a subarray as an instruction finds them (R159): by tick, subarray and row. -/
opaque sequencerRow : Nat → Nat → Nat → BitVec 256

/-- Whether a scalar scratch store that is on its way to its bank stays so at a tick (R308). -/
opaque storeLate : Nat → Bool

/-- Where in the slot of a relocated core a crossing to an upper array way is staged (R284): a byte of its 4 MiB. -/
opaque stagePlace : Nat → Nat

/-- How many other cores request a beat of the layer bus when this core does (R278, R283). -/
opaque otherBeats : Nat → Nat

/-- The way that a full set of the core cache gives up (R273). -/
opaque victimWay : Nat → Nat

/-- The line that a full LLC slice gives up (R279). -/
opaque llcVictim : Nat → Nat

/-- The entry that a full TLB gives up (R398). -/
opaque victimEntry : Nat → Nat

/-- Whether a fetch sees the word the instruction cache holds where memory differs from it (R149). -/
opaque staleFetch : Nat → Bool

/-- Whether a marked part leaves service at a moment when it may: a channel or far port that no page is mapped to any more
(R286), or another core, whose container has been saved (R450). -/
opaque emptied : Nat → Bool

/-- The event word by which a part that has passed its threshold is reported to the host, by DEGRADE bit and number
(Table 04-2, bit 3). -/
opaque failureWord : Nat → Nat → Word

/-- Byte `k` of the SHA3-512 digest of a list of bytes (R481, R482). -/
opaque sha3 : List Byte → Nat → Byte

/-- Byte `k` of the firmware digest (R481, R482). -/
opaque firmwareDigest : Nat → Byte

/-- Byte `k` of the ML-DSA-87 signature of a report (R482). -/
opaque signature : List Byte → Nat → Byte

/-- The step of bring-up that fails at a device reset: 1 to 6; none for any other number (R481). -/
opaque failedStep : Nat → Nat

/-- The retirement of parts by self-test at a device reset: (DEGRADE bit, part) pairs (R449, R481). -/
opaque selfTestFailures : Nat → List (Nat × Nat)

/-- Where firmware begins its round of the frames of one use at bring-up: the order of frames is its own (R487). -/
opaque frameTurn : Nat → Nat

/-- What a read of the host's bus through the host aperture returns: the host's memory is not the device's (R470). -/
opaque hostWord : Nat → Nat → Word

/-- What a read of a register of another core's part returns: other cores are not modelled (R407). -/
opaque otherCore : Nat → Word

/-- Whether a packet for another core or a peer is answered with an error response there (R362, R480). -/
opaque remoteError : Nat → Bool

/-- Whether the pool device gives a 64-byte sector of far memory poisoned, by tick and sector (R478). -/
opaque poisoned : Nat → Nat → Bool

/-- Whether a core of a peer device is live at a tick (R358). -/
opaque peerCore : Nat → Nat → Nat → Bool

/-- What the ways and the grant of another work core of the quadrant are at a tick, by COREID (R98): its array ways, lower
and upper scratch ways and granted rows, each as far as there is room for it. -/
opaque otherWays : Nat → Nat → Nat × Nat × Nat × Nat

/-- The hart of this core that sent a packet whose record no longer names it (R362, R371). -/
opaque sendingHart : Nat → BitVec 1

/-- The physical address that the log holds for a spill write aborted before it was translated (R408, R451). -/
opaque spillAbortAddr : Nat → Word

/-- Elements that a port or an address unit of a graph takes from a source whose type is not of its width (R419). -/
opaque laneValue : Nat → Word

/-- The silicon revision and profiles of this edition (R1, R141). -/
def caps : Word := 0x00011111001F00B0

/-- The most entries of the core's tables (R11, R170, R256, R398, R399, R405, R426). -/
def tlbEntries : Nat := 2048
def faultRecords : Nat := 512
def missEntries : Nat := 256
def walkers : Nat := 16
def fabricEntries : Nat := 1024
def arrayQueueEntries : Nat := 32
def matrixQueueEntries : Nat := 16

/-- Superblocks of an LLC slice of 24 MiB (R14, R16). -/
def llcLines : Nat := 98304

end Sys2Proof.Config
end

