-- ==== Sys2Proof/Machine/Store.lean ====
section
/-! DEFINITION. Sparse stores: lists of (key, value) pairs in one canonical form.

Every array of the machine (memory, SRAM rows, accumulators, register files, tables) is held so: keys strictly
rising, and no entry equal to the default, which is what an unlisted key reads as.  Equal contents are then equal
data.  For bytes a store is a list of `Host.Cell`. -/

namespace Sys2Proof.Machine

/-- A sparse store with values in `α`. -/
abbrev Map (α : Type) := List (Nat × α)

/-- A sparse store of `w`-bit words; what an unlisted key reads as is 0. -/
abbrev Store (w : Nat) := Map (BitVec w)

/-- Memory: bytes by address, as the host's interface lists them. -/
abbrev Memory := List Host.Cell

/-- The value at key `k`; the default `d` where nothing is listed. -/
def Map.get {α : Type} (d : α) : Map α → Nat → α
  | [], _ => d
  | (a, x) :: m, k => if k = a then x else Map.get d m k

/-- The store with the entry (k, v) put in its place. -/
def Map.put {α : Type} : Map α → Nat → α → Map α
  | [], k, v => [(k, v)]
  | (a, x) :: m, k, v =>
    if k < a then (k, v) :: (a, x) :: m else if k = a then (k, v) :: m else (a, x) :: Map.put m k v

/-- The store with value `v` at key `k`, in canonical form: the default is never listed. -/
def Map.set {α : Type} [DecidableEq α] (d : α) (m : Map α) (k : Nat) (v : α) : Map α :=
  if v = d then m.filter (fun e => decide (e.1 ≠ k)) else Map.put m k v

/-- Every key of the store is above `b`, keys rise, and no entry is the default. -/
def Map.above {α : Type} [DecidableEq α] (d : α) : Nat → Map α → Bool
  | _, [] => true
  | b, (a, x) :: m => decide (b < a) && decide (x ≠ d) && Map.above d a m

/-- The canonical form: keys strictly rising, no entry equal to the default. -/
def Map.wf {α : Type} [DecidableEq α] (d : α) : Map α → Bool
  | [] => true
  | (a, x) :: m => decide (x ≠ d) && Map.above d a m

/-- The value at key `k` of a store of words. -/
def Store.get {w : Nat} (m : Store w) (k : Nat) : BitVec w := Map.get 0 m k

/-- A store of words with `v` at key `k`. -/
def Store.set {w : Nat} (m : Store w) (k : Nat) (v : BitVec w) : Store w := Map.set 0 m k v

/-- The canonical form of a store of words. -/
def Store.wf {w : Nat} (m : Store w) : Bool := Map.wf 0 m

/-- The canonical form of memory (R26, R280). -/
def Memory.wf (m : Memory) : Bool := Store.wf (w := 8) m

/-- The byte at an address; a byte that nothing has written reads as 0 (log entry 1). -/
def Memory.byte (m : Memory) (a : Nat) : Byte := Store.get (w := 8) m a

/-- Memory with one byte written. -/
def Memory.setByte (m : Memory) (a : Nat) (v : Byte) : Memory := Store.set (w := 8) m a v

/-- The `n` bytes at `a`, little-endian, as a number (R26, `mem.load`). -/
def Memory.load (m : Memory) (a : Nat) : Nat → Nat
  | 0 => 0
  | n + 1 => (Memory.byte m a).toNat + 256 * Memory.load m (a + 1) n

/-- Memory with the `n`-byte little-endian form of `v` written at `a` (R26, `mem.store`). -/
def Memory.store (m : Memory) (a : Nat) : Nat → Nat → Memory
  | 0, _ => m
  | n + 1, v => Memory.store (Memory.setByte m a (BitVec.ofNat 8 v)) (a + 1) n (v / 256)

/-- Removes every entry whose key lies in `lo .. lo + n - 1`: those keys then read as the default. -/
def Map.clear {α : Type} (m : Map α) (lo n : Nat) : Map α :=
  m.filter (fun e => decide (e.1 < lo) || decide (lo + n ≤ e.1))

/-- The entries whose key lies in `lo .. lo + n - 1`. -/
def Map.slice {α : Type} (m : Map α) (lo n : Nat) : Map α :=
  m.filter (fun e => decide (lo ≤ e.1) && decide (e.1 < lo + n))

/-- A field of `n` bits of a natural number, from bit `lo`. -/
def bits (x lo n : Nat) : Nat := x / 2 ^ lo % 2 ^ n

/-- Bit `k` of a natural number. -/
def bit (x k : Nat) : Bool := x / 2 ^ k % 2 == 1

/-- `x` with the `n` bits from bit `lo` replaced by the low `n` bits of `v`. -/
def setBits (x lo n v : Nat) : Nat :=
  x % 2 ^ lo + v % 2 ^ n * 2 ^ lo + x / 2 ^ (lo + n) * 2 ^ (lo + n)

/-- A word from a number, reduced modulo 2^64. -/
def word (n : Nat) : Word := BitVec.ofNat 64 n

/-- A word from an integer, in two's complement. -/
def wordOfInt (x : Int) : Word := BitVec.ofInt 64 x

/-- `f` applied to the accumulator for each of `lo, lo + 1, …`, `n` times. -/
def loop {α : Type} (f : Nat → α → α) : Nat → Nat → α → α
  | _, 0, x => x
  | lo, n + 1, x => loop f (lo + 1) n (f lo x)

end Sys2Proof.Machine
end

