-- ==== Sys2Proof/Machine/Flags.lean ====
section
/-! DEFINITION. Number formats, exact values, rounding, saturation and the flags they raise (chapter 02).

Values are exact: a sign, a magnitude and a power of two, with infinities and NaN (R25, R36).  Every rounding is one
explicit call and answers the pattern together with the flags it raises (Table 02-8). -/

namespace Sys2Proof.Machine

/-! ### The sticky flags (Table 02-7) -/

def flNV : BitVec 6 := 0x01
def flDZ : BitVec 6 := 0x02
def flOF : BitVec 6 := 0x04
def flUF : BitVec 6 := 0x08
def flNX : BitVec 6 := 0x10
def flSAT : BitVec 6 := 0x20

/-! ### Element types (Tables 02-2 and 02-3) -/

/-- Whether a type code is one of Tables 02-2 and 02-3: codes 0C to 0F and 18 to 1F are reserved (R82). -/
def typeOk (t : Nat) : Bool := decide (t ≤ 0x0B) || (decide (0x10 ≤ t) && decide (t ≤ 0x17))

/-- Whether the type is an integer type. -/
def isInt (t : Nat) : Bool := decide (t ≤ 0x0B)

/-- Whether the type is a signed integer type (sN types are the even codes). -/
def isSigned (t : Nat) : Bool := isInt t && t % 2 == 0

/-- Whether the type is a floating-point type of Table 02-3. -/
def isFloat (t : Nat) : Bool := decide (0x10 ≤ t) && decide (t ≤ 0x16)

/-- Element width in bits (Tables 02-2 and 02-3); 0 for a reserved code. -/
def width (t : Nat) : Nat :=
  match t with
  | 0x00 | 0x01 | 0x10 => 4
  | 0x02 | 0x03 | 0x11 => 6
  | 0x04 | 0x05 | 0x12 | 0x13 | 0x17 => 8
  | 0x06 | 0x07 | 0x14 | 0x15 => 16
  | 0x08 | 0x09 | 0x16 => 32
  | 0x0A | 0x0B => 64
  | _ => 0

/-- Registers per element: ⌈w/4⌉ (R29). -/
def regsOf (t : Nat) : Nat := (width t + 3) / 4

/-- The fields of a floating-point format (Table 02-3). -/
structure FFmt where
  mb : Nat
  eb : Nat
  bias : Nat
  hasInf : Bool
  hasNan : Bool
  /-- magnitude pattern of the largest finite value, and the canonical NaN (R35) -/
  max : Nat
  nan : Nat
deriving DecidableEq, Repr

/-- The format of a floating-point type code (Table 02-3). -/
def ffmt (t : Nat) : FFmt :=
  match t with
  | 0x10 => { mb := 1, eb := 2, bias := 1, hasInf := false, hasNan := false, max := 7, nan := 7 }
  | 0x11 => { mb := 2, eb := 3, bias := 3, hasInf := false, hasNan := false, max := 31, nan := 31 }
  | 0x12 => { mb := 3, eb := 4, bias := 7, hasInf := false, hasNan := true, max := 0x7E, nan := 0x7F }
  | 0x13 => { mb := 2, eb := 5, bias := 15, hasInf := true, hasNan := true, max := 0x7B, nan := 0x7E }
  | 0x14 => { mb := 7, eb := 8, bias := 127, hasInf := true, hasNan := true, max := 0x7F7F, nan := 0x7FC0 }
  | 0x15 => { mb := 10, eb := 5, bias := 15, hasInf := true, hasNan := true, max := 0x7BFF, nan := 0x7E00 }
  | _ => { mb := 23, eb := 8, bias := 127, hasInf := true, hasNan := true, max := 0x7F7FFFFF, nan := 0x7FC00000 }

/-! ### Exact values -/

/-- An exact value: `fin neg m e` is (−1)^neg × m × 2^e; zeros have both signs (R34). -/
inductive Num where
  | nan
  | inf (neg : Bool)
  | fin (neg : Bool) (m : Nat) (e : Int)
deriving DecidableEq, Repr

/-- The value of an integer. -/
def Num.ofInt (x : Int) : Num := .fin (decide (x < 0)) x.natAbs 0

/-- Whether a value is a zero. -/
def Num.isZero : Num → Bool
  | .fin _ 0 _ => true
  | _ => false

/-- Whether a value is below zero, counting −0. -/
def Num.negative : Num → Bool
  | .nan => false
  | .inf n => n
  | .fin n _ _ => n

/-- The value of a pattern of a floating-point format (R32). -/
def valF (f : FFmt) (b : Nat) : Num :=
  let neg := bit b (f.eb + f.mb)
  let ex := bits b f.mb f.eb
  let man := bits b 0 f.mb
  let mag := bits b 0 (f.eb + f.mb)
  if f.hasInf && ex == 2 ^ f.eb - 1 then (if man = 0 then .inf neg else .nan)
  else if f.hasNan && decide (f.max < mag) then .nan
  else if ex = 0 then .fin neg man (1 - (f.bias : Int) - f.mb)
  else .fin neg (2 ^ f.mb + man) ((ex : Int) - f.bias - f.mb)

/-- The value of an e3m5 scale byte (R37). -/
def valScale (b : Nat) : Num :=
  let ex := bits b 5 3
  let man := bits b 0 5
  if ex = 0 then .fin false man (-8) else .fin false (32 + man) ((ex : Int) - 9)

/-- The integer of a pattern of an integer type (R31). -/
def intOf (t b : Nat) : Int :=
  let w := width t
  let x := b % 2 ^ w
  if isSigned t && decide (2 ^ w ≤ 2 * x) then (x : Int) - (2 ^ w : Nat) else (x : Int)

/-- `val(b, type)` (R26, R36). -/
def val (t b : Nat) : Num :=
  if isInt t then .ofInt (intOf t b) else if t = 0x17 then valScale b else valF (ffmt t) b

/-- `val` of a pattern that is to be rounded: a zero of a type without a sign of zero takes its sign under R34, −0 where
`rdn` says that the mode is RDN (log entry 118). -/
def valSigned (rdn : Bool) (t b : Nat) : Num :=
  if !isFloat t && (val t b).isZero then .fin rdn 0 0 else val t b

/-- Two's-complement pattern of `w` bits of an integer: `wrap` (R26). -/
def wrapBits (w : Nat) (x : Int) : Nat := (x % (2 ^ w : Nat)).toNat

/-- The range of an integer type (Table 02-2). -/
def intMin (t : Nat) : Int := if isSigned t then -(2 ^ (width t - 1) : Nat) else 0
def intMax (t : Nat) : Int := if isSigned t then (2 ^ (width t - 1) : Nat) - 1 else (2 ^ width t : Nat) - 1

/-- `sat(x, type)` for an integer type: the pattern, with SAT when it clamps (R26, R47). -/
def satInt (t : Nat) (x : Int) : Nat × BitVec 6 :=
  if x < intMin t then (wrapBits (width t) (intMin t), flSAT)
  else if intMax t < x then (wrapBits (width t) (intMax t), flSAT)
  else (wrapBits (width t) x, 0)

/-! ### Exact arithmetic -/

/-- Magnitude times 2^(e − f), for f ≤ e. -/
def alignTo (m : Nat) (e f : Int) : Nat := m * 2 ^ (e - f).toNat

/-- Exact sum; `rdn` is the sign of a zero that R34 leaves to the mode (set under RDN).  The second part is NV, for
∞ − ∞ (R49). -/
def Num.add (rdn : Bool) : Num → Num → Num × BitVec 6
  | .nan, _ => (.nan, 0)
  | _, .nan => (.nan, 0)
  | .inf a, .inf b => if a = b then (.inf a, 0) else (.nan, flNV)
  | .inf a, _ => (.inf a, 0)
  | _, .inf b => (.inf b, 0)
  | .fin a m e, .fin b n f =>
    let g := min e f
    let x := alignTo m e g
    let y := alignTo n f g
    if m = 0 ∧ n = 0 then (.fin (if a && b then true else rdn) 0 0, 0)
    else if a = b then (.fin a (x + y) g, 0)
    else if x = y then (.fin rdn 0 0, 0)
    else if y < x then (.fin a (x - y) g, 0)
    else (.fin b (y - x) g, 0)

/-- Exact product (R34: a zero product keeps −0 only when both operands are −0).  NV for 0 × ∞. -/
def Num.mul (rdn : Bool) : Num → Num → Num × BitVec 6
  | .nan, _ => (.nan, 0)
  | _, .nan => (.nan, 0)
  | .inf a, .inf b => (.inf (a != b), 0)
  | .inf a, .fin b n _ => if n = 0 then (.nan, flNV) else (.inf (a != b), 0)
  | .fin a m _, .inf b => if m = 0 then (.nan, flNV) else (.inf (a != b), 0)
  | .fin a m e, .fin b n f =>
    if m = 0 ∨ n = 0 then (.fin (if m = 0 ∧ n = 0 ∧ a ∧ b then true else rdn) 0 0, 0)
    else (.fin (a != b) (m * n) (e + f), 0)

/-- The value with its sign changed. -/
def Num.neg : Num → Num
  | .nan => .nan
  | .inf a => .inf (!a)
  | .fin a m e => .fin (!a) m e

/-- Exact sum of a list of terms (R25): the empty sum is +0; a NaN term makes it NaN without a flag; infinities of
both signs make it NaN with NV (R49, R52). -/
def Num.sum (rdn : Bool) : List Num → Num × BitVec 6
  | [] => (.fin false 0 0, 0)
  | x :: xs =>
    if (x :: xs).any (· == .nan) then (.nan, 0)
    else xs.foldl (fun acc y =>
      match acc with
      | (.nan, f) => (.nan, f)
      | (a, f) => let r := Num.add rdn a y; (r.1, f ||| r.2)) (x, 0)

/-- Comparison of values that are not NaN: −1, 0 or 1; zeros of both signs are equal (R34). -/
def Num.cmp : Num → Num → Int
  | .nan, _ => 0
  | _, .nan => 0
  | .inf a, .inf b => if a = b then 0 else if a then -1 else 1
  | .inf a, .fin _ _ _ => if a then -1 else 1
  | .fin _ _ _, .inf b => if b then 1 else -1
  | .fin a m e, .fin b n f =>
    let g := min e f
    let x : Int := (if a then -1 else 1) * (alignTo m e g : Int)
    let y : Int := (if b then -1 else 1) * (alignTo n f g : Int)
    if x < y then -1 else if y < x then 1 else 0

/-! ### Rounding (R40 to R45) -/

/-- Rounding modes of Table 02-4, codes 000 to 101. -/
def mRNE : Nat := 0
def mRTZ : Nat := 1
def mRDN : Nat := 2
def mRUP : Nat := 3
def mRNA : Nat := 4
def mSTO : Nat := 5

/-- Whether the mode's zeros are −0 (R34). -/
def rdnOf (mode : Nat) : Bool := mode == mRDN

/-- The rounding decision: whether magnitude k + (rem + sticky)/2^s goes up to k + 1 (Table 02-4; R42 for stochastic
rounding with generator value `gen`). -/
def goesUp (mode gen : Nat) (neg : Bool) (k rem s : Nat) (sticky : Bool) : Bool :=
  let half := if s = 0 then 0 else 2 ^ (s - 1)
  let inexact := decide (rem ≠ 0) || sticky
  if !inexact then false
  else if mode = mRTZ then false
  else if mode = mRDN then neg
  else if mode = mRUP then !neg
  else if mode = mRNA then decide (s ≠ 0 ∧ half ≤ rem)
  else if mode = mSTO then decide (65536 ≤ rem * 65536 / 2 ^ s + gen)
  else decide (s ≠ 0 ∧ (half < rem ∨ (rem = half ∧ (sticky ∨ k % 2 = 1))))

/-- Magnitude m × 2^e (plus less than one unit when `sticky`) rounded to a multiple of 2^q: the multiple, and whether
the value changed. -/
def roundTo (mode gen : Nat) (neg : Bool) (m : Nat) (e q : Int) (sticky : Bool) : Nat × Bool :=
  if q ≤ e then (m * 2 ^ (e - q).toNat, sticky)
  else
    let s := (q - e).toNat
    let k := m / 2 ^ s
    let rem := m % 2 ^ s
    (if goesUp mode gen neg k rem s sticky then k + 1 else k, decide (rem ≠ 0) || sticky)

/-- The largest finite value of a sign. -/
def largest (f : FFmt) (neg : Bool) : Nat := f.max + b2 neg * 2 ^ (f.eb + f.mb)
where
  b2 (b : Bool) : Nat := if b then 1 else 0

/-- The infinity of a sign. -/
def infinity (f : FFmt) (neg : Bool) : Nat := (2 ^ f.eb - 1) * 2 ^ f.mb + (if neg then 2 ^ (f.eb + f.mb) else 0)

/-- The result of an overflow (Table 02-6). -/
def overflowTo (f : FFmt) (mode : Nat) (neg : Bool) : Nat :=
  if !f.hasInf then largest f neg
  else if mode = mRTZ then largest f neg
  else if mode = mRDN then (if neg then infinity f neg else largest f neg)
  else if mode = mRUP then (if neg then largest f neg else infinity f neg)
  else infinity f neg

/-- A finite value rounded to a format (R40, R42, R43), with OF, UF and NX (R49).  DESIGN CHOICE (log entry 157): under mode
101 a value between the largest finite value and the next step overflows where the generator rounds it up. -/
def roundFin (f : FFmt) (mode gen : Nat) (neg : Bool) (m : Nat) (e : Int) (sticky : Bool) : Nat × BitVec 6 :=
  let sgn := if neg then 2 ^ (f.eb + f.mb) else 0
  if m = 0 then (sgn, 0)
  else
    let top : Int := e + (Nat.log2 m : Nat)
    let emin : Int := 1 - (f.bias : Int)
    let q : Int := (if top < emin then emin else top) - f.mb
    let (k, nx) := roundTo mode gen neg m e q sticky
    -- exponent field of the rounded value; k = 2^(mb+1) after a carry
    let (k', q') : Nat × Int := if 2 ^ (f.mb + 1) ≤ k then (k / 2, q + 1) else (k, q)
    let mag : Nat :=
      if k' < 2 ^ f.mb then k'
      else (q' + f.mb + f.bias).toNat * 2 ^ f.mb + (k' - 2 ^ f.mb)
    if f.max < mag then (overflowTo f mode neg, flOF ||| flNX)
    else
      -- tiny: below the smallest normal value after rounding with unbounded exponent (R43)
      let tiny := decide (top < emin) &&
        !(decide (top = emin - 1) && decide (2 ^ (f.mb + 1) ≤ (roundTo mode gen neg m e (top - f.mb) sticky).1))
      (sgn + mag, if nx then (if tiny then flUF ||| flNX else flNX) else 0)

/-- `round(x, type, mode)` for a floating-point type with the saturate bit (R43, R44, R45): the pattern and its
flags.  `sticky` says that the value exceeds the given magnitude by less than one unit of it. -/
def roundF (t mode gen : Nat) (sat : Bool) (x : Num) (sticky : Bool := false) : Nat × BitVec 6 :=
  let f := ffmt t
  match x with
  | .nan => if f.hasNan then (f.nan, 0) else (f.max, flNV)
  | .inf neg =>
    if !f.hasInf then (largest f neg, flOF ||| flNX)
    else if sat then (largest f neg, flOF)
    else (infinity f neg, 0)
  | .fin neg m e =>
    let r := roundFin f mode gen neg m e sticky
    if sat && f.hasInf && r.1 == infinity f neg then (largest f neg, r.2 ||| flOF) else r

/-- A finite value rounded to an integer under a mode, and whether that changed it (R26). -/
def roundInt (mode gen : Nat) (neg : Bool) (m : Nat) (e : Int) : Int × Bool :=
  let (k, nx) := roundTo mode gen neg m e 0 false
  (if neg then -(k : Int) else (k : Int), nx)

/-- `toint(x, type, mode)` (R46): the pattern and its flags. -/
def toint (t mode gen : Nat) (x : Num) : Nat × BitVec 6 :=
  match x with
  | .nan => (0, flNV)
  | .inf neg => (wrapBits (width t) (if neg then intMin t else intMax t), flNV)
  | .fin neg m e =>
    let (k, nx) := roundInt mode gen neg m e
    if k < intMin t then (wrapBits (width t) (intMin t), flNV)
    else if intMax t < k then (wrapBits (width t) (intMax t), flNV)
    else (wrapBits (width t) k, if nx then flNX else 0)

/-- A rounding mode resolved where stochastic rounding does not apply (R41). -/
def noStochastic (mode : Nat) : Nat := if mode = mSTO then mRNE else mode

/-! ### Quotients and roots -/

/-- Exact quotient of finite values cut to a long magnitude, with sticky; the divisor is not 0. -/
def quotient (a : Bool) (m : Nat) (e : Int) (b : Bool) (n : Nat) (f : Int) : Num × Bool :=
  let k := 96 + Nat.log2 n
  let x := m * 2 ^ k
  (.fin (a != b) (x / n) (e - f - k), decide (x % n ≠ 0))

/-- Integer square root by bits: the largest r with r² ≤ x, from bit `n − 1` down. -/
def isqrt (x : Nat) : Nat → Nat → Nat
  | 0, r => r
  | n + 1, r => let r' := r + 2 ^ n; isqrt x n (if r' * r' ≤ x then r' else r)

/-- Square root of a positive finite value cut to a long magnitude, with sticky. -/
def rootOf (m : Nat) (e : Int) : Num × Bool :=
  let (m, e) : Nat × Int := if e % 2 = 0 then (m, e) else (2 * m, e - 1)
  let x := m * 2 ^ 160
  let r := isqrt x (Nat.log2 x / 2 + 1) 0
  (.fin false r (e / 2 - 80), decide (r * r ≠ x))

/-- f32 division under R130, for any format: the value to round, its sticky part, and the flags NV and DZ. -/
def divNum (rdn : Bool) (x y : Num) : Num × Bool × BitVec 6 :=
  match x, y with
  | .nan, _ => (.nan, false, 0)
  | _, .nan => (.nan, false, 0)
  | .inf _, .inf _ => (.nan, false, flNV)
  | .inf a, .fin b _ _ => (.inf (a != b), false, 0)
  | .fin _ _ _, .inf _ => (.fin rdn 0 0, false, 0)
  | .fin a m e, .fin b n f =>
    if n = 0 then (if m = 0 then (.nan, false, flNV) else (.inf (a != b), false, flDZ))
    else if m = 0 then (.fin rdn 0 0, false, 0)
    else let q := quotient a m e b n f; (q.1, q.2, 0)

/-- Square root under R130: the value to round, its sticky part, and NV. -/
def sqrtNum (rdn : Bool) (x : Num) : Num × Bool × BitVec 6 :=
  match x with
  | .nan => (.nan, false, 0)
  | .inf neg => if neg then (.nan, false, flNV) else (.inf false, false, 0)
  | .fin neg m e =>
    if m = 0 then (.fin (neg || rdn) 0 0, false, 0)
    else if neg then (.nan, false, flNV)
    else let q := rootOf m e; (q.1, q.2, 0)

/-- The smaller or larger of two patterns of a format (R131, R210): a NaN operand gives the other, two NaNs the
canonical NaN, and −0 is ordered below +0. -/
def minmaxF (t : Nat) (wantMax : Bool) (a b : Nat) : Nat :=
  let f := ffmt t
  let x := valF f a
  let y := valF f b
  match x, y with
  | .nan, .nan => f.nan
  | .nan, _ => b
  | _, .nan => a
  | x, y =>
    let c := Num.cmp x y
    let c := if c = 0 ∧ x.isZero ∧ y.isZero then
        (if x.negative = y.negative then 0 else if x.negative then -1 else 1) else c
    if wantMax then (if c < 0 then b else a) else (if 0 < c then b else a)

end Sys2Proof.Machine
end

