-- ==== Sys2Proof/Machine/State.lean ====
section
/-! DEFINITION. The state of the machine: one core of the Omdor with its two harts, and every unit of the device that
the core reaches (Table 01-3), as plain data.

The field comments name the rule of spec/ that gives the state.  Fields marked MODEL are the model's own. -/

namespace Sys2Proof.Machine

/-- Why the machine stops.  No meaning of this model raises a fault for ordinary data. -/
inductive Fault where
  /-- Raised by nothing in this model: every fault of the spec is a trap, a record or a status, hence a next state.
  The constructor is kept so that the type has a value; safe. -/
  | unused
deriving DecidableEq, Repr

/-- Why a step has no meaning. -/
inductive Refusal where
  /-- Raised by an arm of `exec` whose instruction has no meaning yet; safe. -/
  | notModelled (mnemonic : String)
deriving DecidableEq, Repr

/-! ### Words of the array and tile profiles as the queues hold them -/

/-- The operation of a word that passes through the array issue queue or the matrix queue (R66 to R69, R176, R246,
R268). -/
inductive ArrOp where
  | vadd | vsub | vadds | vsubs | vmul | vmulh | vmin | vmax | vminn | vmaxn | vand | vor | vxor | vbool
  | vsll | vsrl | vsra | vmerge | vmac | vwmac | vdot | vdots | vfadd | vfsub | vfmul | vfma | vfmin | vfmax
  | vfdiv | vfms | vcfle | vcfun | vceq | vcne | vclt | vcge | vcltn | vcgen | vcfeq | vcflt
  | vmov | vnot | vneg | vabs | vfneg | vfabs | vfsqrt | vexp2 | vlog2 | vrcp | vrsqrt | vcvt | vclz | vpopc
  | vsearch | vkwrite | vcompress | vexpand | vrev | viota
  | vbcast | vextr | vinsr | vslli | vsrli | vsrai | vaddi | vslideup | vslidedn
  | vredsum | vredmin | vredmax | vredand | vredor | vredxor | vfredsum | vfredmax | vfredmin | vsegsum
  | vmpopc | vmfirst
  | vld | vlds | vldx | vldl | vldy | vldys | vldff | vst | vsts | vstx | vstl | vsty | vstys
  | waitv | vstr
  | ashape | aclr | msplit | msetm
  | tattach | tdetach | tmma | tzero | tread | tload
deriving DecidableEq, Repr

/-- An array or tile word with its fields (Table 03-1): `p` is the predication of Table 03-8 (10 for major 3D). -/
structure ArrWord where
  op : ArrOp
  d : BitVec 7
  a : BitVec 7
  b : BitVec 7
  k1 : Bool
  k2 : Bool
  p : BitVec 2
deriving DecidableEq, Repr

/-- A part of an element of an array memory word after its translation phase (R324): bits lo to lo + n − 1 of the
element lie from bit `shift` of the byte at a home address or offset, of this page and class.  An element is one part,
but for a 6-bit element that lies in two bytes (R323). -/
structure ElemAddr where
  elem : Nat
  lo : Nat
  n : Nat
  shift : Nat
  va : Word
  name : Nat
  vpn : Nat
  ms : Bool
  mmio : Bool
deriving DecidableEq, Repr

/-- The state of an entry of the array issue queue or the matrix queue. -/
inductive QStage where
  /-- queued, not begun -/
  | waiting
  /-- begun in its ways (R171), or accepted by the tile unit (R258): all its effects on rows and memory are made -/
  | begun
deriving DecidableEq, Repr

/-- An entry of the array issue queue (R170) or the matrix queue (R256). -/
structure QEntry where
  /-- place in the order of issue of the core's control harts (R257) -/
  seq : Nat
  w : ArrWord
  /-- the hart that issued it, whose FLAGS it merges into (R51) -/
  hart : BitVec 1
  /-- bits [25:0] of its FMT prefix (R77) -/
  fmt : Option (BitVec 26)
  /-- SHAPE, SCALEG, BANDSC, TSHAPE, BOOLT, AKEY, AKMASK and RMODE as the queue left them for it (R148, R163) -/
  shape : Word
  scaleg : Word
  bandsc : Word
  tshape : Word
  boolt : Word
  akey : Word
  akmask : Word
  rmode : BitVec 3
  /-- the micro-thread mask that selects its ways (R230, R232) -/
  sel : BitVec 32
  /-- scalar operands read at issue (R170): the d, s or base, and x or stride operands -/
  x0 : Word
  x1 : Word
  /-- scalar destination, 0 for none (Table 05-2) -/
  dest : BitVec 6
  /-- elements of a memory word still to be moved, ascending: those that the translation phase found active and below
  the first faulting one, under the mask of R233 for a word of a block (R324) -/
  addrs : List ElemAddr
  stage : QStage
  /-- the 64-byte sectors that it has accessed: its other elements there are of the same access (R324) -/
  seen : List Nat := []
  /-- the ways that have run it while others still hold it back (R171, R234): bit w -/
  ran : BitVec 32 := 0
  /-- what completion does: flags to merge, the scalar value, steps and density skips (R51, R167, R166) -/
  flags : BitVec 6
  value : Word
  steps : Nat
  skips : Nat
deriving DecidableEq, Repr

/-! ### Harts -/

/-- Who executes a word: a hart, or a private micro-thread named by its way (R236). -/
inductive Agent where
  | hart (h : BitVec 1)
  | mt (way : Nat)
deriving DecidableEq, Repr

/-- One watched word of a WAITV (R334). -/
structure Watch where
  elem : Nat
  addr : Nat
  want : BitVec 32
  matched : Bool
deriving DecidableEq, Repr

/-- The instruction a hart sleeps in (R93). -/
inductive Sleep where
  | sleep
  /-- MJOIN, AWAIT, TWAIT and TKDEP: executed again until their condition holds -/
  | retry
  | tkget (dest : BitVec 7)
  | waita (dest : BitVec 7) (addr : Nat) (value : Word) (since : Nat) (matched : Bool)
  | waitv (ad : BitVec 7) (all : Bool) (els : List Watch) (since : Nat)
  /-- behind the MEND of a block that holds a WAITV (R234, R334; log entry 131): since when, and the queue entry whose
  monitors are armed with the words it watches -/
  | waitb (since : Nat) (armed : Option (Nat × List Watch))
  | sacq (pa : Nat)
  | cpyw (tick : Word) (ticket : BitVec 32)
deriving DecidableEq, Repr

/-- What a hart is doing (R93, R101, R150, R481). -/
inductive Run where
  /-- not started: between the release of the dies and step 8 of bring-up (R481); or restored and not yet returned to
  (R109) -/
  | held
  | running
  | asleep (why : Sleep)
  /-- parked on a fault (R101); under FMODE[0] = 1, on the record of this sequence number (R106, R411) -/
  | parked (record : Option (BitVec 16))
  | halted
deriving DecidableEq, Repr

/-- A result in flight to a pending register (R115). -/
structure Late where
  reg : BitVec 6
  val : Word
  flags : BitVec 6
  /-- it is an OPF word's, whose flags an access to FLAGS waits for (R135), also where it raises none -/
  opf : Bool := false
  /-- the divider computes it (R120) -/
  divider : Bool := false
  /-- the other hart's read of FLAGS waits for it (R143) -/
  awaited : Bool := false
deriving DecidableEq, Repr

/-- A TLB entry (R398). -/
structure TlbEntry where
  /-- first virtual address of the page, and log2 of its size -/
  page : Nat
  size : Nat
  cid : BitVec 16
  /-- match-all mark (G = 1) -/
  all : Bool
  leaf : Word
deriving DecidableEq, Repr

/-- What a hart that cannot issue its present word waits for, where more than its word tells what it is. -/
inductive Waits where
  /-- the divider, since this tick (R120) -/
  | divider (tick : Nat)
  /-- the other hart's FLAGS: entries of the core's queues numbered below `seq` and the results marked for it (R143) -/
  | flags (seq : Nat)
  /-- the pages of its elements, of which these are translated so far (R400) -/
  | pages (done : List TlbEntry)
  /-- the work that a role change waits for, accepted before this place in the order of issue (R162) -/
  | role (seq : Nat)
deriving DecidableEq, Repr

/-- A pending FMT prefix (R77): bits [25:0], and whether ERET or SWITCH re-applied it (R146). -/
structure Prefix where
  bits : BitVec 26
  reapplied : Bool
deriving DecidableEq, Repr

/-- A mesh interrupt message (R142, R369). -/
structure MeshMsg where
  kind : BitVec 2
  payload : Word
  src : BitVec 16
deriving DecidableEq, Repr

/-- An asynchronous trap that waits for a boundary: what it writes to CAUSE detail, FADDR, FINFO and FSTRIDE. -/
structure AsyncEv where
  detail : BitVec 8
  faddr : Word
  finfo : Word
  stride : Word
  /-- the array word whose element failed, so that a lower one takes its place (R317) -/
  word : Option Nat := none
deriving DecidableEq, Repr

/-- A queued or granted sync request of a hart (R296, R297, R444). -/
inductive SyncStage where
  | sent | queued | granted
deriving DecidableEq, Repr

structure SyncReq where
  pa : Nat
  /-- virtual address of the object, for an error response (R317) and TLBINV (R403) -/
  va : Word := 0
  /-- of the context that sent it (R296) -/
  cid : BitVec 16
  /-- 0 SACQ, 1 SACQS, 3 SREL -/
  kind : BitVec 2
  stage : SyncStage
deriving DecidableEq, Repr

/-- A scalar store to local scratch or layer space on its way to its bank (R308). -/
structure ScratchStore where
  layer : Bool
  offset : Nat
  v : Word
deriving DecidableEq, Repr

/-- The hart CSRs of Table 06-2. -/
structure HartCsr where
  status : Word
  cause : Word
  epc : Word
  faddr : Word
  finfo : Word
  fstride : Word
  fremain : Word
  tvec : Word
  scratch : Word
  pfx : Word
  ie : Word
  flags : Word
  rmode : Word
  cpyt : Word
  waitto : Word
  tickcmp : Word
  /-- PSEL0 to PSEL3 and PCNT0 to PCNT3 (R458) -/
  psel : Store 64
  pcnt : Store 64
deriving DecidableEq, Repr

/-- A hart (R92). -/
structure Hart where
  /-- g1 to g63 (R112); g0 is never listed -/
  g : Store 64
  pc : Word
  run : Run
  /-- the scoreboard (R115) -/
  pending : BitVec 64
  late : List Late
  fmt : Option Prefix
  /-- the last instruction was a taken branch, JAL or JALR (R81) -/
  jumped : Bool
  csr : HartCsr
  meshQ : List MeshMsg
  parityEv : Option AsyncEv
  busEv : Option AsyncEv
  streamEv : List (Word × BitVec 8)
  dirEv : Option Word
  mgmtEv : List Word
  /-- RECORD of the core's fault window (R407), of a directory window (R445), of a violation log (R452) -/
  faultRecord : List Word
  dirRecord : List Word
  vlogRecord : List Word
  sync : List SyncReq
  /-- what its present word waits for at issue (R120, R143, R162, R400) -/
  waits : Option Waits := none
  /-- its scalar scratch stores that have not reached their banks, oldest first (R308) -/
  stores : List ScratchStore := []
  /-- the event that its stall at its present word counts in (R115, R448; Table 20-4) -/
  stalled : Option Nat := none
deriving DecidableEq, Repr

/-! ### The core's array state -/

/-- A micro-thread (R228), held with its way. -/
structure MicroThread where
  /-- m0 to m7, 32 bits each -/
  m : Store 32
  link : BitVec 32
  bpc : BitVec 22
  pred : Bool
  state : BitVec 2
  fcause : BitVec 4
  widx : BitVec 7
  vlp : BitVec 13
  type : BitVec 5
  /-- unmerged flags and the hart whose MSPLIT released it (R51) -/
  flags : BitVec 6
  owner : BitVec 1
  /-- MRESET has asked it to stop at its next block boundary (R243) -/
  stopReq : Bool
  /-- the block it has fetched (R238), empty between blocks; the word to run next; its pending FMT prefix (R82) -/
  image : List IWord
  pos : Nat
  fmt : Option (BitVec 26)
deriving DecidableEq, Repr

/-- A micro-thread as its way enters the array role (R228, R229). -/
def MicroThread.new : MicroThread :=
  { m := [], link := 0, bpc := 0, pred := false, state := 0, fcause := 0, widx := 0, vlp := 0, type := 0,
    flags := 0, owner := 0, stopReq := false, image := [], pos := 0, fmt := none }

/-- A pending answer of a micro-sequencer to MGETM (an m index) or MSTAT (R246), issued before queue entry `seq`. -/
structure MtAnswer where
  hart : BitVec 1
  reg : BitVec 6
  num : BitVec 5
  m : Option (BitVec 3)
  seq : Nat
deriving DecidableEq, Repr

/-- A word collected in an open broadcast block (R232). -/
structure Collected where
  w : ArrWord
  fmt : Option (BitVec 26)
deriving DecidableEq, Repr

/-- Core CSRs and array state (chapters 06 to 11). -/
structure CoreState where
  shape : Word
  boolt : Word
  akey : Word
  akmask : Word
  scaleg : Word
  bandsc : Word
  wayrole : Word
  tshape : Word
  tgrant : Word
  mtsel : Word
  mtstat : Word
  cid : Word
  ptbase : Word
  prefcap : Word
  coreId : BitVec 10
  /-- PSEL4 to PSEL7 and PCNT4 to PCNT7 (R458), keyed 4 to 7 -/
  psel : Store 64
  pcnt : Store 64
  /-- data rows of the 32 ways: byte way*262144 + row*512 + column/8 (R156, R270) -/
  sram : Memory
  /-- column generators (R42), keyed way*4096 + column; 0 is the seed of device reset -/
  gens : Store 16
  /-- ways marked for retirement, and ways already out of service (R160, R175) -/
  marked : BitVec 32
  out : BitVec 32
  queue : List QEntry
  mqueue : List QEntry
  nextSeq : Nat
  /-- the open broadcast block: its mask and collected words (R232) -/
  blockMask : BitVec 32
  block : List Collected
  mts : Map MicroThread
  answers : List MtAnswer
  /-- first micro-thread that faulted since FPEND was last clear (R241) -/
  firstFault : BitVec 5
  /-- the core is between a pre-emption and a restore (R108, R371) -/
  preempted : Bool
  /-- the latest contested beat of the layer bus went to this core (R278) -/
  lastGrant : Bool := false
  /-- a restored context that waits for redelivery before it goes on (R109): which of its harts were saved parked -/
  resuming : Option (Bool × Bool) := none
deriving DecidableEq, Repr

/-- The tile unit of the cluster (chapter 11). -/
structure TileUnit where
  /-- accumulators: pattern of tile t, row r, column c at (t*128 + r)*256 + c (R247) -/
  acc : Store 32
  /-- owner of band b: 0 free, p + 1 for cluster position p (R249) -/
  owner : Store 3
  /-- bands marked for retirement and bands out of service (R250) -/
  marked : BitVec 8
  out : BitVec 8
  /-- column generators (R42); 0 is the seed of device reset -/
  gens : Store 16
  /-- the position accepted last (R258) -/
  lastPos : BitVec 2
deriving DecidableEq, Repr

/-! ### Cache, translation, home memory -/

/-- A 64-byte sector (R273): valid bit, byte-dirty mask, bytes (byte i in bits [8i+7:8i]). -/
structure Sector where
  valid : Bool
  dirty : BitVec 64
  data : BitVec 512
deriving DecidableEq, Repr

/-- A superblock of the core cache (R273, R297). -/
structure Line where
  set : Nat
  way : Nat
  /-- 256-byte superblock number of its physical address or line name (R437) -/
  tag : Nat
  /-- CID and virtual page of the access that allocated it (R297) -/
  cid : BitVec 16
  vpn : Nat
  sectors : Map Sector
deriving DecidableEq, Repr

/-- Kinds of access for the permission check (Table 17-3). -/
inductive Acc where
  | read | write | both | fetch
  /-- a probe checks no permission (R404) -/
  | probe
deriving DecidableEq, Repr

/-- How a walk ended without a translation: its fault and level (R392 to R396, R410), and the table entries that it read,
as level, address and value. -/
structure WalkEnd where
  cause : Nat
  level : Nat
  read : List (Nat × Nat × Nat)
deriving DecidableEq, Repr

/-- An entry of the miss table: the lookups of one 4 KiB page, one CID and one kind of access check (R399). -/
structure Miss where
  /-- page number, and the root its walk begins at -/
  page : Nat
  ptbase : Word
  cid : BitVec 16
  acc : Acc
  /-- its walk has ended without a translation, which the lookup is still to be told -/
  ended : Option WalkEnd
deriving DecidableEq, Repr

/-- A record of the fault queue (Table 17-6), as its four words. -/
structure FaultRec where
  w0 : Word
  w1 : Word
  w2 : Word
  w3 : Word
  taken : Bool
deriving DecidableEq, Repr

/-- Translation state of the core (chapter 17). -/
structure Mmu where
  tlb : List TlbEntry
  /-- the miss table, in the order in which the misses arrived (R399) -/
  misses : List Miss := []
  /-- walker cache: table pointers by CID, level and address prefix (R398) -/
  walker : List (BitVec 16 × Nat × Nat × Nat)
  /-- outstanding records, oldest first (R405) -/
  queue : List FaultRec
  nextSeq : BitVec 16
  /-- records of this core's harts, parked under FMODE[0] = 1, for which the host fault buffer has no room (R411) -/
  unsent : List FaultRec := []
  /-- instruction words held by the core's instruction cache, by physical word address (ICINV, R149) -/
  icache : Map (Option IWord)
deriving DecidableEq, Repr

/-- A write on its way to its home (R293): an uncached store of a hart. -/
structure Posted where
  hart : BitVec 1
  /-- virtual address, for the fault CSRs of an error response (R317) -/
  va : Word
  /-- home address or line name (R437) -/
  pa : Nat
  n : Nat
  v : Word
  /-- performed, waiting for its acknowledgement -/
  done : Bool
  /-- the context that issued it (R403, R451) -/
  cid : BitVec 16 := 0
  /-- on an MS page (R490), or in MMIO (R303, R390) -/
  ms : Bool := false
  mmio : Bool := false
deriving DecidableEq, Repr

/-- A VSTR element on its way to its home (R336). -/
structure VstrItem where
  hart : BitVec 1
  seq : Nat
  va : Word
  pa : Nat
  td : BitVec 5
  /-- the exact value to add, as numerator times 2^-exponent (integers have exponent 0), or its special class -/
  cls : BitVec 2
  neg : Bool
  num : Nat
  exp : Int
  mode : BitVec 3
  sat : Bool
  elem : Nat
  /-- on an MS page (R490) -/
  ms : Bool := false
  /-- the context that issued it (R403, R451) -/
  cid : BitVec 16 := 0
deriving DecidableEq, Repr

/-- A compressed frame (R436): base, CMP, MOVED, and for each superblock its size code and generation. -/
structure Frame where
  base : Nat
  cmp : BitVec 2
  moved : Bool
  size : Store 3
  gen : Store 2
deriving DecidableEq, Repr

/-- A superblock held in an overflow buffer (R440): its frame and number, and the bytes of its form in the frame. -/
structure HeldBlock where
  frame : Nat
  sb : Nat
  old : Nat
  /-- the harts of this core whose stores brought it there, so that their FENCE to memory waits for it (R306): bit h -/
  own : BitVec 2 := 0
deriving DecidableEq, Repr

/-- A superblock that its home LLC slice holds, uncompressed (R14, R279).  The bytes of a line are those of `Home.mem`, the
one byte order of R293; the line says which of them memory itself has. -/
structure LlcLine where
  /-- 256-byte superblock number of its home address or line name (R437) -/
  tag : Nat
  /-- sectors that the slice has read from memory -/
  filled : BitVec 4
  /-- bytes that memory does not have yet -/
  dirty : BitVec 256
  /-- the 256 bytes that memory has, while some are dirty -/
  stored : Nat
  /-- virtual address and CID of the latest write, for the record of its write-back (R440), and the harts of this core that
  may have written the dirty bytes: bit h -/
  va : Word
  cid : BitVec 16
  own : BitVec 2
deriving DecidableEq, Repr

/-- A codec (Table 18-13). -/
structure Codec where
  /-- VFT[g] entry i at 15*g + i: bit 16 valid, bits [15:0] the halfword -/
  vft : Store 17
  newest : BitVec 2
  learn : Bool
  counts : Store 64
  /-- sample store: times each halfword value was sampled; and the samples taken -/
  samples : Store 32
  taken : Nat
  /-- the raw-write window: of the latest superblock writes, newest first, whether stored raw -/
  window : List Bool
  /-- a round of re-sampling of the codec's own runs; generation exhaustion has been raised (R439) -/
  resampling : Bool
  exhausted : Bool
  /-- the samples of host-assisted mode are ready and the host has been asked for a table (R439, kind 2) -/
  asked : Bool
  /-- staging table and INSTALL status of host-assisted mode (R479) -/
  staging : Store 16
  install : BitVec 2
  /-- overflow buffer (R440) -/
  overflow : List HeldBlock
deriving DecidableEq, Repr

/-- A codec at device reset (Table 18-13). -/
def Codec.new : Codec :=
  { vft := [], newest := 0, learn := true, counts := [], samples := [], taken := 0, window := [],
    resampling := false, exhausted := false, asked := false, staging := [], install := 0, overflow := [] }

/-- A violation log entry (Table 19-3), as its four words. -/
structure LogEntry where
  w0 : Word
  w1 : Word
  w2 : Word
  w3 : Word
deriving DecidableEq, Repr

/-- A request of this core to the monitors of a home unit (R333, R490): a WAITA, or element `elem` of a WAITV, on a
word at its home; it has a monitor, or waits for one. -/
structure Monitor where
  hart : BitVec 1
  elem : Nat
  name : Nat
  ms : Bool
  armed : Bool
deriving DecidableEq, Repr

/-- Memory at its homes and the units beside it (chapters 12, 13, 18, 19). -/
structure Home where
  /-- bytes by physical address, and of compressed frames by line name (2^48 and above, R437) -/
  mem : Memory
  posted : List Posted
  vstr : List VstrItem
  frames : Map (Option Frame)
  codecs : Map Codec
  /-- populated 4 KiB units of the far ports, by physical unit number (R282) -/
  farUnits : List Nat
  /-- violation logs of the four quadrants, oldest first, and their OVERRUN counts (R451) -/
  vlog : Map (List LogEntry)
  overrun : Store 32
  /-- this core's requests to the monitors of the home units, in order of arrival (R333, R490) -/
  monitors : List Monitor := []
  /-- the lines of the LLC slices, 98,304 a slice at most (R14, R16, R279) -/
  llc : List LlcLine := []
deriving DecidableEq, Repr

/-- A holder or requester of a sync object (R296). -/
structure Party where
  core : BitVec 10
  hart : BitVec 1
  cid : BitVec 16
deriving DecidableEq, Repr

/-- A request in an object's queue: exclusive or shared. -/
structure Waiter where
  who : Party
  excl : Bool
deriving DecidableEq, Repr

/-- A directory entry (R441). -/
structure DirEntry where
  pa : Nat
  excl : Bool
  holders : List Party
  ovf : Bool
  waiters : List Waiter
deriving DecidableEq, Repr

/-- An event of a directory slice (R443 to R445). -/
structure DirEvent where
  slice : Nat
  num : BitVec 12
  release : Bool
  pa : Nat
  who : Party
  taken : Bool
deriving DecidableEq, Repr

/-- An acquire that waits at a slice whose entries are all in use (R441). -/
structure HeldSync where
  pa : Nat
  who : Party
  excl : Bool
deriving DecidableEq, Repr

/-- The sync directory (chapter 19). -/
structure Directory where
  entries : List DirEntry
  /-- in order of arrival -/
  held : List HeldSync := []
  events : List DirEvent
  nextNum : Store 12
  hostRecord : List Word
deriving DecidableEq, Repr

/-! ### Engines and queues -/

/-- An entry of the interlock table (R447): a space (0 global, 1 local scratch, 2 layer space), whether it is a
destination, and the interval lo ≤ byte < hi. -/
structure Range where
  space : Nat
  dst : Bool
  lo : Int
  hi : Int
deriving DecidableEq, Repr

/-- A command block as the engine read it (Table 15-2). -/
structure CopyCmd where
  src : Word
  dst : Word
  sstride : Word
  dstride : Word
  rows : Nat
  cols : Nat
  vrows : Nat
  vcols : Nat
  ctl : BitVec 32
  scale : BitVec 32
  fill : Word
  /-- RESULT as it stood at issue, which a saved record keeps (R351) -/
  result : Word := 0
deriving DecidableEq, Repr

/-- The state of a transfer (Table 15-9). -/
inductive CopyStage where
  | waiting
  | running
  /-- stalled on the fault record of this sequence number -/
  | stalled (seq : BitVec 16)
deriving DecidableEq, Repr

/-- A live transfer: a busy slot of the copy engine (R337, R344). -/
structure CopySlot where
  seq : BitVec 26
  cmd : CopyCmd
  /-- its interlock entry (R344) -/
  ranges : List Range
  /-- local-scratch offset of its command block -/
  block : Nat
  cid : BitVec 16
  level : BitVec 2
  hart : BitVec 1
  stage : CopyStage
  cancel : Bool
  progress : Nat
  nsat : Nat
  status : BitVec 8
  promise : Nat
  planned : Nat
  /-- restored live, so a CPYW waits for the replacement promise too (R351), and that promise -/
  resumed : Bool
  replacement : Nat := 0
  /-- no chunk is to come: aborted, or a recode that did not fit (R342, R349) -/
  ended : Bool
  /-- saturated positions that faulted attempts at its next chunk have written, which count unless the chunk is rewritten
  (R349, R468) -/
  attempt : Nat := 0
  /-- the tick at which a CPYW that waits for it was missed: it completes at a later one (R469) -/
  missedAt : Option Nat := none
  paused : Bool
  /-- place in the order in which the core's words issue (R310) -/
  order : Nat
deriving DecidableEq, Repr

/-- The copy engine (chapter 15). -/
structure CopyEngine where
  slots : Map (Option CopySlot)
  nextSeq : BitVec 26
deriving DecidableEq, Repr

/-- The state of one interleave unit of a stream (R424, R427). -/
inductive UnitStage where
  | waiting
  | stalled (seq : BitVec 16)
  | finished
  | dropped
deriving DecidableEq, Repr

structure StreamUnit where
  first : Nat
  beats : Nat
  stage : UnitStage
deriving DecidableEq, Repr

/-- An open stream (R431). -/
structure StreamSlot where
  id : BitVec 32
  /-- its two interlock entries (R428) -/
  ranges : List Range
  graph : Nat
  src : Word
  dst : Word
  src2 : Word
  idx : Word
  cdone : Word
  dst1 : Word
  len : Nat
  stride : Int
  ctl : BitVec 32
  const : BitVec 32
  core : BitVec 10
  cid : BitVec 16
  ptbase : Word
  level : BitVec 2
  hart : BitVec 1
  rmode : BitVec 3
  units : List StreamUnit
  /-- where its first unit lies, once translated: the pinned controller or port, or interleaved (R425) -/
  home : Option (Option Nat)
  /-- packed output positions reached so far, in elements, of out0 and out1 (R423) -/
  pos0 : Nat
  pos1 : Nat
  nsat : Nat
  beatsDone : Nat
  status : BitVec 4
  cancel : Bool
  paused : Bool
  /-- place in the order in which the core's words issue (R310) -/
  order : Nat
  /-- what it touches beside its interlock entries: the secondary and index ranges, out1's, and its completion word -/
  touched : List Range := []
  /-- the fault record that the store of its completion word waits on (R427, R428, R440) -/
  doneOn : Option (BitVec 16) := none
  /-- the 128-byte blocks of layer space that have crossed the layer bus for it: true for its destination's (R276) -/
  crossed : List (Bool × Nat) := []
deriving DecidableEq, Repr

/-- A waiting SCFG request (R420). -/
structure ScfgReq where
  slot : Nat
  image : List Word
  hart : BitVec 1
  dest : BitVec 6
deriving DecidableEq, Repr

/-- Stream units and graph slots (chapter 18). -/
structure Streams where
  slots : Map (Option StreamSlot)
  nextSeq : BitVec 29
  graphs : Map (Option (List Word))
  reqs : List ScfgReq
  /-- the base-die TLBs of the fabrics, by controller or far port: the entries that this core's streams have filled
  (R398, R426) -/
  tlbs : Map (List TlbEntry) := []
deriving DecidableEq, Repr

/-- What a packet carries (R357 to R362). -/
inductive Payload where
  | nsend (vn : BitVec 1) (handler : BitVec 32) (bytes : List Byte)
  | nput (xform : BitVec 4) (offset : Nat) (bytes : List Byte)
  | nint (hart : BitVec 1) (kind : BitVec 2) (payload : Word)
deriving DecidableEq, Repr

/-- A packet in the network (R361, R362, R369). -/
structure Packet where
  /-- the send-queue entry it belongs to (0 for none), and the hart of that queue -/
  entry : Nat
  hart : BitVec 1
  /-- destination word of the instruction -/
  dest : Word
  sdev : BitVec 12
  score : BitVec 10
  body : Payload
deriving DecidableEq, Repr

/-- A full or taken receive slot (R366). -/
structure RxSlot where
  vn : BitVec 1
  idx : Nat
  taken : Bool
  handler : BitVec 32
  core : BitVec 10
  order : Nat
deriving DecidableEq, Repr

/-- A fault reply on its way to this core (R408): its word, the core that sent it (COREID; 1024 + q is the host by way of
quadrant q), and of one of this core the number of the send-queue entry it comes before. -/
structure ReplyMsg where
  src : Nat
  before : Nat
  word : Word
deriving DecidableEq, Repr

/-- The network interface (chapter 16). -/
structure Network where
  /-- occupied send-queue entries: number, hart, VN, packets not yet delivered (R359) -/
  entries : List (Nat × BitVec 1 × BitVec 2 × Nat)
  nextEntry : Nat
  /-- packets of this core on their way, oldest first -/
  flight : List Packet
  /-- packets for this core that wait in the network (R365, R371) -/
  waiting : List Packet
  rx : List RxSlot
  nextOrder : Nat
  /-- arrival numbers of VN0 and VN1 (Table 16-5) -/
  arrivals : Store 32
  /-- spill area address and CID while packets are diverted (R371), and of the area being redelivered (R372) -/
  spill : Option (Word × BitVec 16)
  /-- fault replies on their way to this core (R408) -/
  replies : List ReplyMsg
  redeliver : Option (Word × BitVec 16)
  /-- the fault record that a spill write, with its packet, or a redelivery waits on (R371) -/
  held : Option (BitVec 16 × Option Packet)
  /-- the spill area of each context that has had one on this core, with its reply list (R370, R408) -/
  areas : List (BitVec 16 × Word) := []
deriving DecidableEq, Repr

/-- An operand of a node (Table 16-8). -/
structure Operand where
  base : Nat
  len : Nat
  mode : BitVec 2
deriving DecidableEq, Repr

/-- The stage of a node (R97). -/
inductive NodeStage where
  | live
  | taken (hart : BitVec 1)
deriving DecidableEq, Repr

/-- A node of the task pool (R374 to R378). -/
structure Node where
  record : Word
  cid : BitVec 16
  core : BitVec 10
  preds : Nat
  prio : BitVec 2
  cls : BitVec 16
  ops : List Operand
  stage : NodeStage
  /-- order in which its count reached 0 (R377), and tick at which it first became ready (R378) -/
  zeroAt : Option Nat
  readyAt : Option Nat
  /-- current level and the tick at which it entered it (R378) -/
  level : BitVec 2
  enteredAt : Nat
  /-- its unplaceable event has been sent (R100) -/
  unplaceable : Bool
deriving DecidableEq, Repr

/-- A node's scheduling fields as a template holds them (R384). -/
structure Template where
  record : Word
  preds : Nat
  prio : BitVec 2
  cls : BitVec 16
  ops : List Operand
  /-- CID of the context that armed the slot, once a trigger spawns from it -/
  cid : BitVec 16
deriving DecidableEq, Repr

/-- A trigger slot (Table 16-9). -/
structure Trigger where
  armed : Option (Nat × BitVec 16 × BitVec 10)
  bound : Option Template
  pending : Bool
  /-- spawns that wait for a node slot (R385) -/
  delayed : List Template
  /-- a trigger came while nothing was bound, and PENDING stands for it too (R385; log entry 86) -/
  owed : Bool := false
deriving DecidableEq, Repr

/-- A trigger slot at reset. -/
def Trigger.new : Trigger := { armed := none, bound := none, pending := false, delayed := [], owed := false }

/-- The task pool of the quadrant (chapter 16). -/
structure Pool where
  nodes : Map (Option Node)
  edges : List (Nat × Nat)
  /-- harts whose TKGET waits, in order of arrival (R379) -/
  waiters : List (BitVec 1)
  triggers : Map Trigger
  /-- triggers on their way to the pool: slot and word address (R383) -/
  fired : List (Nat × Nat)
  nextOrder : Nat
deriving DecidableEq, Repr

/-! ### Counters, management, host -/

/-- Counters of the device (chapter 20). -/
structure Counters where
  cycle : Word
  /-- heat entries, keyed controller*8192 + index (R454); generators, 0 for the reset seed (R455); SAMPLED (R457) -/
  heat : Store 8
  lfsr : Store 16
  sampled : Store 64
  heatk : BitVec 4
  /-- error counters, keyed quadrant*8 + counter (Table 20-5) -/
  errors : Store 64
  /-- ticks of the errors counted within the window of R449, by kind of part and number -/
  window : List (Nat × Nat × Nat)
deriving DecidableEq, Repr

/-- The management controller (chapters 04, 19, 25). -/
structure Management where
  fmode : BitVec 6
  degrade : Word
  /-- retirement map: (DEGRADE bit, part) (R449), and parts out of service until reset (R476) -/
  map : List (Nat × Nat)
  dead : List (Nat × Nat)
  svcStatus : BitVec 1
  plim : Word
  fmaxr : Word
  power : Word
  devnum : BitVec 12
  peermap : Store 32
  route : Store 16
  evlog : List Word
  loadAddr : Word
  /-- bytes written through LOADWIN -/
  loaded : Nat
  started : Bool
  recovery : Bool
  nonce : Store 8
  report : Store 8
  reportLen : Nat
  /-- resident measurement, 64 bytes; empty stands for the zeros before step 8 (R481, R482) -/
  resident : List Byte
  /-- XRATIO of the core islands, keyed 4*quadrant + island; 0 is 70 (R141, R483) -/
  islands : Store 7
  /-- islands in the order lowered, latest first, and the count of comparisons below 0.95 PLIM (R484) -/
  lowered : List Nat
  below : Nat
  /-- clusters whose layer space has been relocated, and clusters whose stall still runs (R284) -/
  relocated : List Nat
  relocating : List Nat
  /-- islands whose layer buses stall after a write of XRATIO (R20, R277) -/
  stalled : List Nat
  /-- channels and far ports, as (DEGRADE bit, part), that are marked and still serve while firmware moves their pages
  (R286) -/
  emptying : List (Nat × Nat) := []
deriving DecidableEq, Repr

/-- A slot of a host fault buffer (R411, R475). -/
structure HostRec where
  quadrant : Nat
  slot : Nat
  rec_ : FaultRec
  core : BitVec 10
deriving DecidableEq, Repr

/-- What faces the host (chapters 16 and 25). -/
structure HostSide where
  /-- mailbox bytes, keyed quadrant*65536 + offset (R387) -/
  mailbox : Memory
  /-- arrival lists: (quadrant, slot) in order of arrival (R388) -/
  arrivals : List (Nat × Nat)
  /-- vectors that are not masked: 1 where the vector is unmasked (R474; PRESUMED, log entry 12: all masked at reset) -/
  msixOpen : Store 1
  msixPending : Store 1
  msixSent : List Nat
  faultBuf : List HostRec
  hrecord : List Word
  vlogRecord : List Word
  /-- host bus bytes written through the host aperture (R470) -/
  hostMem : Memory
deriving DecidableEq, Repr

/-- The machine. -/
structure State where
  h0 : Hart
  h1 : Hart
  core : CoreState
  tile : TileUnit
  cache : List Line
  mmu : Mmu
  home : Home
  dir : Directory
  copy : CopyEngine
  stream : Streams
  net : Network
  pool : Pool
  ctr : Counters
  mgmt : Management
  host : HostSide
  /-- MODEL: who executes the present word -/
  cur : Agent
  /-- MODEL: the hart that issues next when both are ready (R93) -/
  turn : BitVec 1
  /-- MODEL: whether the engines' steps come before the harts' at the next step -/
  bg : Bool
  /-- MODEL: where the search for the engines' next step begins, so that each gets its turn -/
  scan : Nat
  /-- MODEL: the machine's steps to come, as another agent or a schedule has them: a step of the device, or `none` for a
  hart's next boundary.  Behind its end the model chooses. -/
  agenda : List (Option Instr)
  /-- MODEL: ticks that pass at the steps to come; 1 each when the list has ended -/
  dt : List Nat
  /-- MODEL: how many free values have been drawn -/
  free : Nat
deriving DecidableEq, Repr

/-- The hart CSRs at device reset (Table 06-2); hart 0 holds array ownership (R94). -/
def HartCsr.reset (h : BitVec 1) : HartCsr :=
  { status := if h = 0 then 0x80 else 0, cause := 0, epc := 0, faddr := 0, finfo := 0, fstride := 0, fremain := 0,
    tvec := 0, scratch := 0, pfx := 0, ie := 0, flags := 0, rmode := 0, cpyt := 0, waitto := 0,
    tickcmp := 0xFFFFFFFFFFFFFFFF, psel := [], pcnt := [] }

/-- A hart at device reset (R112, R481): held until step 8 of bring-up starts it. -/
def Hart.reset (h : BitVec 1) : Hart :=
  { g := [], pc := 0, run := .held, pending := 0, late := [], fmt := none, jumped := false,
    csr := HartCsr.reset h, meshQ := [], parityEv := none, busEv := none, streamEv := [], dirEv := none,
    mgmtEv := [], faultRecord := [0, 0, 0, 0], dirRecord := [0, 0], vlogRecord := [0, 0, 0, 0], sync := [],
    waits := none, stores := [], stalled := none }

/-- Core CSRs and array state at device reset (Table 06-2; R42, R160, R170, R228). -/
def CoreState.reset : CoreState :=
  { shape := 0, boolt := 0, akey := 0, akmask := 0, scaleg := 0, bandsc := 0, wayrole := 0, tshape := 0,
    tgrant := 0, mtsel := 0xFFFFFFFF, mtstat := 0, cid := 0, ptbase := 0, prefcap := 16, coreId := 0,
    psel := [], pcnt := [], sram := [], gens := [], marked := 0, out := 0, queue := [], mqueue := [], nextSeq := 0,
    blockMask := 0, block := [], mts := [], answers := [], firstFault := 0, preempted := false,
    lastGrant := false, resuming := none }

/-- The tile unit at device reset (R247). -/
def TileUnit.reset : TileUnit := { acc := [], owner := [], marked := 0, out := 0, gens := [], lastPos := 3 }

/-- Translation state at device reset (R398, R405). -/
def Mmu.reset : Mmu := { tlb := [], misses := [], walker := [], queue := [], nextSeq := 0, unsent := [], icache := [] }

/-- Memory and its units at device reset (Table 18-13, R441, R451). -/
def Home.reset : Home :=
  { mem := [], posted := [], vstr := [], frames := [], codecs := [], farUnits := [], vlog := [], overrun := [],
    monitors := [], llc := [] }

def Directory.reset : Directory :=
  { entries := [], events := [], nextNum := [], hostRecord := [0, 0] }

def Network.reset : Network :=
  { entries := [], nextEntry := 1, flight := [], waiting := [], rx := [], nextOrder := 0, arrivals := [],
    spill := none, replies := [], redeliver := none, held := none, areas := [] }

/-- Counters at device reset (R21, R454 to R460). -/
def Counters.reset : Counters :=
  { cycle := 0, heat := [], lfsr := [], sampled := [], heatk := 8, errors := [], window := [] }

/-- The management controller after bring-up step 6 (Tables 06-2, 20-6, 25-4). -/
def Management.reset : Management :=
  { fmode := 0, degrade := 0, map := [], dead := [], svcStatus := 0, plim := 3000, fmaxr := 70, power := 0,
    devnum := 0, peermap := [], route := [], evlog := [], loadAddr := 0, loaded := 0, started := false,
    recovery := false, nonce := [], report := [], reportLen := 0, resident := [], islands := [], lowered := [],
    below := 0, relocated := [], relocating := [], stalled := [], emptying := [] }

def HostSide.reset : HostSide :=
  { mailbox := [], arrivals := [], msixOpen := [], msixPending := [], msixSent := [], faultBuf := [],
    hrecord := [0, 0, 0, 0, 0, 0, 0, 0], vlogRecord := [0, 0, 0, 0], hostMem := [] }

/-- The machine right after reset: bring-up steps 1 to 6 are done, the dies are released and CYCLE is 0 (R481). -/
def State.reset : State :=
  { h0 := Hart.reset 0, h1 := Hart.reset 1, core := CoreState.reset, tile := TileUnit.reset, cache := [],
    mmu := Mmu.reset, home := Home.reset, dir := Directory.reset, copy := { slots := [], nextSeq := 0 },
    stream := { slots := [], nextSeq := 0, graphs := [], reqs := [], tlbs := [] }, net := Network.reset,
    pool := { nodes := [], edges := [], waiters := [], triggers := [], fired := [], nextOrder := 0 },
    ctr := Counters.reset, mgmt := Management.reset, host := HostSide.reset,
    cur := .hart 0, turn := 0, bg := false, scan := 0, agenda := [], dt := [], free := 0 }

end Sys2Proof.Machine
end

