-- ==== Sys2Proof/Machine/Ops.lean ====
section
/-! DEFINITION. The named operations over the state: registers, CSR fields, issue and retirement, taking an exception
and returning from one (chapters 04, 05 and 06). -/

namespace Sys2Proof.Machine

/-- What a step answers. -/
abbrev Result := Host.Outcome State Fault Refusal

/-! ### Fields of words -/

/-- Field of `n` bits from bit `lo` of a word, as a number. -/
def wf (x : Word) (lo n : Nat) : Nat := bits x.toNat lo n

/-- A word with one field replaced. -/
def wset (x : Word) (lo n v : Nat) : Word := word (setBits x.toNat lo n v)

/-- A word read as signed (R121, `s(x)`). -/
def sgn (x : Word) : Int := x.toInt

/-- `sext(x, n)` of R26. -/
def sext (x n : Nat) : Int :=
  let y := x % 2 ^ n
  if 2 * y < 2 ^ n then (y : Int) else (y : Int) - (2 ^ n : Nat)

/-- Whether a virtual address is canonical: bits [63:47] all equal (R269). -/
def canonical (a : Word) : Bool :=
  let t := a.toNat / 2 ^ 47
  t == 0 || t == 2 ^ 17 - 1

/-! ### Harts -/

/-- The other hart of the core (R92). -/
def other (h : BitVec 1) : BitVec 1 := if h = 0 then 1 else 0

/-- Hart `h`. -/
def State.hart (s : State) (h : BitVec 1) : Hart := if h = 0 then s.h0 else s.h1

/-- The state with hart `h` replaced. -/
def State.setHart (s : State) (h : BitVec 1) (x : Hart) : State :=
  if h = 0 then { s with h0 := x } else { s with h1 := x }

/-- The state with hart `h` changed by `f`. -/
def State.modHart (s : State) (h : BitVec 1) (f : Hart → Hart) : State := s.setHart h (f (s.hart h))

/-- The state with the CSRs of hart `h` changed by `f`. -/
def State.modCsr (s : State) (h : BitVec 1) (f : HartCsr → HartCsr) : State :=
  s.modHart h (fun x => { x with csr := f x.csr })

/-- The hart that executes the present word (hart 0 while a micro-thread does). -/
def State.curHart (s : State) : BitVec 1 :=
  match s.cur with
  | .hart h => h
  | .mt _ => 0

/-- A g register; g0 reads as zero (R61, R112). -/
def Hart.reg (x : Hart) (r : Nat) : Word := if r = 0 then 0 else Store.get x.g r

/-- A hart with a g register written; a write of g0 is discarded (R61). -/
def Hart.setReg (x : Hart) (r : Nat) (v : Word) : Hart :=
  if r = 0 then x else { x with g := Store.set x.g r v }

/-- Whether a register has its pending bit set (R115). -/
def Hart.isPending (x : Hart) (r : Nat) : Bool := r != 0 && bit x.pending.toNat r

/-- Fields of STATUS (Table 06-3). -/
def Hart.pl (x : Hart) : Nat := wf x.csr.status 0 2
def Hart.ppl (x : Hart) : Nat := wf x.csr.status 2 2
def Hart.ieOn (x : Hart) : Bool := bit x.csr.status.toNat 4
def Hart.pie (x : Hart) : Bool := bit x.csr.status.toNat 5
def Hart.pp (x : Hart) : Bool := bit x.csr.status.toNat 6
def Hart.ao (x : Hart) : Bool := bit x.csr.status.toNat 7
def Hart.mb (x : Hart) : Bool := bit x.csr.status.toNat 8
def Hart.parkedPeer (x : Hart) : Bool := bit x.csr.status.toNat 9

/-- A number from a bit. -/
def b2n (b : Bool) : Nat := if b then 1 else 0

/-- The state with one field of a hart's STATUS replaced. -/
def State.setStatus (s : State) (h : BitVec 1) (lo n v : Nat) : State :=
  s.modCsr h (fun c => { c with status := wset c.status lo n v })

/-- Whether the hart is parked or halted (R94, R102, R142, R143). -/
def Hart.stopped (x : Hart) : Bool :=
  match x.run with
  | .parked _ => true
  | .halted => true
  | _ => false

/-- Whether the hart is parked. -/
def Hart.isParked (x : Hart) : Bool :=
  match x.run with
  | .parked _ => true
  | _ => false

/-- Whether the hart sleeps in an instruction of R93. -/
def Hart.isAsleep (x : Hart) : Bool :=
  match x.run with
  | .asleep _ => true
  | _ => false

/-- The control hart: the one whose STATUS.AO is 1 (R94). -/
def State.control (s : State) : BitVec 1 := if s.h1.ao then 1 else 0

/-- Whether the core is a host-port core (R10). -/
def State.hostPort (s : State) : Bool := bit s.core.coreId.toNat 9

/-- The core's quadrant (R9, R10). -/
def State.quadrant (s : State) : Nat := bits s.core.coreId.toNat 7 2

/-- The core's vent (R9). -/
def State.vent (s : State) : Nat := bits s.core.coreId.toNat 1 6

/-- The core's cluster position (R247). -/
def State.position (s : State) : Nat := bits s.core.coreId.toNat 0 2

/-- The core's island within its quadrant (R22). -/
def State.island (s : State) : Nat := s.vent / 16

/-- The core's island in the device, 4 × quadrant + i (R22). -/
def State.ownIsland (s : State) : Nat := 4 * s.quadrant + s.island

/-- The core's cluster in the device, 32 × quadrant + k (R9, R247). -/
def State.ownCluster (s : State) : Nat := 32 * s.quadrant + s.vent / 2

/-- Whether the core's layer space lies in its slot of the spill region (R284). -/
def State.relocated (s : State) : Bool := !s.hostPort && s.mgmt.relocated.contains s.ownCluster

/-- Whether the core's layer space is being relocated: every access to it stalls (R284). -/
def State.relocating (s : State) : Bool := !s.hostPort && s.mgmt.relocating.contains s.ownCluster

/-- Whether what crosses the layer bus stalls (Table 12-2): after a write of XRATIO, while there is a bus (R20, R277), or
while layer space is relocated (R284). -/
def State.layerHeld (s : State) : Bool :=
  (!s.hostPort && s.mgmt.stalled.contains s.ownIsland && !s.relocated) || s.relocating

/-- Whether what crosses to way `w` stalls: the upper ways lie behind the layer bus (Table 12-2). -/
def State.wayHeld (s : State) (w : Nat) : Bool := decide (16 ≤ w) && s.layerHeld

/-! ### Lists -/

/-- An element placed in a sorted list, before those that it is not after. -/
def insertBy {α : Type} (le : α → α → Bool) (x : α) : List α → List α
  | [] => [x]
  | y :: ys => if le x y then x :: y :: ys else y :: insertBy le x ys

/-- A list sorted by `le`; elements that are equal under it keep their order. -/
def sortBy {α : Type} (le : α → α → Bool) : List α → List α
  | [] => []
  | x :: xs => insertBy le x (sortBy le xs)

/-! ### Performance counters (R458, R459) -/

/-- The counts of one class with event `ev` added `n` times: `psel` and `pcnt` are keyed from `k`. -/
def countIn (psel pcnt : Store 64) (ev n : Nat) : Nat → Nat → Store 64
  | _, 0 => pcnt
  | k, m + 1 =>
    let c := countIn psel pcnt ev n (k + 1) m
    let sel := (Store.get psel k).toNat
    if bit sel 8 && bits sel 0 8 == ev then Store.set c k (Store.get c k + word n) else c

/-- An event of the whole core, seen by counters 4 to 7. -/
def State.countCore (s : State) (ev n : Nat) : State :=
  { s with core := { s.core with pcnt := countIn s.core.psel s.core.pcnt ev n 4 4 } }

/-- An event of hart `h`, seen by its counters 0 to 3 and by the core's counters. -/
def State.count (s : State) (h : BitVec 1) (ev n : Nat) : State :=
  (s.modCsr h (fun c => { c with pcnt := countIn c.psel c.pcnt ev n 0 4 })).countCore ev n

/-! ### Issue and retirement -/

/-- The hart retires the present instruction and goes on at `pc` (Table 20-4, code 0x02). -/
def State.retireAt (s : State) (h : BitVec 1) (pc : Word) (jumped : Bool) : State :=
  (s.modHart h (fun x => { x with
    pc := pc, fmt := none, jumped := jumped, run := .running, waits := none, stalled := none })).count h 0x02 1

/-- The hart retires the present instruction and goes on at the next word. -/
def State.retire (s : State) (h : BitVec 1) : State := s.retireAt h ((s.hart h).pc + 4) false

/-- The hart stays at the present instruction: the clocks until its next attempt count as event `ev` (R115, R448, Table
20-4). -/
def State.stall (s : State) (h : BitVec 1) (ev : Nat) : State := s.modHart h (fun x => { x with stalled := some ev })

/-- The hart waits at the present instruction, not counted as a stall. -/
def State.wait (s : State) : Result := .next s

/-- The hart sleeps at the present instruction (R93). -/
def State.sleepIn (s : State) (h : BitVec 1) (why : Sleep) : State :=
  s.modHart h (fun x => { x with run := .asleep why })

/-- A result written at once: latency 1 of Table 05-3. -/
def State.writeReg (s : State) (h : BitVec 1) (r : Nat) (v : Word) : State :=
  s.modHart h (fun x => x.setReg r v)

/-- Sets the pending bit of a destination (R115). -/
def State.setPending (s : State) (h : BitVec 1) (r : Nat) : State :=
  if r = 0 then s
  else s.modHart h (fun x => { x with pending := BitVec.ofNat 64 (setBits x.pending.toNat r 1 1) })

/-- A result that arrives later (Table 05-2): the pending bit is set, and SCALAR_RESULT_ARRIVAL writes the value and
merges the flags (R115, R135).  With destination g0 nothing is written (R61), and what is on its way is there for its
flags, as an OPF word's, and for the divider that it holds (R120, R135). -/
def State.lateReg (s : State) (h : BitVec 1) (r : Nat) (v : Word) (fl : BitVec 6) (opf : Bool := false)
    (divider : Bool := false) : State :=
  (s.setPending h r).modHart h
    (fun x => if r = 0 ∧ fl = 0 ∧ opf = false ∧ divider = false then x
      else { x with late := x.late ++ [
        { reg := BitVec.ofNat 6 r, val := v, flags := fl, opf := opf, divider := divider }] })

/-- Whether the core's divider is busy: a divide of either hart has not completed (R120). -/
def State.dividerBusy (s : State) : Bool := s.h0.late.any (·.divider) || s.h1.late.any (·.divider)

/-- Since when the present word of a hart waits for the divider (R120). -/
def Hart.dividerSince (x : Hart) : Option Nat :=
  match x.run, x.waits with
  | .running, some (.divider t) => some t
  | _, _ => none

/-- Whether a divide of hart `h` may take a free divider: the other hart's has not stalled before it, nor in the same
clock with the other hart being hart 0 (R120). -/
def State.dividerTurn (s : State) (h : BitVec 1) : Bool :=
  match (s.hart (other h)).dividerSince with
  | none => true
  | some t =>
    let own := ((s.hart h).dividerSince).getD s.ctr.cycle.toNat
    decide (own < t) || (own == t && h == 0)

/-- A divide of hart `h` issues, or stalls until the divider is free and it is the hart's turn (R120). -/
def State.takeDivider (s : State) (h : BitVec 1) (k : Result) : Result :=
  if s.dividerBusy || !s.dividerTurn h then
    .next (s.modHart h (fun x => { x with waits := some (.divider (x.dividerSince.getD s.ctr.cycle.toNat)) }))
  else k

/-- Clears the pending bit of a register and writes its value (R115). -/
def State.arrive (s : State) (h : BitVec 1) (r : Nat) (v : Word) : State :=
  s.modHart h (fun x => { x.setReg r v with pending := BitVec.ofNat 64 (setBits x.pending.toNat r 1 0) })

/-- Merges raised flags into a hart's FLAGS; completion only sets bits (R48). -/
def State.mergeFlags (s : State) (h : BitVec 1) (fl : BitVec 6) : State :=
  s.modCsr h (fun c => { c with flags := c.flags ||| fl.zeroExtend 64 })

/-- Draws a fresh number for a free value. -/
def State.draw (s : State) : Nat × State := (s.free, { s with free := s.free + 1 })

/-- Whether the cluster has lost one of its two buses, so that four cores share the other (R283). -/
def State.sharedBus (s : State) : Bool :=
  s.mgmt.dead.contains (5, 2 * s.ownCluster) || s.mgmt.dead.contains (5, 2 * s.ownCluster + 1)

/-- A beat of the layer bus for this core (R278, R283).  Which other cores request it is free; each beat that another one
gets first is a conflict of this core (Table 20-4, code 0x05). -/
def State.beat (s : State) : State :=
  let (n, s1) := s.draw
  let others := Config.otherBeats n % (if s.sharedBus then 4 else 2)
  if others = 0 then s1
  else if s.sharedBus then s1.countCore 0x05 others
  else if s.core.lastGrant then
    let (m, s2) := (s1.countCore 0x05 1).draw
    { s2 with core := { s2.core with lastGrant := Config.otherBeats m % 2 != 0 } }
  else { s1 with core := { s1.core with lastGrant := true } }

/-- `n` beats; none on a bus that has given way to the spill region (R284). -/
def State.beats (s : State) (n : Nat) : State :=
  if s.relocated then s else (List.range n).foldl (fun s _ => s.beat) s

/-- Whether a hart may issue an instruction that reads `rs` and writes `ds`: no such register is pending (R115). -/
def Hart.ready (x : Hart) (rs : List Nat) : Bool := rs.all (fun r => !x.isPending r)

/-! ### Waiting behind a role change (R162) -/

/-- The place in the order of issue of a role change that a hart waits with. -/
def Hart.roleSeq (x : Hart) : Option Nat :=
  match x.run, x.waits with
  | .running, some (.role n) => some n
  | _, _ => none

/-- Whether work accepted at a place in the order of issue comes behind a role change that waits (R162, step 2). -/
def State.behindRole (s : State) (order : Nat) : Bool :=
  [s.h0, s.h1].any (fun x => x.roleSeq.any (fun n => decide (n ≤ order)))

/-! ### Taking an exception (R80, R101, R102, R139 to R144) -/

/-- Writes the fault CSRs (R140). -/
def State.faultCsrs (s : State) (h : BitVec 1) (faddr finfo fstride fremain : Word) : State :=
  s.modCsr h (fun c => { c with faddr := faddr, finfo := finfo, fstride := fstride, fremain := fremain })

/-- FINFO as Table 06-5 lays it out. -/
def finfo (src : Nat) (wr : Bool) (esize kind fidx : Nat) : Word :=
  word (src % 65536 * 2 ^ 32 + b2n wr * 2 ^ 28 + esize % 8 * 2 ^ 25 + kind % 32 * 2 ^ 20 + fidx % 2 ^ 18)

/-- The level a trap is entered at (R144): 1, but 0 for an ECALL from below level 2 and for every trap from level 0. -/
def trapLevel (cause pl : Nat) : Nat :=
  if cause = 0x12 ∧ pl = 2 then 1 else if cause = 0x12 ∨ pl = 0 then 0 else 1

/-- Saves the pending prefix with the trap (R80, R144): STATUS.PP and PFX when EPC is the target of an FMT. -/
def State.savePrefix (s : State) (h : BitVec 1) (p : Option (BitVec 26)) : State :=
  match p with
  | some b => s.modCsr h (fun c => { c with status := wset c.status 6 1 1, pfx := b.zeroExtend 64 })
  | none => s.modCsr h (fun c => { c with status := wset c.status 6 1 0 })

/-- The firmware entry as a fetch address: its bits [1:0] are clear (R59, R144). -/
def firmwarePc : Word := word (Config.firmwareEntry.toNat / 4 * 4)

/-- TAKING AN EXCEPTION (R144), in one step: EPC and CAUSE are written, the prefix is saved, PPL and PIE keep PL and
IE, IE is cleared, PL becomes the target level, and the PC goes to TVEC or to the firmware entry. -/
def State.enterTrap (s : State) (h : BitVec 1) (cause detail : Nat) (epc : Word) (p : Option (BitVec 26)) : State :=
  let x := s.hart h
  let target := trapLevel cause x.pl
  let s := s.modCsr h (fun c => { c with epc := epc, cause := word (detail % 256 * 256 + cause % 256) })
  let s := s.savePrefix h p
  s.modHart h (fun y =>
    { y with
      csr := { y.csr with
        status := wset (wset (wset (wset y.csr.status 2 2 x.pl) 5 1 (b2n x.ieOn)) 4 1 0) 0 2 target }
      pc := if target = 1 then y.csr.tvec else firmwarePc
      run := .running, fmt := none, jumped := false, waits := none, stalled := none })

/-- A trap raised by the instruction at the hart's PC: EPC is that PC, and a pending FMT prefix is saved (R80). -/
def State.trapAt (s : State) (h : BitVec 1) (cause detail : Nat) : State :=
  let x := s.hart h
  s.enterTrap h cause detail x.pc (x.fmt.map (·.bits))

/-- The same, as the answer of a meaning. -/
def State.trap (s : State) (h : BitVec 1) (cause : Nat) : Result := .next (s.trapAt h cause 0)

/-- A trap with a detail byte. -/
def State.trapDetail (s : State) (h : BitVec 1) (cause detail : Nat) : Result := .next (s.trapAt h cause detail)

/-- A trap at the instruction that also writes the fault CSRs (R140). -/
def State.trapFault (s : State) (h : BitVec 1) (cause : Nat) (faddr finfo fstride fremain : Word) : Result :=
  .next ((s.faultCsrs h faddr finfo fstride fremain).trapAt h cause 0)

/-- Whether a cause is parkable (R101). -/
def parkable (cause : Nat) : Bool := cause == 0x04 || cause == 0x05 || cause == 0x06 || cause == 0x10

/-- Whether the other hart can serve a fault of `h` (R102); a hart not yet started cannot either. -/
def State.canServe (s : State) (h : BitVec 1) : Bool :=
  let y := s.hart (other h)
  !y.stopped && !y.parkedPeer && decide (y.run ≠ .held)

/-- Parks a hart on the fault recorded in its CSRs (R101): CAUSE and EPC are written and the prefix is saved, as a
trap would, but the hart's level, interrupt enable and PC stay. -/
def State.park (s : State) (h : BitVec 1) (cause : Nat) (record : Option (BitVec 16)) : State :=
  let x := s.hart h
  let s := s.modCsr h (fun c => { c with epc := x.pc, cause := word cause })
  let s := s.savePrefix h (x.fmt.map (·.bits))
  s.modHart h (fun y => { y with run := .parked record, fmt := none, jumped := false, waits := none, stalled := none })

/-- The record of a hart's fault that goes to the host fault buffer (R405, R411). -/
def hartRecord (h : BitVec 1) (cause : Nat) (faddr fstride fremain : Word) (wr : Bool) (elen : Nat)
    (seq : BitVec 16) (cid : Word) : FaultRec :=
  { w0 := faddr, w1 := fstride,
    w2 := word (fremain.toNat % 2 ^ 32 + elen % 65536 * 2 ^ 32 + seq.toNat * 2 ^ 48),
    w3 := word ((cause + (h.toNat + 16 * b2n wr) * 256 + cid.toNat % 65536 * 65536) * 2 ^ 32), taken := false }

/-- Sends an MSI-X message (R474): a masked vector becomes pending. -/
def State.msix (s : State) (v : Nat) : State :=
  if Store.get s.host.msixOpen v = 1 then { s with host := { s.host with msixSent := s.host.msixSent ++ [v] } }
  else { s with host := { s.host with msixPending := Store.set s.host.msixPending v 1 } }

/-- Host fault records held for the core's quadrant (R475). -/
def State.hostRecords (s : State) (q : Nat) : Nat := (s.host.faultBuf.filter (fun r => r.quadrant == q)).length

/-- Appends a record to the quadrant's host fault buffer, with its MSI-X message (R411). -/
def State.toHostBuffer (s : State) (r : FaultRec) : State :=
  let q := s.quadrant
  let empty := s.hostRecords q == 0
  let used (k : Nat) : Bool := s.host.faultBuf.any (fun e => e.quadrant == q && e.slot == k)
  let slot := ((List.range Config.faultRecords).find? (fun k => !used k)).getD 0
  let s := { s with host := { s.host with
    faultBuf := s.host.faultBuf ++ [{ quadrant := q, slot := slot, rec_ := r, core := s.core.coreId }] } }
  if empty then s.msix (80 * q + 64) else s

/-- A parked hart's record goes to the host fault buffer, or waits while that is full (R411). -/
def State.sendRecord (s : State) (r : FaultRec) : State :=
  if s.hostRecords s.quadrant < Config.faultRecords then s.toHostBuffer r
  else { s with mmu := { s.mmu with unsent := s.mmu.unsent ++ [r] } }

/-- A precise fault of a hart's instruction (R101, R102, R316, R411).  Parkable faults park the hart when the other
hart can serve, or always under host-assisted paging; every other fault is an ordinary trap.  DESIGN CHOICE (log entry
138): so does the page fault of a fetch at a non-canonical TVEC, where R141 speaks of a trap taken again and again.  `esize` is log2 of the
element or access size.  A bus error carries the core as its source (R140). -/
def State.hartFault (s : State) (h : BitVec 1) (cause : Nat) (faddr : Word) (kind : Nat) (wr : Bool)
    (esize fidx : Nat) (stride remain : Word) : Result :=
  let src := if cause = 0x11 then s.core.coreId.toNat else 0
  let s1 := s.faultCsrs h faddr (finfo src wr esize kind fidx) stride remain
  if !parkable cause then .next (s1.trapAt h cause 0)
  else if bit s.mgmt.fmode.toNat 0 then
    let r := hartRecord h cause faddr stride remain wr (2 ^ esize) s1.mmu.nextSeq s.core.cid
    let s2 := s1.park h cause (some s1.mmu.nextSeq)
    .next (({ s2 with mmu := { s2.mmu with nextSeq := s2.mmu.nextSeq + 1 } }.countCore 0x0A 1).sendRecord r)
  else if s.canServe h then .next ((s1.park h cause none).setStatus (other h) 9 1 1)
  else .next (s1.trapAt h cause 0)

/-- Whether hart `h` stands at the firmware entry after an ECALL from level 1 (R144, R152). -/
def State.firmwareCall (s : State) (h : BitVec 1) : Bool :=
  let x := s.hart h
  x.run == .running && x.pl == 0 && x.ppl == 1 && wf x.csr.cause 0 8 == 0x12 && x.pc == firmwarePc

/-- Whether the private micro-threads stop at their next block boundary: from a pre-empt message until the context goes on,
and while firmware saves or restores a context (Table 04-3, R109, R152). -/
def State.mtsHeld (s : State) : Bool :=
  s.core.preempted || s.core.resuming.isSome || s.firmwareCall 0 || s.firmwareCall 1

/-- RETURN FROM AN EXCEPTION (R146): PL and IE come back from PPL and PIE, PIE becomes 1 and PPL 2, the PC is EPC,
and a saved prefix is re-applied. -/
def State.returnTrap (s : State) (h : BitVec 1) : State :=
  s.modHart h (fun x =>
    let st := wset (wset (wset (wset x.csr.status 0 2 x.ppl) 4 1 (b2n x.pie)) 5 1 1) 2 2 2
    { x with
      csr := { x.csr with status := wset st 6 1 0 }
      pc := x.csr.epc
      fmt := if x.pp then some { bits := x.csr.pfx.truncate 26, reapplied := true } else none
      jumped := false, run := .running })

/-! ### Interrupts (R104, R142) -/

/-- The interrupts and asynchronous traps in the order in which a hart takes them (R142). -/
inductive Async where
  | peerFault | management | parity | busError | streamFault | dirOverflow | mtFault | mesh | faultQueue
  | cycleCompare | mailbox | mtSummary
deriving DecidableEq, Repr

/-- Interrupt number (IP bit) of an interrupt; none for an asynchronous trap. -/
def Async.ipBit : Async → Option Nat
  | .mesh => some 0
  | .cycleCompare => some 1
  | .mailbox => some 2
  | .faultQueue => some 3
  | .peerFault => some 4
  | .mtSummary => some 5
  | .management => some 6
  | _ => none

/-- The order of R142. -/
def Async.order : List Async :=
  [.peerFault, .management, .parity, .busError, .streamFault, .dirOverflow, .mtFault, .mesh, .faultQueue,
   .cycleCompare, .mailbox, .mtSummary]

/-- The way of micro-thread `k` in a role word: array-role ways in ascending order, lower first (R227). -/
def arrayWays (wayrole : Word) : List Nat := (List.range 32).filter (fun w => wf wayrole (2 * w) 2 == 2)

/-- Whether a source condition of IP holds (R142). -/
def State.ipHolds (s : State) (h : BitVec 1) : Nat → Bool
  | 0 => !(s.hart h).meshQ.isEmpty
  | 1 => decide ((s.hart h).csr.tickcmp.toNat ≤ s.ctr.cycle.toNat)
  | 2 => s.hostPort && s.host.arrivals.any (fun e => e.1 == s.quadrant)
  | 3 => h == 1 && s.mmu.queue.any (fun r => !r.taken)
  | 4 => (s.hart h).parkedPeer && (s.hart (other h)).isParked
  | 5 => (s.hart h).ao && (arrayWays s.core.wayrole).zipIdx.any (fun e =>
      bit s.core.mtstat.toNat (32 + e.2) && decide (2 ≤ (Map.get MicroThread.new s.core.mts e.1).state.toNat))
  | 6 => !(s.hart h).mgmtEv.isEmpty
  | _ => false

/-- IP, computed from the conditions (R142). -/
def State.ip (s : State) (h : BitVec 1) : Nat :=
  (List.range 7).foldl (fun a k => a + b2n (s.ipHolds h k) * 2 ^ k) 0

/-- Whether the event behind an interrupt or asynchronous trap is there (R142, R241). -/
def State.asyncPending (s : State) (h : BitVec 1) (a : Async) : Bool :=
  match a.ipBit with
  | some k => s.ipHolds h k && bit (s.hart h).csr.ie.toNat k
  | none =>
    match a with
    | .parity => (s.hart h).parityEv.isSome
    | .busError => (s.hart h).busEv.isSome
    | .streamFault => !(s.hart h).streamEv.isEmpty
    | .dirOverflow => (s.hart h).dirEv.isSome
    | .mtFault => (s.hart h).ao && bit s.core.mtstat.toNat 1
    | _ => false

/-- Whether hart `h` may take it at this boundary (R142, R232): STATUS.IE is 1, the hart runs or sleeps, and an
interrupt does not come inside an open broadcast block unless `inBlock`. -/
def State.asyncReady (s : State) (h : BitVec 1) (inBlock : Bool) (a : Async) : Bool :=
  let x := s.hart h
  x.ieOn && !x.stopped && decide (x.run ≠ .held) && s.asyncPending h a &&
    (!(x.mb && a.ipBit.isSome) || inBlock)

/-- The one the hart takes at this boundary (R142). -/
def State.asyncNext (s : State) (h : BitVec 1) (inBlock : Bool) : Option Async :=
  Async.order.find? (s.asyncReady h inBlock)

/-- Cancels the monitors of a hart (R104, R333). -/
def State.dropMonitors (s : State) (h : BitVec 1) : State :=
  { s with home := { s.home with monitors := s.home.monitors.filter (fun m => m.hart != h) } }

/-- Leaves a sleeping instruction (R104): a waiting TKGET leaves the pool, the monitors of a WAITA or WAITV are
cancelled, and WAITVs of a block leave the queue (log entry 131); a queued acquire stays. -/
def State.abandon (s : State) (h : BitVec 1) : State :=
  match (s.hart h).run with
  | .asleep (.tkget _) => { s with pool := { s.pool with waiters := s.pool.waiters.filter (· != h) } }
  | .asleep (.waita _ _ _ _ _) => s.dropMonitors h
  | .asleep (.waitv _ _ _ _) => s.dropMonitors h
  | .asleep (.waitb _ _) =>
    { s with core := { s.core with
        queue := s.core.queue.filter (fun q => !(q.hart == h && q.w.op == ArrOp.waitv)) } }.dropMonitors h
  | _ => s

/-- Takes an interrupt or asynchronous trap: EPC is the next instruction not yet issued, with its pending prefix, or
the sleeping instruction (R104, R144); the event's own record is written and the event removed (Table 06-4). -/
def State.takeAsync (s : State) (h : BitVec 1) (a : Async) : State :=
  let x := s.hart h
  let enter (s : State) (cause detail : Nat) : State :=
    (s.abandon h).enterTrap h cause detail x.pc (x.fmt.map (·.bits))
  match a with
  | .peerFault => enter s 0x24 0
  | .management =>
    let s := s.modHart h (fun y => { y with mgmtEv := y.mgmtEv.tail, csr := { y.csr with faddr := y.mgmtEv.headD 0 } })
    enter s 0x26 0
  | .parity =>
    match x.parityEv with
    | none => s
    | some e =>
      let s := s.modHart h (fun y => { y with
        parityEv := none
        csr := { y.csr with finfo := wset y.csr.finfo 0 5 e.finfo.toNat } })
      enter s 0x14 e.detail.toNat
  | .busError =>
    match x.busEv with
    | none => s
    | some e =>
      let s := s.modHart h (fun y => { y with
        busEv := none
        csr := { y.csr with faddr := e.faddr, finfo := e.finfo, fstride := e.stride, fremain := 1 } })
      enter s 0x11 e.detail.toNat
  | .streamFault =>
    match x.streamEv with
    | [] => s
    | (id, st) :: es =>
      let s := s.modHart h (fun y => { y with streamEv := es, csr := { y.csr with faddr := id } })
      enter s 0x15 st.toNat
  | .dirOverflow =>
    match x.dirEv with
    | none => s
    | some pa => enter (s.modHart h (fun y => { y with dirEv := none, csr := { y.csr with faddr := pa } })) 0x0F 0
  | .mtFault =>
    let s := { s with core := { s.core with mtstat := wset s.core.mtstat 1 1 0 } }
    let s := s.modCsr h (fun c => { c with finfo := wset c.finfo 0 5 s.core.firstFault.toNat })
    enter s 0x0E 0
  | .mesh =>
    match x.meshQ with
    | [] => s
    | m :: ms =>
      let s := s.modHart h (fun y => { y with
        meshQ := ms
        csr := { y.csr with faddr := m.payload, finfo := wset y.csr.finfo 32 16 m.src.toNat } })
      enter s 0x20 m.kind.toNat
  | .faultQueue => enter s 0x23 0
  | .cycleCompare => enter s 0x21 0
  | .mailbox => enter s 0x22 0
  | .mtSummary => enter s 0x25 0

/-- The event rows of R142: hart `h` takes `a` when it is the one to be taken at this boundary. -/
def State.asyncEvent (s : State) (h : BitVec 1) (a : Async) : Result :=
  if s.asyncNext h false = some a then .next (s.takeAsync h a) else .next s

/-- Records a bus error for the hart's next boundary (R317), with the core as the source that the fabric reports (R140):
a further one only sets detail bit 7, but for a lower element of the same array word, which is then the one reported. -/
def State.busError (s : State) (h : BitVec 1) (faddr finfo stride : Word) (arrayWord : Option Nat := none) : State :=
  let ev : AsyncEv :=
    { detail := 0, faddr := faddr, finfo := wset finfo 32 16 s.core.coreId.toNat, stride := stride, word := arrayWord }
  s.modHart h (fun x =>
    match x.busEv with
    | none => { x with busEv := some ev }
    | some e =>
      let lower := arrayWord.isSome && e.word == arrayWord && decide (wf finfo 0 18 < wf e.finfo 0 18)
      { x with busEv := some { (if lower then ev else e) with detail := e.detail ||| 0x80 } })

/-- Queues a management event 0x26 for a hart (R142, R462). -/
def State.mgmtEvent (s : State) (h : BitVec 1) (w : Word) : State :=
  s.modHart h (fun x => { x with mgmtEv := x.mgmtEv ++ [w] })

/-- The management controller records an event word in EVLOG and sends MSI-X message 320 (R474, R476). -/
def State.recordEvent (s : State) (w : Word) : State :=
  { s with mgmt := { s.mgmt with evlog := s.mgmt.evlog ++ [w] } }.msix 320

/-- Sends an event word as interrupt 0x26 to both harts of a quadrant's host-port core (R439, R462, R484). -/
def State.hostPortEvent (s : State) (q : Nat) (w : Word) : State :=
  if s.hostPort && s.quadrant == q then (s.mgmtEvent 0 w).mgmtEvent 1 w else s

/-- Whether this core is the start hart's core of its quadrant: core 0 of vent 0 (R91). -/
def State.isStartCore (s : State) : Bool := !s.hostPort && bits s.core.coreId.toNat 0 7 == 0

end Sys2Proof.Machine
end

