-- ==== Sys2Proof/Machine/Operands.lean ====
section
/-! DEFINITION. Operand forms: scalar registers of harts and of micro-threads, and the shapes of scalar words
(R60, R112 to R118, R236). -/

namespace Sys2Proof.Machine

/-! ### Micro-threads as the executing agent (R236) -/

/-- The micro-thread of a way (R228). -/
def State.mt (s : State) (w : Nat) : MicroThread := Map.get MicroThread.new s.core.mts w

/-- The state with the micro-thread of a way changed by `f`. -/
def State.modMt (s : State) (w : Nat) (f : MicroThread → MicroThread) : State :=
  { s with core := { s.core with mts := Map.set MicroThread.new s.core.mts w (f (s.mt w)) } }

/-- An m register. -/
def MicroThread.reg (x : MicroThread) (r : Nat) : BitVec 32 := Store.get x.m r

/-- The number of the micro-thread of a way: its place among the array-role ways (R227). -/
def State.mtNumber (s : State) (w : Nat) : Nat := (arrayWays s.core.wayrole).idxOf w

/-- The way of micro-thread `k`, when it exists (R227). -/
def State.mtWay (s : State) (k : Nat) : Option Nat := (arrayWays s.core.wayrole)[k]?

/-- Merges a micro-thread's unmerged flags into the FLAGS of the hart whose MSPLIT released it (R51). -/
def State.mtMerge (s : State) (w : Nat) : State :=
  ((s.mergeFlags (s.mt w).owner (s.mt w).flags).modMt w (fun x => { x with flags := 0 }))

/-- A private micro-thread meets a condition of Table 10-6 (R240): it enters the faulted state with its cause, its
flags are merged, and FPEND is set under FTE.  BPC and WIDX are set by the block that runs the word. -/
def State.mtFault (s : State) (w cause : Nat) : State :=
  let s := (s.mtMerge w).modMt w (fun x => { x with state := 3, fcause := BitVec.ofNat 4 cause })
  if bit s.core.mtstat.toNat 0 then
    let first := if bit s.core.mtstat.toNat 1 then s.core.firstFault else BitVec.ofNat 5 (s.mtNumber w)
    { s with core := { s.core with mtstat := wset s.core.mtstat 1 1 1, firstFault := first } }
  else s

/-- Adds raised flags to a micro-thread's unmerged flags (R51). -/
def State.mtRaise (s : State) (w : Nat) (fl : BitVec 6) : State :=
  s.modMt w (fun x => { x with flags := x.flags ||| fl })

/-- A scalar value read by the executing agent: a g register, or sext(m, 32) (R236). -/
def State.scalar (s : State) (r : BitVec 7) : Word :=
  match s.cur with
  | .hart h => (s.hart h).reg r.toNat
  | .mt w => ((s.mt w).reg r.toNat).signExtend 64

/-! ### Shapes of scalar words -/

/-- A word that reads `ga`, `gb` (and `gd`, which it waits for as a writer) and writes `gd` after one clock (R115,
R121).  In a block image the fields name m registers, and the 32-bit counterpart `f32` is computed (R236); `pred`
words also set PRED to their result. -/
def scalar3 (d a b : BitVec 7) (f : Word → Word → Word) (f32 : BitVec 32 → BitVec 32 → BitVec 32) (pred : Bool)
    (s : State) : Result :=
  match s.cur with
  | .hart h =>
    let x := s.hart h
    if x.ready [d.toNat, a.toNat, b.toNat] then
      .next ((s.writeReg h d.toNat (f (x.reg a.toNat) (x.reg b.toNat))).retire h)
    else .next (s.stall h 0x08)
  | .mt w =>
    if d.toNat < 8 ∧ a.toNat < 8 ∧ b.toNat < 8 then
      let v := f32 ((s.mt w).reg a.toNat) ((s.mt w).reg b.toNat)
      .next (s.modMt w (fun x =>
        { x with m := Store.set x.m d.toNat v, pred := if pred then v != 0 else x.pred }))
    else .next (s.mtFault w 1)

/-- A word that reads `ga` and an immediate and writes `gd` after one clock (R124), or its 32-bit counterpart. -/
def scalarI (d a : BitVec 7) (f : Word → Word) (f32 : BitVec 32 → BitVec 32) (pred : Bool) (s : State) : Result :=
  match s.cur with
  | .hart h =>
    let x := s.hart h
    if x.ready [d.toNat, a.toNat] then .next ((s.writeReg h d.toNat (f (x.reg a.toNat))).retire h)
    else .next (s.stall h 0x08)
  | .mt w =>
    if d.toNat < 8 ∧ a.toNat < 8 then
      let v := f32 ((s.mt w).reg a.toNat)
      .next (s.modMt w (fun x =>
        { x with m := Store.set x.m d.toNat v, pred := if pred then v != 0 else x.pred }))
    else .next (s.mtFault w 1)

/-- A word that only a hart may execute: in a block image it is an illegal word of cause 1 (R236). -/
def hartOnly (s : State) (k : BitVec 1 → Result) : Result :=
  match s.cur with
  | .hart h => k h
  | .mt w => .next (s.mtFault w 1)

/-- A hart's word that reads registers `rs` and writes registers `ds`: it does not issue while one of them is pending
(R115). -/
def issue (rs : List (BitVec 7)) (s : State) (k : BitVec 1 → Result) : Result :=
  hartOnly s (fun h => if (s.hart h).ready (rs.map (·.toNat)) then k h else .next (s.stall h 0x08))

/-- A hart's word that needs level `l` or lower (R136, R137): a higher level traps as privileged 0x02. -/
def needLevel (l : Nat) (s : State) (h : BitVec 1) (k : Result) : Result :=
  if (s.hart h).pl ≤ l then k else s.trap h 0x02

/-- A word of two operands whose result comes after the latency of Table 05-3 (R114, R115). -/
def scalarLate (d a b : BitVec 7) (f : Word → Word → Word) (s : State) : Result :=
  issue [d, a, b] s (fun h =>
    .next ((s.lateReg h d.toNat (f ((s.hart h).reg a.toNat) ((s.hart h).reg b.toNat)) 0).retire h))

/-- A word of two operands that the divider computes (R120, R123). -/
def scalarDivide (d a b : BitVec 7) (f : Word → Word → Word) (s : State) : Result :=
  issue [d, a, b] s (fun h => s.takeDivider h
    (.next ((s.lateReg h d.toNat (f ((s.hart h).reg a.toNat) ((s.hart h).reg b.toNat)) 0 false true).retire h)))

/-- A word of one operand and latency 1 that only harts have (Table 05-5). -/
def scalarUnary (d a : BitVec 7) (f : Word → Word) (s : State) : Result :=
  issue [d, a] s (fun h => .next ((s.writeReg h d.toNat (f ((s.hart h).reg a.toNat))).retire h))

end Sys2Proof.Machine
end

