-- ==== Sys2Proof/Machine/Memory.lean ====
section
/-! DEFINITION. Global memory at its homes, the core cache, and the codec's stored forms (chapters 12, 13, 18).

A home address is a physical address, or, for a line of a page whose entry has CMP ≠ 0, its line name 2^48 +
FRAME × 4096 + o (R437); one number names both. -/

namespace Sys2Proof.Machine

/-! ### The physical map (R280 to R282) -/

/-- The regions of Table 12-3. -/
inductive Region where
  | hbm | spill | pinned | far | farPinned | mmio | none
deriving DecidableEq, Repr

/-- The region of a physical address (Table 12-3). -/
def regionOf (pa : Nat) : Region :=
  if pa < 0x5F80000000 then .hbm
  else if pa < 0x6000000000 then .spill
  else if pa < 0x8000000000 then .pinned
  else if pa < 0x10000000000 then .none
  else if pa < 0x90000000000 then .far
  else if pa < 0x110000000000 then .farPinned
  else if pa < 0xF00000000000 then .none
  else if pa < 0x1000000000000 then .mmio
  else .none

/-- The number of the unit that serves an address: controllers 0 to 127 (R281), far ports 128 to 131 (R282). -/
def unitOf (pa : Nat) : Nat :=
  match regionOf pa with
  | .hbm | .spill => (bits pa 12 7 ^^^ bits pa 19 7) ^^^ bits pa 26 7
  | .pinned => (pa - 0x6000000000) / 2 ^ 30
  | .far => 128 + (bits pa 12 2 ^^^ bits pa 20 2)
  | .farPinned => 128 + (pa - 0x90000000000) / 2 ^ 41
  | _ => 0

/-- The quadrant of a controller or far port (R7, R13). -/
def unitQuadrant (u : Nat) : Nat := if u < 128 then u / 32 else u - 128

/-- The codec that serves a unit: base die of a controller, or far port 8 to 11 (R13, R434). -/
def unitCodec (u : Nat) : Nat := if u < 128 then u / 16 else u - 120

/-- The frame number and page offset behind a home address (R437). -/
def frameOf (name : Nat) : Nat × Nat :=
  if 2 ^ 48 ≤ name then ((name - 2 ^ 48) / 4096, name % 4096) else (name / 4096 * 4, name % 4096)

/-- The physical address whose unit serves a home address: the frame's header for a compressed form (R437). -/
def servedAt (name : Nat) : Nat := if 2 ^ 48 ≤ name then (frameOf name).1 * 1024 else name

/-- The slice that homes an address (R279), before rehoming: quadrant*64 + vent. -/
def sliceOf (name : Nat) : Nat :=
  (((bits name 8 8 ^^^ bits name 16 8) ^^^ bits name 24 8) ^^^ bits name 32 8) ^^^ bits name 40 8

/-- The live slice of the same quadrant with the next higher vent number, wrapping (R449), from slice `i`. -/
def nextLive (dead : List (Nat × Nat)) : Nat → Nat → Nat
  | 0, i => i
  | n + 1, i => if dead.contains (7, i) then nextLive dead n (i / 64 * 64 + (i + 1) % 64) else i

/-- The slice that homes an address after the rehoming map (R285, R449). -/
def State.slice (s : State) (name : Nat) : Nat := nextLive s.mgmt.dead 64 (sliceOf name)

/-! ### Decoding an MMIO address (Tables 25-1 and 25-2) -/

/-- The ranges of MMIO; offsets are within the window. -/
inductive Window where
  | mailbox (q o : Nat)
  | vlog (q o : Nat)
  | errors (q o : Nat)
  | fault (q c o : Nat)
  | directory (slice o : Nat)
  | heat (u o : Nat)
  | management (o : Nat)
  | hostAperture (o : Nat)
  | peer (slot o : Nat)
  /-- inside a quadrant block, in no window -/
  | hole (q : Nat)
  /-- covered by no range of Table 25-1 -/
  | none
deriving DecidableEq, Repr

/-- The window of an MMIO address. -/
def windowOf (pa : Nat) : Window :=
  let o := pa - 0xF00000000000
  let q := o / 2 ^ 32
  let b := o % 2 ^ 32
  if 0xF80000000000 ≤ pa then .peer ((pa - 0xF80000000000) / 2 ^ 39) (pa % 2 ^ 39)
  else if 0xF40000000000 ≤ pa then .hostAperture (pa - 0xF40000000000)
  else if 0xF01000000000 ≤ pa ∧ pa < 0xF01001000000 then .management (pa - 0xF01000000000)
  else if q < 4 ∧ b < 0x800000 then
    if b < 0x11000 then .mailbox q b
    else if 0x20000 ≤ b ∧ b < 0x20040 then .vlog q (b - 0x20000)
    else if 0x21000 ≤ b ∧ b < 0x21048 then .errors q (b - 0x21000)
    else if 0x100000 ≤ b ∧ b < 0x102040 then .fault q ((b - 0x100000) / 64) (b % 64)
    else if 0x200000 ≤ b ∧ b < 0x200800 then .directory (64 * q + (b - 0x200000) / 32) (b % 32)
    else if 0x400000 ≤ b ∧ b < 0x484000 then
      let m := (b - 0x400000) / 0x4000
      .heat (if m = 32 then 128 + q else 32 * q + m) (b % 0x4000)
    else .hole q
  else .none

/-- Where and why a forbidden access is logged (R451). -/
def Window.blame (w : Window) (own : Nat) : Nat × Nat :=
  match w with
  | .mailbox q _ | .vlog q _ | .errors q _ | .fault q _ _ | .hole q => (q, 1)
  | .directory sl _ => (sl / 64, 1)
  | .heat u _ => (unitQuadrant u, 1)
  | .none => (own, 0)
  | _ => (own, 1)

/-! ### Violations (R280, R317, R451) -/

/-- Appends an entry to a quadrant's violation log; a full ring loses its oldest entry (R451). -/
def State.logViolation (s : State) (q src kind why : Nat) (pa : Word) (cid : Nat) : State :=
  let old := Map.get [] s.home.vlog q
  let e : LogEntry := {
    w0 := pa, w1 := s.ctr.cycle,
    w2 := word (cid % 2 ^ 16 + src % 2 ^ 16 * 2 ^ 16 + kind % 256 * 2 ^ 32 + why % 256 * 2 ^ 40), w3 := 0 }
  let lost := (Store.get s.home.overrun q).toNat
  if old.length < 64 then { s with home := { s.home with vlog := Map.set [] s.home.vlog q (old ++ [e]) } }
  else
    { s with home := { s.home with
        vlog := Map.set [] s.home.vlog q (old.tail ++ [e])
        overrun := Store.set s.home.overrun q (BitVec.ofNat 32 (min (lost + 1) (2 ^ 32 - 1))) } }

/-- Why an access to a home address gets an error response, and in which quadrant it is logged (R280, R286, R451):
none when it does not.  MMIO has no memory behind it: what reaches it here, a walk or another agent, breaks the rule of its
window or aperture. -/
def State.homeError (s : State) (name : Nat) : Option (Nat × Nat) :=
  let pa := servedAt name
  let u := unitOf pa
  match regionOf pa with
  | .none => some (s.quadrant, 0)
  | .mmio => some ((windowOf pa).blame s.quadrant)
  | .hbm | .spill | .pinned => if s.mgmt.dead.contains (8, u) then some (unitQuadrant u, 2) else none
  | .far | .farPinned =>
    if s.mgmt.dead.contains (9, u - 128) then some (unitQuadrant u, 2)
    else if s.home.farUnits.contains (pa / 4096) then none
    else some (unitQuadrant u, 0)

/-- Whether a read of a home address meets poison: of far memory, what its slice does not hold comes from the pool's device
(R451, R478). -/
def State.poisonAt (s : State) (name : Nat) : Bool :=
  match regionOf (servedAt name) with
  | .far | .farPinned =>
    Config.poisoned s.ctr.cycle.toNat (servedAt name / 64) &&
      !s.home.llc.any (fun l => l.tag == name / 256 &&
        (bit l.filled.toNat (name / 64 % 4) || bit l.dirty.toNat (name % 256)))
  | _ => false

/-- Why a read of a home address gets an error response: as any access, or by poison. -/
def State.readError (s : State) (name : Nat) : Option (Nat × Nat) :=
  match s.homeError name with
  | some e => some e
  | none => if s.poisonAt name then some (unitQuadrant (unitOf (servedAt name)), 2) else none

/-- Logs the error response of an access by this core (R451); `kind` is the SOURCE code of Table 17-6, 5 the walker. -/
def State.logError (s : State) (kind name cid : Nat) (e : Nat × Nat) : State :=
  s.logViolation e.1 s.core.coreId.toNat kind e.2 (word (servedAt name)) cid

/-! ### Heat (R454, R455) -/

/-- One step of the generator of R455. -/
def lfsrStep (x : Nat) : Nat := if x % 2 = 1 then (x / 2) ^^^ 0xB400 else x / 2

/-- The entry of a heat table (R454). -/
def heatIndex (pa : Nat) : Nat :=
  let r := pa / 65536
  (bits r 0 13 ^^^ bits r 13 13) ^^^ bits r 26 6

/-- The generator of a unit: 0 stands for the seed of reset, unit + 1 (R455). -/
def State.lfsr (s : State) (u : Nat) : Nat :=
  let x := (Store.get s.ctr.lfsr u).toNat
  if x = 0 then u + 1 else x

/-- One access served by a unit: its generator steps and may sample (R455).  Answers whether it was sampled. -/
def State.heat (s : State) (name : Nat) : Bool × State :=
  let pa := servedAt name
  let u := unitOf pa
  let x := lfsrStep (s.lfsr u)
  let ctr := { s.ctr with lfsr := Store.set s.ctr.lfsr u (BitVec.ofNat 16 x) }
  if x % 2 ^ s.ctr.heatk.toNat = 0 then
    let k := u * 8192 + heatIndex pa
    let old := (Store.get ctr.heat k).toNat
    (true, { s with ctr := { ctr with
      heat := Store.set ctr.heat k (BitVec.ofNat 8 (min 255 (old + 1)))
      sampled := Store.set ctr.sampled u (Store.get ctr.sampled u + 1) } })
  else (false, { s with ctr := ctr })

/-! ### Stored forms (R434 to R440) -/

/-- The place of a home address in the store of bytes: a compressed frame's page lies under its line name, whatever
the entry that reached it says (R437). -/
def State.homeKey (s : State) (name : Nat) : Nat :=
  let (f, o) := frameOf name
  match Map.get none s.home.frames f with
  | some _ => 2 ^ 48 + f * 4096 + o
  | none => if 2 ^ 48 ≤ name then f * 1024 + o else name

/-- The codec of a unit. -/
def State.codec (s : State) (k : Nat) : Codec := Map.get Codec.new s.home.codecs k

/-- The state with a codec changed. -/
def State.setCodec (s : State) (k : Nat) (c : Codec) : State :=
  { s with home := { s.home with codecs := Map.set Codec.new s.home.codecs k c } }

/-- The oldest generation (R439). -/
def Codec.oldest (c : Codec) : Nat := (c.newest.toNat + 1) % 4

/-- The count of a generation. -/
def Codec.count (c : Codec) (g : Nat) : Nat := (Store.get c.counts g).toNat

/-- Whether generation exhaustion holds re-sampling: until the count of the oldest generation is 0 (R439). -/
def Codec.held (c : Codec) : Bool := c.exhausted && decide (0 < c.count c.oldest)

/-- Whether a halfword equals a valid entry of a table (R435). -/
def Codec.inTable (c : Codec) (g h : Nat) : Bool :=
  (List.range 15).any (fun i => (Store.get c.vft (15 * g + i)).toNat == 65536 + h)

/-- Bits that `n` halfwords from `a` take when coded (R435): 4, or 20 outside the table. -/
def codedBits (c : Codec) (g : Nat) (m : Memory) (a : Nat) : Nat → Nat
  | 0 => 0
  | n + 1 => (if c.inTable g (Memory.load m a 2) then 4 else 20) + codedBits c g m (a + 2) n

/-- The size code of a superblock at `a` under generation `g` (R435, R436): 0 zero, 1 to 3 coded sectors, 4 raw. -/
def sizeCode (c : Codec) (g : Nat) (m : Memory) (a : Nat) : Nat :=
  if (Map.slice m a 256).isEmpty then 0
  else
    let n := (codedBits c g m a 128 + 511) / 512
    if n ≤ 3 then n else 4

/-- Sectors that the superblocks of a frame take, with `size` of superblock `k` as given (R436). -/
def Frame.sectors (f : Frame) (k size : Nat) : Nat :=
  (List.range 16).foldl (fun a i => a + (if i = k then size else (Store.get f.size i).toNat)) 0

/-! ### Coded superblocks and frames in memory (R435, R436)

What a frame holds is kept uncoded under its line name (log entry 58); what lies in its sectors is computed from that, for
the accesses that reach those sectors as the raw bytes of another page. -/

/-- The code of a halfword and its bits (R435): the index of the lowest valid entry that equals it, else 0xF and its 16
bits. -/
def Codec.code (c : Codec) (g h : Nat) : Nat × Nat :=
  match (List.range 15).find? (fun i => (Store.get c.vft (15 * g + i)).toNat == 65536 + h) with
  | some i => (i, 4)
  | none => (15 + 16 * h, 20)

/-- `n` halfwords of a number coded, in their order, the first code at bit 0 (R435). -/
def Codec.encode (c : Codec) (g : Nat) : Nat → Nat → Nat
  | 0, _ => 0
  | n + 1, x =>
    let (v, w) := c.code g (x % 65536)
    v + 2 ^ w * c.encode g n (x / 65536)

/-- The `n` halfwords that a number of codes stands for. -/
def Codec.decode (c : Codec) (g : Nat) : Nat → Nat → Nat
  | 0, _ => 0
  | n + 1, x =>
    if x % 16 = 15 then x / 16 % 65536 + 65536 * c.decode g n (x / 2 ^ 20)
    else (Store.get c.vft (15 * g + x % 16)).toNat % 65536 + 65536 * c.decode g n (x / 16)

/-- The data sector, counted from the header, at which superblock `k` of a frame starts (R436). -/
def Frame.start (f : Frame) (k : Nat) : Nat :=
  (List.range k).foldl (fun a i => a + (Store.get f.size i).toNat) 1

/-- The header sector of a frame (R436). -/
def Frame.header (f : Frame) : Nat :=
  (List.range 16).foldl (fun a k => a + ((Store.get f.size k).toNat + 8 * (Store.get f.gen k).toNat) * 2 ^ (5 * k))
    (f.cmp.toNat * 2 ^ 80 + b2n f.moved * 2 ^ 88)

/-- The frame that a header sector records. -/
def Frame.ofHeader (base x : Nat) : Frame :=
  { base := base, cmp := BitVec.ofNat 2 (bits x 80 2), moved := bit x 88
    size := (List.range 16).foldl (fun st k => Store.set st k (BitVec.ofNat 3 (bits x (5 * k) 3))) []
    gen := (List.range 16).foldl (fun st k => Store.set st k (BitVec.ofNat 2 (bits x (5 * k + 3) 2))) [] }

/-- The compressed frame whose sectors hold a physical address. -/
def State.frameAt (s : State) (pa : Nat) : Option (Nat × Frame) :=
  [0, 1, 2].findSome? (fun i =>
    match Map.get none s.home.frames (pa / 1024 - i) with
    | some fr => if i ≤ pa / 1024 ∧ i < fr.cmp.toNat then some (pa / 1024 - i, fr) else none
    | none => none)

/-- Whether some of the bytes at offsets `offs` from a home address lie raw in the sectors of a compressed frame: the page
that reaches them is not compressed at its own frame base (R437). -/
def State.codedOver (s : State) (name : Nat) (offs : List Nat) : Bool :=
  !s.home.frames.isEmpty && decide (s.homeKey name < 2 ^ 48) && offs.any (fun o => (s.frameAt (s.homeKey name + o)).isSome)

/-- The metadata bits of the HBM sector at a physical address (R436): CF, HDR, GEN and the sector count less 1. -/
def State.sectorMeta (s : State) (pa : Nat) : Nat :=
  match s.frameAt pa with
  | none => 0
  | some (f, fr) =>
    let j := (pa - f * 1024) / 64
    if j = 0 then 3
    else match (List.range 16).find? (fun k => decide (fr.start k ≤ j) && decide (j < fr.start (k + 1))) with
      | some k => 1 + 4 * (Store.get fr.gen k).toNat + 16 * ((Store.get fr.size k).toNat - 1)
      | none => 1

/-- What a write at a home answers. -/
inductive WriteResult where
  | done
  /-- an error response: nothing is written (R317) -/
  | error
  /-- written, but held in the overflow buffer: a compression overflow is to be recorded (R440) -/
  | overflow
  /-- the overflow buffer is full: the write waits (R440) -/
  | full
deriving DecidableEq, Repr

/-- The line of a superblock, when its slice holds it. -/
def State.findLlc (s : State) (name : Nat) : Option LlcLine := s.home.llc.find? (fun l => l.tag == name / 256)

/-- The bytes as memory itself has them about a home address, with none of what its slice has not written back. -/
def State.storedMem (s : State) (name : Nat) : Memory :=
  match s.findLlc name with
  | some l => if l.dirty = 0 then s.home.mem else Memory.store s.home.mem (s.homeKey (name / 256 * 256)) 256 l.stored
  | none => s.home.mem

/-- Superblock `k` of a frame as its sectors hold it (R435): nothing, its codes, or its bytes; of one that an overflow buffer
holds, the form before. -/
def State.blockForm (s : State) (f : Nat) (fr : Frame) (k : Nat) : Nat :=
  let c := s.codec (unitCodec (unitOf (f * 1024)))
  let a := 2 ^ 48 + f * 4096 + 256 * k
  let x := match c.overflow.find? (fun x => x.frame == f && x.sb == k) with
    | some x => x.old
    | none => Memory.load (s.storedMem a) a 256
  match (Store.get fr.size k).toNat with
  | 0 => 0
  | 4 => x
  | n => c.encode (Store.get fr.gen k).toNat 128 x % 2 ^ (512 * n)

/-- The sectors of a frame, as one number (R436). -/
def State.frameForm (s : State) (f : Nat) (fr : Frame) : Nat :=
  (List.range 16).foldl (fun a k => a + s.blockForm f fr k * 2 ^ (512 * fr.start k)) fr.header

/-- A raw byte of memory: in the sectors of a compressed frame that hold something, that frame's stored form. -/
def State.rawByte (s : State) (pa : Nat) : Nat :=
  match s.frameAt pa with
  | some (f, fr) =>
    let o := pa - f * 1024
    if o / 64 < fr.start 16 then bits (s.frameForm f fr) (8 * o) 8 else (Memory.byte s.home.mem pa).toNat
  | none => (Memory.byte s.home.mem pa).toNat

/-- n raw bytes of memory as a number. -/
def State.rawValue (s : State) (pa : Nat) : Nat → Nat
  | 0 => 0
  | n + 1 => s.rawByte pa + 256 * s.rawValue (pa + 1) n

/-- A frame as its sectors, now the number `x`, record it: its header and every superblock, decoded (R435, R436). -/
def State.loadForm (s : State) (f x : Nat) : State :=
  let fr := Frame.ofHeader f x
  let c := s.codec (unitCodec (unitOf (f * 1024)))
  let block (k : Nat) : Nat :=
    let y := bits x (512 * fr.start k) 2048
    match (Store.get fr.size k).toNat with
    | 0 => 0
    | 4 => y
    | n => c.decode (Store.get fr.gen k).toNat 128 (y % 2 ^ (512 * n))
  let mem := (List.range 16).foldl (fun m k => Memory.store m (2 ^ 48 + f * 4096 + 256 * k) 256 (block k)) s.home.mem
  { s with home := { s.home with mem := mem, frames := Map.set none s.home.frames f (if fr.cmp = 0 then none else some fr) } }

/-- A raw byte written into the sectors of a compressed frame: the frame is what they record from then on (log entry
58). -/
def State.rawPut (s : State) (pa : Nat) (b : Byte) : State :=
  match s.frameAt pa with
  | some (f, fr) =>
    let o := pa - f * 1024
    if o / 64 < fr.start 16 then s.loadForm f (setBits (s.frameForm f fr) (8 * o) 8 b.toNat) else s
  | none => s

/-- The home's memory becomes `mem`, in which the bytes at offsets `offs` from a home address have been written. -/
def State.enterMem (s : State) (name : Nat) (mem : Memory) (offs : List Nat) : State :=
  let key := s.homeKey name
  let s1 := { s with home := { s.home with mem := mem } }
  if s.codedOver name offs then offs.foldl (fun t o => t.rawPut (key + o) (Memory.byte mem (key + o))) s1 else s1

/-- The n-byte value of a home address as it stands. -/
def State.homeValue (s : State) (name n : Nat) : Nat :=
  if s.codedOver name (List.range n) then s.rawValue (s.homeKey name) n else Memory.load s.home.mem (s.homeKey name) n

/-- The home unit whose monitors watch a word (R333, R490): its slice, or for an MS page the memory-side unit of its base
die or far port. -/
def State.monitorUnit (s : State) (name : Nat) (ms : Bool) : Nat :=
  let u := unitOf (servedAt name)
  if !ms then s.slice name else if u < 128 then 256 + u / 16 else 264 + (u - 128)

/-- Monitors in use at a home unit: this core's and other cores' (R333). -/
def State.monitorsUsed (s : State) (u : Nat) : Nat :=
  (s.home.monitors.filter (fun m => m.armed && s.monitorUnit m.name m.ms == u)).length +
    Config.otherMonitors u s.ctr.cycle.toNat

/-- Whether a home unit has a monitor for a request behind the requests `before`: one of its 256 is free, and none of
those waits there (R333). -/
def State.monitorFree (s : State) (before : List Monitor) (u : Nat) : Bool :=
  decide (s.monitorsUsed u < 256) && !before.any (fun m => !m.armed && s.monitorUnit m.name m.ms == u)

/-- A request for a monitor (R333): answers whether it is armed; otherwise it waits at the home in arrival order. -/
def State.askMonitor (s : State) (h : BitVec 1) (elem name : Nat) (ms : Bool) : Bool × State :=
  let ok := s.monitorFree s.home.monitors (s.monitorUnit name ms)
  (ok, { s with home := { s.home with
    monitors := s.home.monitors ++ [{ hart := h, elem := elem, name := name, ms := ms, armed := ok }] } })

/-- Whether the monitor of an element of a hart's wait is armed. -/
def State.armed (s : State) (h : BitVec 1) (elem : Nat) : Bool :=
  s.home.monitors.any (fun m => m.hart == h && m.elem == elem && m.armed)

/-- The comparison of the words that a WAITV watches (R334). -/
def State.watchAll (s : State) (h : BitVec 1) (els : List Watch) : List Watch :=
  els.map (fun e => { e with
    matched := e.matched || (s.armed h e.elem && BitVec.ofNat 32 (s.homeValue e.addr 4) == e.want) })

/-- A monitor's comparison after a write (R333): a WAITA whose word now equals its value has matched; so for each
word of a WAITV (R334). -/
def Run.watch (s : State) (h : BitVec 1) : Run → Run
  | .asleep (.waita d a v t m) => .asleep (.waita d a v t (m || (s.armed h 0 && word (s.homeValue a 8) == v)))
  | .asleep (.waitv ad all els t) => .asleep (.waitv ad all (s.watchAll h els) t)
  | .asleep (.waitb t (some (n, els))) => .asleep (.waitb t (some (n, s.watchAll h els)))
  | r => r

/-- Both harts' waits compared with their words. -/
def State.watchHarts (s : State) : State :=
  { s with h0 := { s.h0 with run := s.h0.run.watch s 0 }, h1 := { s.h1 with run := s.h1.run.watch s 1 } }

/-- A monitor that comes free goes to the first request that waits for it, and the home compares at once (R333); none
when no request can go on. -/
def State.armNext (s : State) : Option State :=
  let l := s.home.monitors
  ((List.range l.length).find? (fun k =>
    match l[k]? with
    | some m => !m.armed && (s.homeError m.name).isNone && s.monitorFree (l.take k) (s.monitorUnit m.name m.ms)
    | none => false)).map (fun k =>
      { s with home := { s.home with
          monitors := l.zipIdx.map (fun (e : Monitor × Nat) => if e.2 = k then { e.1 with armed := true } else e.1) } }.watchHarts)

/-- After a write at home address `name` of the bytes at offsets `offs`: monitors compare (R333), and each trigger slot
armed on a word that it touches is sent one trigger (R383). -/
def State.afterWrite (s : State) (name : Nat) (offs : List Nat) : State :=
  let s := s.watchHarts
  let hit := s.pool.triggers.filterMap (fun e =>
    match e.2.armed with
    | some (pa, _, _) => if offs.any (fun o => decide (pa ≤ name + o) && decide (name + o < pa + 8)) then some (e.1, pa) else none
    | none => none)
  if hit.isEmpty then s else { s with pool := { s.pool with fired := s.pool.fired ++ hit } }

/-- Records a codec sample (R438): the superblock's halfwords join the sample store. -/
def sampleHalves (st : Store 32) (m : Memory) (a : Nat) : Nat → Store 32
  | 0 => st
  | n + 1 =>
    let h := Memory.load m a 2
    sampleHalves (Store.set st h (Store.get st h + 1)) m (a + 2) n

/-- Superblock `k` of a frame placed with a size under generation `g`: the frame's header, the counts of its codec and
the overflow buffer follow (R434, R436, R440).  The superblocks of a moved frame are counted no more. -/
def State.placeBlock (s : State) (ci f k size g : Nat) (fr : Frame) : State :=
  let c := s.codec ci
  let old := (Store.get fr.gen k).toNat
  let counts := Store.set c.counts old (Store.get c.counts old - 1)
  let counts := if fr.moved then c.counts else Store.set counts g (Store.get counts g + 1)
  let fr := { fr with size := Store.set fr.size k (BitVec.ofNat 3 size),
                      gen := Store.set fr.gen k (BitVec.ofNat 2 g) }
  let c := { c with counts := counts, overflow := c.overflow.filter (fun x => !(x.frame == f && x.sb == k)) }
  let s := s.setCodec ci c
  { s with home := { s.home with frames := Map.set none s.home.frames f (some fr) } }

/-- Whether a frame can hold its superblocks with `size` for superblock `k` (R436). -/
def Frame.fits (f : Frame) (k size : Nat) : Bool := decide (f.sectors k size ≤ 16 * f.cmp.toNat - 1)

/-- A codec after a write of the superblock at line name `a` with a size code: its raw-write window, and a sample where the
access was chosen for one (R434, R438, R439, R455). -/
def State.sawWrite (s : State) (c : Codec) (a size : Nat) (sampled : Bool) : Codec :=
  let c := { c with window := (decide (size = 4) :: c.window).take 65536 }
  if sampled && (c.learn || ((c.resampling || bit s.mgmt.fmode.toNat 2) && !c.asked && !c.held)) then
    { c with samples := sampleHalves c.samples s.home.mem a 128, taken := c.taken + 1 } else c

/-- After bytes of superblock `k` of compressed frame `f` are written: it is recoded under NEWEST and placed again, or
held in the overflow buffer when the frame can no longer hold it (R440); counts, samples and the raw-write window
follow (R434, R438, R439).  `sampled` is the sampling decision of the access, `before` the store without the write, `own`
the harts of this core whose stores are written. -/
def State.recode (s : State) (f k : Nat) (sampled : Bool) (before : Memory) (own : BitVec 2 := 0) : WriteResult × State :=
  match Map.get none s.home.frames f with
  | none => (.done, s)
  | some fr =>
    let ci := unitCodec (unitOf (f * 1024))
    let c := s.codec ci
    let g := c.newest.toNat
    let a := 2 ^ 48 + f * 4096 + 256 * k
    let size := sizeCode c g s.home.mem a
    let c := s.sawWrite c a size sampled
    if fr.fits k size then (.done, (s.setCodec ci c).placeBlock ci f k size g fr)
    else if c.overflow.any (fun x => x.frame == f && x.sb == k) then
      let held := c.overflow.map (fun x => if x.frame = f ∧ x.sb = k then { x with own := x.own ||| own } else x)
      (.overflow, s.setCodec ci { c with overflow := held })
    else if (c.overflow.filter (fun x => unitOf (x.frame * 1024) == unitOf (f * 1024))).length < 8 then
      let b : HeldBlock := { frame := f, sb := k, old := Memory.load before a 256, own := own }
      (.overflow, s.setCodec ci { c with overflow := c.overflow ++ [b] })
    else (.full, s)

/-! ### Fault records (R405) -/

/-- The fault record of an engine (Table 17-6), without its sequence number. -/
structure Deposit where
  addr : Word
  stride : Word
  remain : Nat
  elen : Nat
  tag : Nat
  cause : Nat
  source : Nat
  wr : Bool
  cid : BitVec 16

/-- Whether a record may be deposited: fewer than 512 are outstanding (R405, R411). -/
def State.canDeposit (s : State) : Bool :=
  if bit s.mgmt.fmode.toNat 0 then decide (s.hostRecords s.quadrant < Config.faultRecords)
  else decide (s.mmu.queue.length < Config.faultRecords)

/-- Deposits a record with the core's next sequence number: in the core's fault queue, or in the host fault buffer
under host-assisted paging (R405, R411).  Answers the sequence number. -/
def State.deposit (s : State) (d : Deposit) : BitVec 16 × State :=
  let q := s.mmu.nextSeq
  let r : FaultRec :=
    { w0 := d.addr, w1 := d.stride,
      w2 := word (d.remain % 2 ^ 32 + d.elen % 65536 * 2 ^ 32 + q.toNat * 2 ^ 48),
      w3 := word (d.tag % 2 ^ 32 + (d.cause + (d.source + 16 * b2n d.wr) * 256) * 2 ^ 32 + d.cid.toNat * 2 ^ 48),
      taken := false }
  let s := { s with mmu := { s.mmu with nextSeq := q + 1 } }
  let s := s.countCore 0x0A 1
  if bit s.mgmt.fmode.toNat 0 then (q, s.toHostBuffer r)
  else (q, { s with mmu := { s.mmu with queue := s.mmu.queue ++ [r] } })

/-- Sequence number of a record. -/
def FaultRec.seq (r : FaultRec) : BitVec 16 := BitVec.ofNat 16 (wf r.w2 48 16)

/-- The record of a compression overflow met by a write-back, or by another write that no agent retries (R440): SOURCE 4,
TAG 0; none while 512 records are outstanding, so that the write waits (R405). -/
def State.depositOverflow (s : State) (va : Word) (cid : BitVec 16) : Option State :=
  if s.canDeposit then
    some (s.deposit { addr := va, stride := 0, remain := 1, elen := 256, tag := 0, cause := 0x10,
                      source := 4, wr := true, cid := cid }).2
  else none

/-! ### LLC slices (R14, R279) -/

/-- The slices with a line replaced, or added. -/
def State.putLlc (s : State) (l : LlcLine) : State :=
  let lines := if s.home.llc.any (fun x => x.tag == l.tag) then s.home.llc.map (fun x => if x.tag == l.tag then l else x)
    else s.home.llc ++ [l]
  { s with home := { s.home with llc := lines } }

/-- The slices without a line. -/
def State.dropLlc (s : State) (tag : Nat) : State :=
  { s with home := { s.home with llc := s.home.llc.filter (fun l => l.tag != tag) } }

/-- The sectors of a line with dirty bytes. -/
def LlcLine.dirtySectors (l : LlcLine) : List Nat := (List.range 4).filter (fun k => bits l.dirty.toNat (64 * k) 64 != 0)

/-- A slice writes a line's dirty bytes to memory in its recorded stored form (R279, R440): each dirty sector is an access
of its controller, and of a compressed frame the superblock (R454); an overflow is recorded for the core that wrote it.
None while the write must wait. -/
def State.llcWriteBack (s : State) (l : LlcLine) : Option State :=
  let name := l.tag * 256
  if l.dirty = 0 then some s
  else match s.homeError name with
    | some e => some (s.logError 4 name l.cid.toNat e)
    | none =>
      let (f, o) := frameOf name
      if (Map.get none s.home.frames f).isSome then
        let (sampled, s1) := s.heat name
        match s1.recode f (o / 256) sampled (Memory.store s1.home.mem (s1.homeKey name) 256 l.stored) l.own with
        | (.full, _) => none
        | (.overflow, s2) => s2.depositOverflow l.va l.cid
        | (_, s2) => some s2
      else some (l.dirtySectors.foldl (fun s k => (s.heat (name + 64 * k)).2) s)

/-- A line that memory has whole. -/
def LlcLine.clean (l : LlcLine) : LlcLine := { l with dirty := 0, stored := 0, own := 0 }

/-- The slice writes back a line, and keeps it (R306) or gives it up (R279, R285). -/
def State.llcClean (s : State) (l : LlcLine) : Option State := (s.llcWriteBack l).map (fun s => s.putLlc l.clean)
def State.llcFlush (s : State) (l : LlcLine) : Option State := (s.llcWriteBack l).map (fun s => s.dropLlc l.tag)

/-- Memory has every byte of a superblock: its slice has written back what it holds. -/
def State.llcStored (s : State) (name : Nat) : Option State :=
  match s.findLlc name with
  | some l => if l.dirty = 0 then some s else s.llcClean l
  | none => some s

/-- The slices write back every line with dirty bytes of hart `h` (R306); none while one must wait. -/
def State.llcCleanOf (s : State) (h : BitVec 1) : Option State :=
  (s.home.llc.filter (fun l => bit l.own.toNat h.toNat)).foldl (fun a l => a.bind (fun s => s.llcClean l)) (some s)

/-- Whether an overflow buffer holds a superblock with bytes of hart `h` (R306, R440). -/
def State.heldOf (s : State) (h : BitVec 1) : Bool :=
  s.home.codecs.any (fun e => e.2.overflow.any (fun x => bit x.own.toNat h.toNat))

/-- Room for one more line in the slice of a home address (R14): a full slice gives one up. -/
def State.llcRoom (s : State) (name : Nat) : Option State :=
  let mine := s.home.llc.filter (fun l => s.slice (l.tag * 256) == s.slice name)
  if mine.length < Config.llcLines then some s
  else
    let (n, s1) := s.draw
    match mine[Config.llcVictim n % mine.length]? with
    | some l => s1.llcFlush l
    | none => some s1

/-- The line of a home address, brought in without data where its slice does not hold it. -/
def State.llcLine (s : State) (name : Nat) : Option (LlcLine × State) :=
  match s.findLlc name with
  | some l => some (l, s)
  | none => (s.llcRoom name).map (fun s =>
      ({ tag := name / 256, filled := 0, dirty := 0, stored := 0, va := 0, cid := 0, own := 0 }, s))

/-- Whether a line has n bytes at a home address: its sector has been read, or every one of them is dirty. -/
def LlcLine.has (l : LlcLine) (name n : Nat) : Bool :=
  bit l.filled.toNat (name / 64 % 4) || bits l.dirty.toNat (name % 256) n == 2 ^ n - 1

/-- A read by way of the slice: a sector that it lacks is read from memory, which is an access of its controller (R454). -/
def State.llcRead (s : State) (name n : Nat) : State :=
  if (s.findLlc name).any (fun l => l.has name n) then s
  else
    let s1 := (s.heat name).2
    match s1.llcLine name with
    | some (l, s2) => s2.putLlc { l with filled := BitVec.ofNat 4 (setBits l.filled.toNat (name / 64 % 4) 1 1) }
    | none => s1

/-- A write by way of the slice, at offsets `offs` from `name`: the bytes are dirty there, and memory keeps its own.  None
while no line can be had. -/
def State.llcWrite (s : State) (own : BitVec 2) (cid name : Nat) (va : Word) (offs : List Nat) : Option State :=
  (s.llcLine name).map (fun (l, s1) =>
    let base := name / 256 * 256
    let stored := if l.dirty = 0 then Memory.load s1.home.mem (s1.homeKey base) 256 else l.stored
    let dirty := offs.foldl (fun d o => setBits d (name % 256 + o) 1 1) l.dirty.toNat
    s1.putLlc { l with dirty := BitVec.ofNat 256 dirty, stored := stored, va := va, cid := BitVec.ofNat 16 cid,
                       own := own ||| l.own })

/-! ### Accesses at their homes -/

/-- How an access reaches the bytes of its home. -/
inductive Via where
  /-- at the memory itself: MS accesses, engines and walks; and a hart's stores to a compressed frame, whose overflow is
  precise (R440) -/
  | memory
  /-- the same, as part of an access that has been counted (R324) -/
  | again
  /-- by way of the LLC slice (R279): whether this core writes, and at which virtual address -/
  | slice (own : Bool) (va : Word)
deriving DecidableEq, Repr

/-- Writes bytes at offsets from `a` of a store. -/
def writeBytes (m : Memory) (a : Nat) : List (Nat × Byte) → Memory
  | [] => m
  | (o, b) :: bs => writeBytes (Memory.setByte m (a + o) b) a bs

/-- The harts of this core that a write of a SOURCE may carry stores of: a write-back may carry both harts'. -/
def writersOf (kind : Nat) : BitVec 2 :=
  match kind with
  | 0 => 1
  | 1 => 2
  | 4 => 3
  | _ => 0

/-- What a write does in memory itself (`sampled`: its codec samples it): the bytes enter, their block is recoded (R436,
R440), and what follows a write follows. -/
def State.memoryWrite (s : State) (kind name : Nat) (mem : Memory) (offs : List Nat) (sampled : Bool) : WriteResult × State :=
  let (f, o) := frameOf name
  let r := (s.enterMem name mem offs).recode f (o / 256) sampled s.home.mem (writersOf kind)
  (r.1, r.2.afterWrite name offs)

/-- A write that its slice takes (R279). -/
def State.sliceWrite (s : State) (own : BitVec 2) (cid name : Nat) (va : Word) (mem : Memory) (offs : List Nat) :
    WriteResult × State :=
  match s.llcWrite own cid name va offs with
  | none => (.full, s)
  | some s1 => (.done, (s1.enterMem name mem offs).afterWrite name offs)

/-- A write that goes to memory, what its slice holds in stored form first; one made again counts no more (R454). -/
def State.pastSlice (s : State) (kind name : Nat) (mem : Memory) (offs : List Nat) (again : Bool) : WriteResult × State :=
  match s.llcStored name with
  | none => (.full, s)
  | some s0 =>
    let (sampled, s1) := if again then (false, s0) else s0.heat name
    let r := s1.memoryWrite kind name mem offs sampled
    if r.1 = .full then (.full, s) else r

/-- A WRITE AT ITS HOME (R293): the bytes at offsets `offs` from `name`, all in one superblock, enter their byte order
together, and the home's memory becomes `mem`.  `kind` is the SOURCE code for the violation log. -/
def State.enterBytes (s : State) (kind cid name : Nat) (mem : Memory) (offs : List Nat) (via : Via) : WriteResult × State :=
  match s.homeError name, via with
  | some e, _ => (.error, s.logError kind name cid e)
  | none, .slice own va => s.sliceWrite (if own then writersOf kind else 0) cid name va mem offs
  | none, .memory => s.pastSlice kind name mem offs false
  | none, .again => s.pastSlice kind name mem offs true

/-- A write of bytes at offsets from a home address. -/
def State.homeWriteBytes (s : State) (kind cid name : Nat) (bs : List (Nat × Byte)) (via : Via := .memory) :
    WriteResult × State :=
  s.enterBytes kind cid name (writeBytes s.home.mem (s.homeKey name) bs) (bs.map (·.1)) via

/-- The little-endian bytes of a value, at offsets 0 to n − 1. -/
def bytesOf (v : Nat) : Nat → List (Nat × Byte)
  | 0 => []
  | n + 1 => bytesOf v n ++ [(n, BitVec.ofNat 8 (v / 256 ^ n))]

/-- A write of an n-byte value at its home. -/
def State.homeWrite (s : State) (kind cid name n v : Nat) (via : Via := .memory) : WriteResult × State :=
  s.enterBytes kind cid name (Memory.store s.home.mem (s.homeKey name) n v) (List.range n) via

/-- What a read counts on its way (R454). -/
def State.homeTouch (s : State) (name n : Nat) (via : Via) : State :=
  match via with
  | .memory => (s.heat name).2
  | .again => s
  | .slice _ _ => s.llcRead name n

/-- A READ AT ITS HOME (R293, R294, R303): the latest value in the byte order, or none with an error response. -/
def State.homeRead (s : State) (kind cid name n : Nat) (via : Via := .memory) : Option Nat × State :=
  match s.readError name with
  | some e => (none, s.logError kind name cid e)
  | none => (some (s.homeValue name n), s.homeTouch name n via)

/-- A write at its home of bits among others: the old value and the write of `f old`, in one step. -/
def State.homeMerge (s : State) (kind cid name n : Nat) (f : Nat → Nat) (via : Via := .memory) :
    Option Nat × WriteResult × State :=
  match s.homeError name with
  | some e => (none, .error, s.logError kind name cid e)
  | none =>
    let old := s.homeValue name n
    let s0 := match via with
      | .slice _ _ => s.llcRead name n
      | _ => s
    let (r, s1) := s0.homeWrite kind cid name n (f old) via
    (some old, r, s1)

/-- AN ATOMIC AT ITS HOME (R304): the old value is read and `f old` is written, in one step. -/
def State.homeAtomic (s : State) (kind cid name n : Nat) (f : Nat → Nat) (via : Via := .memory) :
    Option Nat × WriteResult × State :=
  match s.readError name with
  | some e => (none, .error, s.logError kind name cid e)
  | none => s.homeMerge kind cid name n f via

/-- The error response of an access that this core did not make: its core, source and CID are free (R451; log entry 155). -/
def State.foreignError (s : State) (name : Nat) (e : Nat × Nat) : State :=
  let (k, s) := s.draw
  let w := Config.otherCore k
  let q := match regionOf (servedAt name) with
    | .none => wf w 7 2
    | _ => e.1
  s.logViolation q (wf w 0 10) (wf w 16 8) e.2 (word (servedAt name)) (wf w 32 16)

/-- How a hart's uncached access reaches its home: an MS word at its memory-side unit (R490); a superblock of a compressed
frame in its stored form at once, so that an overflow parks the hart (R440); any other by way of its slice. -/
def State.uncached (s : State) (name : Nat) (ms : Bool) (va : Word) : Via :=
  if ms || (Map.get none s.home.frames (frameOf name).1).isSome then .memory else .slice true va

/-! ### The core cache (R273, R274, R294) -/

/-- WAYROLE as it reads: the upper ways of a host-port core are off (R160). -/
def State.wayroleRead (s : State) : Word :=
  if s.hostPort then s.core.wayrole ||| 0xFFFFFFFF00000000 else s.core.wayrole

/-- The role of a way (R160). -/
def State.role (s : State) (w : Nat) : Nat := wf s.wayroleRead (2 * w) 2

/-- The cache-role ways. -/
def State.cacheWays (s : State) : List Nat := (List.range 32).filter (fun w => s.role w == 0)

/-- A sector not yet filled or written. -/
def Sector.empty : Sector := { valid := false, dirty := 0, data := 0 }

/-- Bytes `o .. o + n − 1` of a sector as a number. -/
def Sector.load (x : Sector) (o n : Nat) : Nat := bits x.data.toNat (8 * o) (8 * n)

/-- Whether a load of bytes `o .. o + n − 1` is answered by the sector: every byte valid or dirty (R274). -/
def Sector.hit (x : Sector) (o n : Nat) : Bool := x.valid || bits x.dirty.toNat o n == 2 ^ n - 1

/-- A store into a sector: the bytes are written and marked dirty (R274). -/
def Sector.store (x : Sector) (o n v : Nat) : Sector :=
  { x with dirty := BitVec.ofNat 64 (setBits x.dirty.toNat o n (2 ^ n - 1)),
           data := BitVec.ofNat 512 (setBits x.data.toNat (8 * o) (8 * n) v) }

/-- The dirty bytes of a sector, at offsets from its start. -/
def Sector.dirtyBytes (x : Sector) : List (Nat × Byte) :=
  ((List.range 64).filter (fun i => bit x.dirty.toNat i)).map
    (fun i => (i, BitVec.ofNat 8 (bits x.data.toNat (8 * i) 8)))

/-- A sector filled with 64 home bytes beneath its dirty bytes (R274). -/
def Sector.fill (x : Sector) (v : Nat) : Sector :=
  { x with valid := true,
           data := (x.dirtyBytes).foldl
             (fun d e => BitVec.ofNat 512 (setBits d.toNat (8 * e.1) 8 e.2.toNat)) (BitVec.ofNat 512 v) }

/-- The line of a superblock, when the cache holds it. -/
def State.findLine (s : State) (tag : Nat) : Option Line := s.cache.find? (fun l => l.tag == tag)

/-- The cache with a line replaced, or added. -/
def State.putLine (s : State) (l : Line) : State :=
  { s with cache := if s.cache.any (fun x => x.tag == l.tag) then
      s.cache.map (fun x => if x.tag == l.tag then l else x) else s.cache ++ [l] }

/-- The cache without a line. -/
def State.dropLine (s : State) (tag : Nat) : State := { s with cache := s.cache.filter (fun l => l.tag != tag) }

/-- A sector of an upper cache way crosses the layer bus (Table 12-2). -/
def State.crossWay (s : State) (w : Nat) : State := if 16 ≤ w then s.beats 1 else s

/-- Writes back the dirty bytes of sector `k` of a line (R274): none when the write must wait (R277, R440). -/
def State.writeBackSector (s : State) (l : Line) (k : Nat) : Option State :=
  let x := Map.get Sector.empty l.sectors k
  if x.dirty = 0 then some s
  else if s.wayHeld l.way then none
  else
    let name := l.tag * 256 + 64 * k
    let (r, s1) := s.homeWriteBytes 4 l.cid.toNat name x.dirtyBytes (.slice true (word (l.vpn * 4096 + name % 4096)))
    if r = .full then none else some (s1.crossWay l.way)

/-- Writes back a line's dirty bytes, sector by sector. -/
def State.writeBackLine (s : State) (l : Line) : Option State :=
  (List.range 4).foldl (fun a k => a.bind (fun s => s.writeBackSector l k)) (some s)

/-- The line with every dirty bit cleared. -/
def Line.clean (l : Line) : Line :=
  { l with sectors := l.sectors.map (fun e => (e.1, { e.2 with dirty := 0 })) |>.filter (fun e => e.2 != Sector.empty) }

/-- Writes back a line and leaves it valid and clean. -/
def State.cleanLine (s : State) (l : Line) : Option State := (s.writeBackLine l).map (fun s => s.putLine l.clean)

/-- Writes back a line and invalidates it. -/
def State.flushLine (s : State) (l : Line) : Option State := (s.writeBackLine l).map (fun s => s.dropLine l.tag)

/-- Applies a write-back to every line that `p` selects; none when one must wait. -/
def State.overLines (s : State) (p : Line → Bool) (f : State → Line → Option State) : Option State :=
  (s.cache.filter p).foldl (fun a l => a.bind (fun s => f s l)) (some s)

/-- Room for a superblock in its set (R273): a free cache way, else a way given up after its write-back.  Answers the
way. -/
def State.makeRoom (s : State) (set : Nat) : Option (Nat × State) :=
  let ways := s.cacheWays
  let used := s.cache.filter (fun l => l.set == set)
  match ways.find? (fun w => !used.any (fun l => l.way == w)) with
  | some w => some (w, s)
  | none =>
    let (n, s1) := s.draw
    let w := ways.getD (Config.victimWay n % max 1 ways.length) 0
    match used.find? (fun l => l.way == w) with
    | none => some (w, s1)
    | some l => (s1.flushLine l).map (fun s2 => (w, s2))

/-- The line of a superblock, allocated on a miss with the tags of the access (R273, R297). -/
def State.allocate (s : State) (name : Nat) (cid : BitVec 16) (vpn : Nat) : Option (Line × State) :=
  let tag := name / 256
  match s.findLine tag with
  | some l => some (l, s)
  | none =>
    let set := tag % 1024
    (s.makeRoom set).map (fun (w, s1) => ({ set := set, way := w, tag := tag, cid := cid, vpn := vpn, sectors := [] }, s1))

/-- What a cached access answers. -/
inductive LoadResult where
  | ok (v : Nat)
  | error
  | wait
deriving DecidableEq, Repr

/-- A CACHED LOAD of n bytes within one sector (R294): the core's dirty bytes, else the sector as it was filled, else
the home value, after which the sector is filled.  With no cache way it goes to the home. -/
def State.cacheLoad (s : State) (kind : Nat) (name n : Nat) (cid : BitVec 16) (vpn : Nat) : LoadResult × State :=
  if s.cacheWays.isEmpty then
    match s.homeRead kind cid.toNat name n (.slice true 0) with
    | (some v, s) => (.ok v, s)
    | (none, s) => (.error, s)
  else
    let k := name / 64 % 4
    let o := name % 64
    let hit? := (s.findLine (name / 256)).bind (fun l =>
      let x := Map.get Sector.empty l.sectors k
      if x.hit o n then some (x.load o n, l.way) else none)
    match hit? with
    | some (v, w) => if s.wayHeld w then (.wait, s) else (.ok v, s.crossWay w)
    | none =>
      match s.homeRead kind cid.toNat (name - o) 64 (.slice true 0) with
      | (none, s) => (.error, s)
      | (some v, s1) =>
        match s1.allocate name cid vpn with
        | none => (.wait, s)
        | some (l, s2) =>
          if s.wayHeld l.way then (.wait, s)
          else
            let x := (Map.get Sector.empty l.sectors k).fill v
            (.ok (x.load o n), (s2.crossWay l.way).putLine { l with sectors := Map.set Sector.empty l.sectors k x })

/-- The value that a read at its home would answer, none with an error response; nothing changes. -/
def State.homeIf (s : State) (name n : Nat) : Option Nat :=
  if (s.readError name).isSome then none else some (s.homeValue name n)

/-- The value that a cached load would answer in the end, none with an error response; nothing changes. -/
def State.cachedIf (s : State) (name n : Nat) : Option Nat :=
  let x := match s.findLine (name / 256) with
    | some l => Map.get Sector.empty l.sectors (name / 64 % 4)
    | none => Sector.empty
  let o := name % 64
  if x.hit o n then some (x.load o n) else (s.homeIf (name - o) 64).map (fun v => (x.fill v).load o n)

/-- The bytes of a store in the core cache (R274): nothing is fetched.  None while the allocation must wait. -/
def State.cachePut (s : State) (name n v : Nat) (cid : BitVec 16) (vpn : Nat) : Option State :=
  (s.allocate name cid vpn).bind (fun (l, s1) =>
    let k := name / 64 % 4
    let x := (Map.get Sector.empty l.sectors k).store (name % 64) n v
    if s.wayHeld l.way then none
    else some ((s1.crossWay l.way).putLine { l with sectors := Map.set Sector.empty l.sectors k x }))

/-- A CACHED STORE of n bytes within one sector by source `src` (R274).  A store to an address whose home answers with
an error is a violation as any other access is: it is discarded and reported (R280, R317).  With no cache way the caller
sends it to the home. -/
def State.cacheStore (s : State) (src name n v : Nat) (cid : BitVec 16) (vpn : Nat) : WriteResult × State :=
  match s.homeError name with
  | some e => (.error, s.logError src name cid.toNat e)
  | none =>
    match s.cachePut name n v cid vpn with
    | some s => (.done, s)
    | none => (.full, s)

/-- The core writes back its dirty bytes of the sector of `name` and invalidates its copy (R287, R304): before an AMO,
a VSTR element or an engine write. -/
def State.evictSector (s : State) (name : Nat) : Option State :=
  match s.findLine (name / 256) with
  | none => some s
  | some l =>
    let k := name / 64 % 4
    (s.writeBackSector l k).map (fun s1 =>
      let l' := { l with sectors := Map.set Sector.empty l.sectors k Sector.empty }
      if l'.sectors.isEmpty then s1.dropLine l.tag else s1.putLine l')

/-- The core writes back its dirty bytes of the sector of `name`, which stays valid and clean (R287, R333). -/
def State.cleanSector (s : State) (name : Nat) : Option State :=
  match s.findLine (name / 256) with
  | none => some s
  | some l =>
    let k := name / 64 % 4
    (s.writeBackSector l k).map (fun s1 =>
      let x := Map.get Sector.empty l.sectors k
      s1.putLine { l with sectors := Map.set Sector.empty l.sectors k { x with dirty := 0 } })

end Sys2Proof.Machine
end

