-- ==== Sys2Proof/Machine/Translate.lean ====
section
/-! DEFINITION. Translation tables, walks and the TLB (R391 to R404). -/

namespace Sys2Proof.Machine

/-- The page fault of an access's kind (R315, R396). -/
def Acc.pageFault : Acc → Nat
  | .read => 0x04
  | .write => 0x05
  | .both => 0x05
  | .fetch => 0x06
  | .probe => 0x04

/-- A finished translation: the home address or line name of the byte, the page's attributes, and the leaf. -/
structure Trans where
  name : Nat
  ms : Bool
  mmio : Bool
  vpn : Nat
  leaf : Word
  /-- log2 of the page size -/
  size : Nat
deriving DecidableEq, Repr

/-- A translation, the fault it ends with and the level it ended at, or a miss whose walk is still to end (R399). -/
inductive TransResult where
  | ok (t : Trans)
  | fault (cause level : Nat)
  | wait
deriving DecidableEq, Repr

/-- Fields of a page table entry (Table 17-2). -/
def pteV (e : Word) : Bool := bit e.toNat 0
def pteR (e : Word) : Bool := bit e.toNat 1
def pteW (e : Word) : Bool := bit e.toNat 2
def pteX (e : Word) : Bool := bit e.toNat 3
def pteU (e : Word) : Bool := bit e.toNat 4
def pteG (e : Word) : Bool := bit e.toNat 5
def pteMs (e : Word) : Bool := bit e.toNat 6
def pteCmp (e : Word) : Nat := wf e 7 2
def pteCont (e : Word) : Bool := bit e.toNat 9
/-- Physical address of the frame or of the next table: FRAME × 1 KiB. -/
def pteAddr (e : Word) : Nat := wf e 10 38 * 1024
def pteHome (e : Word) : Nat := wf e 48 2
def pteLeaf (e : Word) : Bool := pteR e || pteW e || pteX e

/-- Whether a HOME code may map a region (Table 12-3); MMIO ignores it (R395). -/
def homeMatches (home : Nat) (r : Region) : Bool :=
  match r with
  | .hbm => home == 0
  | .pinned => home == 1
  | .far => home == 2
  | .farPinned => home == 3
  | .mmio => true
  | _ => false

/-- log2 of the page size of a leaf at a level; a CONT leaf is one page of 64 KiB (R392, R398). -/
def leafSize (level : Nat) (e : Word) : Nat :=
  match level with
  | 0 => if pteCont e then 16 else 12
  | 1 => 21
  | _ => 30

/-- The conditions of R394 and R395 on an entry with V = 1 at a level, read for address `va`: true when the walk ends
with access violation 0x07. -/
def pteBad (level : Nat) (va : Nat) (e : Word) : Bool :=
  let pa := pteAddr e
  wf e 50 14 != 0 || (pteW e && !pteR e) ||
  (if pteLeaf e then
    let r := regionOf pa
    level == 3 || ((level == 1 || level == 2) && pteCont e) ||
    (pteCmp e != 0 && (level != 0 || pteMs e)) ||
    (pteCmp e == 0 &&
      (match level with
       | 0 => pa % 4096 != 0 || (pteCont e && bits pa 12 4 != bits va 12 4)
       | 1 => pa % 2 ^ 21 != 0
       | _ => pa % 2 ^ 30 != 0)) ||
    !homeMatches (pteHome e) r || (r == .mmio && (pteU e || pteCmp e != 0))
  else
    level == 0 || pteCmp e != 0 || pteMs e || pteCont e || pteHome e != 0 || pteU e || pteG e || pa % 4096 != 0)

/-- The home address of `va` under a leaf of a page of 2^size bytes that begins at `page` (R394, R437). -/
def leafName (page size : Nat) (e : Word) (va : Nat) : Nat :=
  let off := va - page
  if pteCmp e = 0 then
    -- a CONT leaf names its own 4 KiB frame; the group's base is 64 KiB aligned
    let base := if size = 16 then pteAddr e / 2 ^ 16 * 2 ^ 16 else pteAddr e
    base + off
  else
    let f := pteAddr e / 1024 + off / 4096 * pteCmp e
    2 ^ 48 + f * 4096 + off % 4096

/-- The translation that a TLB entry gives. -/
def TlbEntry.trans (t : TlbEntry) (va : Nat) : Trans :=
  let name := leafName t.page t.size t.leaf va
  { name := name, ms := pteMs t.leaf, mmio := name < 2 ^ 48 && regionOf name == .mmio, vpn := va / 4096,
    leaf := t.leaf, size := t.size }

/-- Whether an entry answers for an address and a CID (R398). -/
def TlbEntry.covers (t : TlbEntry) (va : Nat) (cid : BitVec 16) : Bool :=
  decide (t.page ≤ va) && decide (va < t.page + 2 ^ t.size) && (t.all || t.cid == cid)

/-- Index of `va` in the table of a level (R392). -/
def tableIndex (va level : Nat) : Nat := bits va (12 + 9 * level) 9

/-- The walk from a table at `table` of level `n − 1` downwards (R392, R395): the leaf with its page, or the fault.
Table pointers met on the way are kept in the walker cache (R398). -/
def walkFrom (cid : BitVec 16) (va : Nat) (acc : Acc) : Nat → Nat → State → (Except (Nat × Nat) TlbEntry) × State
  | 0, _, s => (.error (0x07, 0), s)
  | n + 1, table, s =>
    match s.homeRead 5 cid.toNat (table + 8 * tableIndex va n) 8 with
    | (none, s) => (.error (0x11, n), s)
    | (some v, s) =>
      let e := word v
      if !pteV e then (.error (acc.pageFault, n), s)
      else if pteBad n va e then (.error (0x07, n), s)
      else if pteLeaf e then
        let size := leafSize n e
        (.ok { page := va / 2 ^ size * 2 ^ size, size := size, cid := cid, all := pteG e, leaf := e }, s)
      else
        let w := (cid, n, va / 2 ^ (12 + 9 * n), pteAddr e)
        walkFrom cid va acc n (pteAddr e)
          { s with mmu := { s.mmu with walker := (w :: s.mmu.walker).take 64 } }

/-- The deepest table pointer that the walker cache holds for an address, with the level of the entry it came from. -/
def State.cachedTable (s : State) (cid : BitVec 16) (va : Nat) : Option (Nat × Nat) :=
  [1, 2, 3].findSome? (fun n =>
    (s.mmu.walker.find? (fun w => w.1 == cid && w.2.1 == n && w.2.2.1 == va / 2 ^ (12 + 9 * n))).map
      (fun w => (n, w.2.2.2)))

/-- A walk for an address (R392, R397, R398). -/
def State.walk (s : State) (ptbase : Word) (cid : BitVec 16) (va : Nat) (acc : Acc) :
    (Except (Nat × Nat) TlbEntry) × State :=
  match s.cachedTable cid va with
  | some (n, t) => walkFrom cid va acc n t s
  | none => walkFrom cid va acc 4 (wf ptbase 12 36 * 4096) s

/-- The table entries that a walk for an address reads from a table at `table` of level n − 1 on, as memory holds them;
nothing is accessed. -/
def peekFrom (va : Nat) : Nat → Nat → State → List (Nat × Nat × Nat)
  | 0, _, _ => []
  | n + 1, table, s =>
    let a := table + 8 * tableIndex va n
    let v := s.homeValue a 8
    let e := word v
    (n, a, v) :: (if pteV e && !pteBad n va e && !pteLeaf e then peekFrom va n (pteAddr e) s else [])

/-- The table entries that a walk for an address would read now. -/
def State.peekWalk (s : State) (ptbase : Word) (cid : BitVec 16) (va : Nat) : List (Nat × Nat × Nat) :=
  match s.cachedTable cid va with
  | some (n, t) => peekFrom va n t s
  | none => peekFrom va 4 (wf ptbase 12 36 * 4096) s

/-- Fills the TLB (R398); a full one gives up an entry.  The misses that the entry answers are over (R399). -/
def State.fillTlb (s : State) (t : TlbEntry) : State :=
  let rest := s.mmu.misses.filter (fun m => !t.covers (4096 * m.page) m.cid)
  if s.mmu.tlb.length < Config.tlbEntries then { s with mmu := { s.mmu with tlb := t :: s.mmu.tlb, misses := rest } }
  else
    let (n, s) := s.draw
    let k := Config.victimEntry n % Config.tlbEntries
    { s with mmu := { s.mmu with tlb := t :: s.mmu.tlb.eraseIdx k, misses := rest } }

/-- Whether a leaf permits an access at a level (Table 17-3). -/
def permits (leaf : Word) (acc : Acc) (level : Nat) : Bool :=
  match acc with
  | .probe => true
  | .fetch => pteX leaf && (pteU leaf == (level == 2))
  | .read => pteR leaf && (level != 2 || pteU leaf)
  | .write => pteW leaf && (level != 2 || pteU leaf)
  | .both => pteR leaf && pteW leaf && (level != 2 || pteU leaf)

/-- What a TLB entry answers an access at a level (R396). -/
def TlbEntry.answer (t : TlbEntry) (level : Nat) (acc : Acc) (va : Nat) : TransResult :=
  if permits t.leaf acc level then .ok (t.trans va) else .fault acc.pageFault 0

/-- A TLB miss is counted for its hart, or for the core (Table 20-4, code 0x09). -/
def State.countMiss (s : State) (h : Option (BitVec 1)) : State :=
  match h with
  | some h => s.count h 0x09 1
  | none => s.countCore 0x09 1

/-- Whether an entry of the miss table is the one of a lookup (R399). -/
def Miss.serves (m : Miss) (cid : BitVec 16) (acc : Acc) (va : Nat) : Bool :=
  m.page == va / 4096 && m.cid == cid && m.acc == acc

/-- The miss table with room for one more entry; none while all of its walks are still to end (R399). -/
def missRoom (l : List Miss) : Option (List Miss) :=
  if l.length < Config.missEntries then some l
  else (l.findIdx? (fun m => m.ended.isSome)).map l.eraseIdx

/-- A LOOKUP THAT MISSES (R399): it takes an entry of the miss table, or shares the one that its page, CID and kind of
check already have, and waits; a full table lets it wait too.  When its walk has ended without a translation it is told
the fault, unless the entries that the walk read have changed since: then it is a new miss (log entry 144). -/
def State.miss (s : State) (h : Option (BitVec 1)) (ptbase : Word) (cid : BitVec 16) (acc : Acc) (va : Nat) :
    TransResult × State :=
  let new (s : State) : TransResult × State :=
    match missRoom s.mmu.misses with
    | none => (.wait, s)
    | some l =>
      let m : Miss := { page := va / 4096, ptbase := ptbase, cid := cid, acc := acc, ended := none }
      (.wait, ({ s with mmu := { s.mmu with misses := l ++ [m] } }).countMiss h)
  match s.mmu.misses.find? (fun m => m.serves cid acc va) with
  | none => new s
  | some m =>
    match m.ended with
    | none => (.wait, s)
    | some w =>
      let s := { s with mmu := { s.mmu with misses := s.mmu.misses.erase m } }
      if w.read = s.peekWalk m.ptbase cid (4096 * m.page) then (.fault w.cause w.level, s) else new s

/-- TRANSLATION of an address for an access at a level, with a page table root and a CID (R392 to R399): the TLB, else
the miss table.  `h` is the hart a TLB miss is counted for, none for an engine. -/
def State.translateWith (s : State) (h : Option (BitVec 1)) (ptbase : Word) (cid : BitVec 16) (level : Nat)
    (acc : Acc) (va : Word) : TransResult × State :=
  if !canonical va then (.fault acc.pageFault 3, s)
  else match s.mmu.tlb.find? (fun t => t.covers va.toNat cid) with
    | some t => (t.answer level acc va.toNat, s)
    | none => s.miss h ptbase cid acc va.toNat

/-- What a lookup would end with, however long it took, as the tables stand; nothing is accessed and nothing changes. -/
def State.peekTrans (s : State) (ptbase : Word) (cid : BitVec 16) (level : Nat) (acc : Acc) (va : Word) : Option Trans :=
  let answer (t : TlbEntry) : Option Trans :=
    match t.answer level acc va.toNat with
    | .ok t => some t
    | _ => none
  if !canonical va then none
  else match s.mmu.tlb.find? (fun t => t.covers va.toNat cid) with
    | some t => answer t
    | none => (s.peekWalk ptbase cid va.toNat).getLast?.bind (fun r =>
        let e := word r.2.2
        if pteV e && !pteBad r.1 va.toNat e && pteLeaf e then
          let size := leafSize r.1 e
          answer { page := va.toNat / 2 ^ size * 2 ^ size, size := size, cid := cid, all := pteG e, leaf := e }
        else none)

/-! ### The TLBs of the stream fabrics (R401, R426) -/

/-- The TLB of a fabric, as far as this core's streams have filled it. -/
def State.fabricTlb (s : State) (f : Nat) : List TlbEntry := Map.get [] s.stream.tlbs f

/-- Fills the TLB of a fabric; a full one gives up an entry. -/
def State.fillFabric (s : State) (f : Nat) (t : TlbEntry) : State :=
  let l := s.fabricTlb f
  let put (s : State) (l : List TlbEntry) : State :=
    { s with stream := { s.stream with tlbs := Map.set [] s.stream.tlbs f l } }
  if l.length < Config.fabricEntries then put s (t :: l)
  else
    let (n, s) := s.draw
    put s (t :: l.eraseIdx (Config.victimEntry n % Config.fabricEntries))

/-- A walk of a fabric, made with the opening core's PTBASE and a CID: it begins at the root, and the core's walker cache
serves and keeps nothing of it (R398, R401). -/
def State.fabricWalk (s : State) (ptbase : Word) (cid : BitVec 16) (va : Nat) (acc : Acc) :
    (Except (Nat × Nat) TlbEntry) × State :=
  let r := walkFrom cid va acc 4 (wf ptbase 12 36 * 4096) s
  (r.1, { r.2 with mmu := { r.2.mmu with walker := s.mmu.walker } })

/-- Translation in the TLB of fabric `f` (R426). -/
def State.translateIn (s : State) (f : Nat) (ptbase : Word) (cid : BitVec 16) (level : Nat) (acc : Acc) (va : Word) :
    TransResult × State :=
  if !canonical va then (.fault acc.pageFault 3, s)
  else match (s.fabricTlb f).find? (fun t => t.covers va.toNat cid) with
    | some t => (t.answer level acc va.toNat, s)
    | none =>
      match s.fabricWalk ptbase cid va.toNat acc with
      | (.error (c, n), s) => (.fault c n, s)
      | (.ok t, s) => (t.answer level acc va.toNat, s.fillFabric f t)

/-- The fabric beside the controller or port that serves a translated address. -/
def Trans.fabric (t : Trans) : Nat := unitOf (servedAt t.name)

/-- Translation of an address in the fabric that owns it (R424, R426): the one whose own TLB already finds it there, else
the one that a walk finds. -/
def State.translateOwner (s : State) (ptbase : Word) (cid : BitVec 16) (level : Nat) (acc : Acc) (va : Word) :
    TransResult × State :=
  if !canonical va then (.fault acc.pageFault 3, s)
  else
    match s.stream.tlbs.findSome? (fun e =>
      (e.2.find? (fun t => t.covers va.toNat cid)).bind (fun t =>
        if (t.trans va.toNat).fabric = e.1 then some t else none)) with
    | some t => (t.answer level acc va.toNat, s)
    | none =>
      match s.fabricWalk ptbase cid va.toNat acc with
      | (.error (c, n), s) => (.fault c n, s)
      | (.ok t, s) => (t.answer level acc va.toNat, s.fillFabric (t.trans va.toNat).fabric t)

/-- The core's CID as 16 bits (R141). -/
def State.cid16 (s : State) : BitVec 16 := s.core.cid.truncate 16

/-- Translation for a hart (R316): its level, the core's PTBASE and CID. -/
def State.translate (s : State) (h : BitVec 1) (acc : Acc) (va : Word) : TransResult × State :=
  s.translateWith (some h) s.core.ptbase s.cid16 (s.hart h).pl acc va

/-- The pages that the translation phase of a hart's present word has translated so far (R400). -/
def Hart.pages (x : Hart) : List TlbEntry :=
  match x.waits with
  | some (.pages l) => l
  | _ => []

/-- The translation phase of a hart's present word has a page; it keeps it until the word has issued (R400). -/
def State.keepPage (s : State) (h : BitVec 1) (t : TlbEntry) : State :=
  s.modHart h (fun x => { x with waits := some (.pages (t :: x.pages)) })

/-- A lookup of the translation phase (R400): among the pages that it has, else as any lookup of the hart. -/
def State.translatePage (s : State) (h : BitVec 1) (acc : Acc) (va : Word) : TransResult × State :=
  let covers (t : TlbEntry) : Bool := canonical va && t.covers va.toNat s.cid16
  match (s.hart h).pages.find? covers with
  | some t => (t.answer (s.hart h).pl acc va.toNat, s)
  | none =>
    let (r, s1) := s.translate h acc va
    match s1.mmu.tlb.find? covers with
    | some t => (r, s1.keepPage h t)
    | none => (r, s1)

/-- Whether TLBINV with operands `a`, `b` removes an entry of a page and CID (Table 17-4). -/
def tlbMatch (a b : Word) (page size : Nat) (cid : BitVec 16) (all : Bool) : Bool :=
  let every := bit b.toNat 16
  let sameCid := cid.toNat == wf b 0 16
  if a = 0 then every || (sameCid && !all)
  else
    let p := a.toNat / 4096 * 4096
    canonical a && decide (4096 ≤ a.toNat) && decide (page ≤ p) && decide (p < page + 2 ^ size) &&
      (every || sameCid || all)

/-- Whether an access of the core that was translated through one of some entries is still to be performed (R403): a
posted store, an element of a VSTR, a request to a sync object, or an array word that waits.  Engines hold no translation
from one access to the next, so nothing of theirs is in flight between two steps. -/
def State.usesEntry (s : State) (l : List TlbEntry) : Bool :=
  let uses (va : Word) (cid : BitVec 16) : Bool := l.any (fun t => t.covers va.toNat cid)
  s.home.posted.any (fun p => !p.done && uses p.va p.cid) || s.home.vstr.any (fun v => uses v.va v.cid) ||
    (s.h0.sync ++ s.h1.sync).any (fun r => r.stage == .sent && uses r.va r.cid) ||
    s.core.queue.any (fun q => q.stage == .waiting && q.addrs.any (fun a => uses a.va s.cid16))

/-- The state without the translations that TLBINV with operands `x`, `y` matches: of the TLB, of the walker cache, of
the fabrics' TLBs, and of the harts' translation phases (R402).  Walks in flight begin anew, since a walk reads its tables
only when it ends. -/
def State.invalidate (s : State) (x y : Word) : State :=
  let keepT (t : TlbEntry) : Bool := !tlbMatch x y t.page t.size t.cid t.all
  let keepW (w : BitVec 16 × Nat × Nat × Nat) : Bool :=
    !tlbMatch x y (w.2.2.1 * 2 ^ (12 + 9 * w.2.1)) (12 + 9 * w.2.1) w.1 false
  let fabrics := (s.stream.tlbs.map (fun e => (e.1, e.2.filter keepT))).filter (fun e => !e.2.isEmpty)
  let phase (x : Hart) : Hart :=
    match x.waits with
    | some (.pages l) => { x with waits := some (.pages (l.filter keepT)) }
    | _ => x
  { s with
    h0 := phase s.h0, h1 := phase s.h1
    mmu := { s.mmu with tlb := s.mmu.tlb.filter keepT, walker := s.mmu.walker.filter keepW }
    stream := { s.stream with tlbs := fabrics } }

/-- TLBINV (R402, R403): the hart waits at it while an access translated through an entry that it removes is still to be
performed. -/
def execTlbinv (a b : BitVec 7) (s : State) : Result :=
  issue [a, b] s (fun h => needLevel 1 s h (
    let x := (s.hart h).reg a.toNat
    let y := (s.hart h).reg b.toNat
    if s.usesEntry (s.mmu.tlb.filter (fun t => tlbMatch x y t.page t.size t.cid t.all)) then .next s
    else .next ((s.invalidate x y).retire h)))

/-- The SIZE code of Table 17-5. -/
def sizeField (size : Nat) : Nat :=
  match size with
  | 12 => 0
  | 16 => 1
  | 21 => 2
  | _ => 3

/-- The result of XPROBE (Table 17-5): FRAME is replaced by the frame of the 4 KiB page when CMP = 0. -/
def probeWord (t : TransResult) : Word :=
  match t with
  | .ok t =>
    let leaf := t.leaf.toNat % 2 ^ 50
    let leaf := if pteCmp t.leaf = 0 then setBits leaf 10 38 (t.name / 4096 * 4) else leaf
    word (sizeField t.size * 2 ^ 52 + leaf)
  | .fault c n => word (2 ^ 63 + n * 2 ^ 52 + c)
  | .wait => 0

/-- Translation of a hart's probe (R404). -/
def State.probe (s : State) (h : BitVec 1) (va : Word) : TransResult × State := s.translate h .probe va

/-- XPROBE (R404): translates without a permission check and without a fault; the hart waits at it until the walk ends, as
at a load (R399). -/
def execXprobe (d a : BitVec 7) (s : State) : Result :=
  issue [d, a] s (fun h => needLevel 1 s h (
    match s.probe h ((s.hart h).reg a.toNat) with
    | (.wait, s) => .next s
    | (t, s) => .next ((s.lateReg h d.toNat (probeWord t) 0).retire h)))

/-- The walks that run: the first sixteen of the miss table that have not ended (R399). -/
def State.walks (s : State) : List Miss := (s.mmu.misses.filter (fun m => m.ended.isNone)).take Config.walkers

/-- WALK_COMPLETE (R398, R399, R410): the walk of a page ends, with its accesses of the tables; a successful one fills the
TLB, and any other keeps its fault for its lookup. -/
def execWalkComplete (va : BitVec 64) (s : State) : Result :=
  match s.walks.find? (fun m => m.page == va.toNat / 4096) with
  | none => .next s
  | some m =>
    match s.walk m.ptbase m.cid (4096 * m.page) m.acc with
    | (.ok t, s1) => .next (s1.fillTlb t)
    | (.error (c, n), s1) =>
      let w : WalkEnd := { cause := c, level := n, read := s1.peekWalk m.ptbase m.cid (4096 * m.page) }
      let ended := s1.mmu.misses.map (fun x => if x = m then { x with ended := some w } else x)
      .next { s1 with mmu := { s1.mmu with misses := ended } }

end Sys2Proof.Machine
end

