-- ==== Sys2Proof/Machine/Directory.lean ====
section
/-! DEFINITION. The sync directory at its homes (R296, R441 to R446) and the walks of the core cache that acquires and
releases make (R297, R298). -/

namespace Sys2Proof.Machine

/-- The entry of an object. -/
def State.dirEntry (s : State) (pa : Nat) : Option DirEntry := s.dir.entries.find? (fun e => e.pa == pa)

/-- The directory with an object's entry replaced, or added; an entry with no holder, no waiter and OVF = 0 is freed
(R441). -/
def State.putDir (s : State) (e : DirEntry) : State :=
  let rest := s.dir.entries.filter (fun x => x.pa != e.pa)
  if e.holders.isEmpty && e.waiters.isEmpty && !e.ovf then { s with dir := { s.dir with entries := rest } }
  else { s with dir := { s.dir with entries := rest ++ [e] } }

/-- A party of this core: its hart's request of that context is marked granted (R297, R442). -/
def State.markGranted (s : State) (p : Party) (pa : Nat) (release : Bool) : State :=
  if p.core = s.core.coreId then
    s.modHart p.hart (fun x => { x with
      sync := x.sync.map (fun r =>
        if r.pa = pa ∧ r.cid = p.cid ∧ (r.kind = 3) = (release = true) then { r with stage := .granted } else r) })
  else s

/-- The home core of a slice (R443). -/
def State.homeCore (s : State) (slice : Nat) : Nat :=
  let c := slice / 64 * 128 + slice % 64 * 2
  if !s.mgmt.dead.contains (2, c) then c
  else if !s.mgmt.dead.contains (2, c + 1) then c + 1
  else slice / 64 * 128

/-- Appends an event to a slice's list and signals it (R443). -/
def State.dirEvent (s : State) (slice pa : Nat) (who : Party) (release : Bool) : State :=
  let num := Store.get s.dir.nextNum slice
  let e : DirEvent := { slice := slice, num := num, release := release, pa := pa, who := who, taken := false }
  let s := { s with dir := { s.dir with
    events := s.dir.events ++ [e], nextNum := Store.set s.dir.nextNum slice (num + 1) } }
  if bit s.mgmt.fmode.toNat 1 then s.msix (80 * (slice / 64) + 65)
  else if s.homeCore slice = s.core.coreId.toNat then
    s.modHart 1 (fun x => { x with dirEv := some (x.dirEv.getD (word pa)) })
  else s

/-- Unacknowledged events of a slice (R445). -/
def State.openEvents (s : State) (slice : Nat) : Nat := (s.dir.events.filter (fun e => e.slice == slice)).length

/-- Grants what may be granted at the head of an object's queue (R296, R443, R444), at most `n` requests. -/
def settle (slice : Nat) : Nat → DirEntry → State → DirEntry × State
  | 0, e, s => (e, s)
  | n + 1, e, s =>
    match e.waiters with
    | [] => (e, s)
    | w :: ws =>
      if w.excl then
        if e.holders.isEmpty && !e.ovf then
          ({ e with excl := true, holders := [w.who], waiters := ws }, s.markGranted w.who e.pa false)
        else (e, s)
      else if e.excl && !e.holders.isEmpty then (e, s)
      else if e.holders.length < 4 then
        settle slice n { e with excl := false, holders := e.holders ++ [w.who], waiters := ws }
          (s.markGranted w.who e.pa false)
      else if s.openEvents slice < 256 then
        settle slice n { e with ovf := true, waiters := ws } (s.dirEvent slice e.pa w.who false)
      else (e, s)

/-- Settles an object's queue after a change of its entry. -/
def State.settleDir (s : State) (e : DirEntry) : State :=
  let (e, s) := settle (s.slice e.pa) e.waiters.length e s
  s.putDir e

/-- The entries of a slice. -/
def State.entriesOf (s : State) (slice : Nat) : List DirEntry := s.dir.entries.filter (fun e => s.slice e.pa == slice)

/-- The acquires that wait at a slice for an entry. -/
def State.heldOfSlice (s : State) (slice : Nat) : List HeldSync := s.dir.held.filter (fun x => s.slice x.pa == slice)

/-- Whether an object has an entry, or its slice a free one (R441). -/
def State.entryRoom (s : State) (pa : Nat) : Bool :=
  (s.dirEntry pa).isSome || decide ((s.entriesOf (s.slice pa)).length < 4096)

/-- Whether the store of a slice's waiters has room for a request (R441): before that, the request is in the network. -/
def State.storeRoom (s : State) (pa : Nat) : Bool :=
  let sl := s.slice pa
  decide (((s.entriesOf sl).map (fun e => e.waiters.length)).sum + (s.heldOfSlice sl).length < 1024)

/-- An entry with nothing in it. -/
def DirEntry.new (pa : Nat) : DirEntry := { pa := pa, excl := false, holders := [], ovf := false, waiters := [] }

/-- AN ACQUIRE REQUEST REACHES ITS HOME (R296, R441): a current holder's completes at once; one that finds every entry in
use waits for a free one; any other joins the queue. -/
def State.acquireArrives (s : State) (p : Party) (excl : Bool) (pa : Nat) : State :=
  let e := (s.dirEntry pa).getD (DirEntry.new pa)
  if e.holders.contains p then s.markGranted p pa false
  else if s.entryRoom pa then s.settleDir { e with waiters := e.waiters ++ [{ who := p, excl := excl }] }
  else { s with dir := { s.dir with held := s.dir.held ++ [{ pa := pa, who := p, excl := excl }] } }

/-- The acquires that wait at a slice for an entry take the free ones, in their order of arrival (R441): `n` of them at
most. -/
def letHeldIn (slice : Nat) : Nat → State → State
  | 0, s => s
  | n + 1, s =>
    match s.heldOfSlice slice with
    | [] => s
    | x :: _ =>
      if s.entryRoom x.pa then
        letHeldIn slice n ({ s with dir := { s.dir with held := s.dir.held.erase x } }.acquireArrives x.who x.excl x.pa)
      else s

/-- Settles an object's queue after a release or an acknowledgement, and lets in what waited for its entry. -/
def State.freeDir (s : State) (e : DirEntry) : State :=
  letHeldIn (s.slice e.pa) s.dir.held.length (s.settleDir e)

/-- A STRY AT ITS HOME (R296, R441): granted only when an exclusive request would be at once with the queue empty, or
by a current holder. -/
def State.tryAtHome (s : State) (p : Party) (pa : Nat) : Bool × State :=
  match s.dirEntry pa with
  | some e => (e.holders.contains p, s)
  | none =>
    if s.entryRoom pa then (true, s.putDir { DirEntry.new pa with excl := true, holders := [p] }) else (false, s)

/-- A RELEASE AT ITS HOME (R296, R444): a pointer is freed and the queue settled; with OVF = 1 a release by a hart that
holds no pointer becomes a release event, unless the slice holds all the events it can (R445); any other changes nothing.
Answers whether it completes at once. -/
def State.releaseAtHome (s : State) (p : Party) (pa : Nat) : Bool × State :=
  match s.dirEntry pa with
  | none => (true, s)
  | some e =>
    if e.holders.contains p then (true, s.freeDir { e with holders := e.holders.filter (· != p) })
    else if e.ovf then (false, if s.openEvents (s.slice pa) < 256 then s.dirEvent (s.slice pa) pa p true else s)
    else (true, s)

/-- TAKE of a directory window (R445): the oldest event not yet taken, as its number and RECORD words. -/
def State.dirTake (s : State) (slice : Nat) : Option (BitVec 12 × List Word) × State :=
  match s.dir.events.find? (fun e => e.slice == slice && !e.taken) with
  | none => (none, s)
  | some e =>
    let r1 := word (e.pa / 64 * 64 + b2n e.release)
    let r2 := word (e.who.cid.toNat * 2 ^ 32 + e.who.core.toNat * 2 ^ 16 + e.who.hart.toNat)
    let k := s.dir.events.idxOf e
    let evs := s.dir.events.modify k (fun x => { x with taken := true })
    (some (e.num, [r1, r2]), { s with dir := { s.dir with events := evs } })

/-- The objects of a slice whose next request waits for room among its events (R445). -/
def State.settleSlice (s : State) (slice : Nat) : State :=
  (s.entriesOf slice).foldl (fun s e =>
    match s.dirEntry e.pa with
    | some d => if d.waiters.isEmpty then s else s.settleDir d
    | none => s) s

/-- ACK of a directory window (R445): an acquire event's requester is granted as a listed holder, a release event's
SREL completes, and LAST clears OVF; requests that waited for room among the events become events.  A number that is not outstanding is
ignored; the window of a rehomed slice forwards to the new home (R446).  Where a rehoming has brought two events of one
number together, the older is the one meant (log entry 154). -/
def State.dirAck (s : State) (slice : Nat) (w : Word) : State :=
  let slice := nextLive s.mgmt.dead 64 slice
  match s.dir.events.find? (fun e => e.slice == slice && e.num.toNat == wf w 0 12) with
  | none => s
  | some e =>
    let evs := s.dir.events.erase e
    let full := decide (256 ≤ s.openEvents slice)
    let s := { s with dir := { s.dir with events := evs } }
    let s := s.markGranted e.who e.pa e.release
    let s := if bit w.toNat 12 then
        match s.dirEntry e.pa with
        | some d => s.freeDir { d with ovf := false }
        | none => s
      else s
    if full then s.settleSlice slice else s

/-! ### Bound ranges (R295, R297) -/

/-- The bound ranges of an object's range record as it stands at the home (Table 13-2): (base, length) pairs. -/
def State.ranges (s : State) (pa : Nat) : List (Nat × Nat) :=
  (List.range (min 3 (s.homeValue (pa + 0x30) 1))).map
    (fun k => (s.homeValue (pa + 16 * k) 8, s.homeValue (pa + 16 * k + 8) 8))

/-- First virtual address of a line's superblock, from the page that allocated it (R297). -/
def Line.va (l : Line) : Nat := l.vpn * 4096 + l.tag % 16 * 256

/-- Whether a line was allocated under a CID in one of the ranges (R297). -/
def Line.within (l : Line) (cid : BitVec 16) (rs : List (Nat × Nat)) : Bool :=
  l.cid == cid && rs.any (fun r => decide (l.va < r.1 + r.2) && decide (r.1 < l.va + 256))

/-- What an action over the lines of the cache comes to: it is done, or has to wait in the state that its lookups have
left (R399). -/
inductive Sweep where
  | done (s : State)
  | wait (s : State)

/-- The state of an action that is done. -/
def Sweep.isDone : Sweep → Bool
  | .done _ => true
  | .wait _ => false

/-- Goes on behind an action that is done; one that waits leaves the agent where it is. -/
def Sweep.andThen (r : Sweep) (k : State → Result) : Result :=
  match r with
  | .done s => k s
  | .wait s => .next s

/-- Looks up the pages of lines (R178, R295, R399): those with a valid translation, none when a lookup waits. -/
def State.mappedLines (s : State) (h : Option (BitVec 1)) (ls : List Line) : Option (List Line) × State :=
  ls.foldl (fun a l =>
    match a.2.translateWith h a.2.core.ptbase a.2.cid16 1 .probe (word l.va) with
    | (.ok _, s) => (a.1.map (· ++ [l]), s)
    | (.fault _ _, s) => (a.1, s)
    | (.wait, s) => (none, s)) (some [], s)

/-- Applies a write-back to every line that `p` selects and whose page has a valid translation; the others are skipped. -/
def State.overMapped (s : State) (h : Option (BitVec 1)) (p : Line → Bool) (f : State → Line → Option State) : Sweep :=
  match s.mappedLines h (s.cache.filter p) with
  | (none, s1) => .wait s1
  | (some ls, s1) =>
    match ls.foldl (fun a l => a.bind (fun s => f s l)) (some s1) with
    | some s2 => .done s2
    | none => .wait s1

/-- SELF-INVALIDATION (R297, step 3): every superblock in the ranges is written back and every sector invalidated, but on
pages without a valid translation (R295). -/
def State.selfInvalidate (s : State) (rs : List (Nat × Nat)) : Sweep :=
  s.overMapped none (fun l => l.within s.cid16 rs) State.flushLine

/-- The write-back of a release (R298, step 3): dirty bytes in the ranges go to their homes; lines stay valid. -/
def State.releaseLines (s : State) (rs : List (Nat × Nat)) : Sweep :=
  s.overMapped none (fun l => l.within s.cid16 rs) State.cleanLine

end Sys2Proof.Machine
end

