-- ==== Sys2Proof/Machine/Mmio.lean ====
section
/-! DEFINITION. The MMIO windows that harts reach (R470, R471): mailboxes, violation log, error counters, fault windows,
directory windows, heat windows, the management block and the apertures. -/

namespace Sys2Proof.Machine

/-! ### Mailboxes (R387 to R390) -/

/-- NEXT (R389): takes the slot at the head of the quadrant's arrival list and marks it taken; −1 when empty. -/
def State.mailboxNext (s : State) (q : Nat) : Word × State :=
  match s.host.arrivals.find? (fun e => e.1 == q) with
  | none => (0xFFFFFFFFFFFFFFFF, s)
  | some e =>
    let a := q * 65536 + 256 * e.2
    let st := (Memory.byte s.host.mailbox a).toNat
    let mb := Memory.setByte s.host.mailbox a (BitVec.ofNat 8 (setBits st 0 2 2))
    (word e.2, { s with host := { s.host with mailbox := mb, arrivals := s.host.arrivals.erase e } })

/-- NOTIFY (R389, R474): sends MSI-X message n mod 64 of the quadrant. -/
def State.mailboxNotify (s : State) (q n : Nat) : State := s.msix (80 * q + n % 64)

/-- A host write of a mailbox state word (R388): 01 from free or done places the slot at the tail of the arrival list;
01 over a request or a taken slot is ignored; 00 frees the slot. -/
def State.mailboxRequest (s : State) (q slot : Nat) (w : Word) : State :=
  let a := q * 65536 + 256 * slot
  let old := (Memory.byte s.host.mailbox a).toNat % 4
  let new := wf w 0 2
  if new = 1 ∧ (old = 1 ∨ old = 2) then s
  else
    let w := word (setBits w.toNat 2 30 0)
    let mb := Memory.store s.host.mailbox a 8 w.toNat
    let arr := if new = 1 then s.host.arrivals ++ [(q, slot)] else s.host.arrivals
    { s with host := { s.host with mailbox := mb, arrivals := arr } }

/-! ### Violation log, error and heat windows (R452, R457, R460) -/

/-- TAKE of a violation log (R452): the oldest entry's words. -/
def State.vlogTake (s : State) (q : Nat) : Option (List Word) × State :=
  match Map.get [] s.home.vlog q with
  | [] => (none, s)
  | e :: es =>
    (some [e.w0, e.w1, e.w2, e.w3], { s with home := { s.home with vlog := Map.set [] s.home.vlog q es } })

/-- A write of the CLEAR word of an error window (R460). -/
def State.errorsClear (s : State) (q : Nat) : State :=
  { s with ctr := { s.ctr with errors := Map.clear s.ctr.errors (8 * q) 8 } }

/-- A read of word j of a heat window (R457): the 8 entries, each then halved. -/
def State.heatRead (s : State) (u j : Nat) : Nat × State :=
  (List.range 8).foldl (fun a k =>
    let key := u * 8192 + 8 * j + k
    let e := (Store.get a.2.ctr.heat key).toNat
    (a.1 + e * 256 ^ k,
      { a.2 with ctr := { a.2.ctr with heat := Store.set a.2.ctr.heat key (BitVec.ofNat 8 (e / 2)) } })) (0, s)

/-- A write of SEED (R457): 0 stores 1. -/
def State.heatSeed (s : State) (u : Nat) (v : Word) : State :=
  let x := if wf v 0 16 = 0 then 1 else wf v 0 16
  { s with ctr := { s.ctr with lfsr := Store.set s.ctr.lfsr u (BitVec.ofNat 16 x) } }

/-- A write of CLEAR of a heat window (R457). -/
def State.heatClear (s : State) (u : Nat) : State :=
  { s with ctr := { s.ctr with
    heat := Map.clear s.ctr.heat (u * 8192) 8192, sampled := Store.set s.ctr.sampled u 0 } }

/-! ### The core's fault window (R407) -/

/-- TAKE (R407): the oldest record not yet taken goes to the hart's RECORD and stays outstanding; −1 when none. -/
def State.faultTake (s : State) (h : BitVec 1) : Word × State :=
  match s.mmu.queue.find? (fun r => !r.taken) with
  | none => (0xFFFFFFFFFFFFFFFF, s)
  | some r =>
    let q := s.mmu.queue.map (fun x => if x.seq = r.seq then { x with taken := true } else x)
    let s := { s with mmu := { s.mmu with queue := q } }
    (word r.seq.toNat, s.modHart h (fun x => { x with faultRecord := [r.w0, r.w1, r.w2, r.w3] }))

/-! ### The management block (R476, R477) -/

/-- Parts of a kind that are out of service, or marked and still emptied (R477). -/
def State.deadOf (s : State) (kind : Nat) : Nat :=
  ((s.mgmt.dead ++ s.mgmt.emptying).filter (fun e => e.1 == kind && !(kind == 2 && decide (512 ≤ e.2)))).length

/-- LIVECAP (R477). -/
def State.livecap (s : State) : Word :=
  word ((512 - s.deadOf 2) + (256 - s.deadOf 7) * 2 ^ 16 + (128 - s.deadOf 8) * 2 ^ 32 + (4 - s.deadOf 9) * 2 ^ 40 +
    (16 - s.deadOf 10) * 2 ^ 48)

/-- EVLOG (R476): the oldest event word, removed by the read; −1 when there is none. -/
def State.evlogRead (s : State) : Word × State :=
  match s.mgmt.evlog with
  | [] => (0xFFFFFFFFFFFFFFFF, s)
  | w :: ws => (w, { s with mgmt := { s.mgmt with evlog := ws } })

/-- The sampled halfword values with their counts, the most frequent first, equal counts by the smaller value (R438,
R479). -/
def Codec.ranked (c : Codec) : List (Nat × BitVec 32) :=
  sortBy (fun x y => decide (y.2.toNat < x.2.toNat) || (x.2 == y.2 && decide (x.1 ≤ y.1))) c.samples

/-- A read of a codec's block (R479): the staging table, INSTALL, and the samples in descending count. -/
def State.codecBlock (s : State) (k o : Nat) : Word :=
  let c := s.codec k
  if o < 0x20 then
    word ((List.range 4).foldl (fun a i => a + (Store.get c.staging (o / 2 + i)).toNat * 65536 ^ i) 0)
  else if o = 0x20 then c.install.zeroExtend 64
  else if 0x800 ≤ o then
    match c.ranked[(o - 0x800) / 8]? with
    | some (v, n) => word (v + n.toNat * 65536)
    | none => 0
  else 0

/-- A read of the management block at an offset (Table 25-4); write-only and unassigned words read as 0. -/
def State.mgmtRead (s : State) (o : Nat) : Word × State :=
  if o = 0 then (s.mgmt.svcStatus.zeroExtend 64, s)
  else if o = 0x8 then (s.mgmt.plim, s)
  else if o = 0x10 then (s.mgmt.fmaxr, s)
  else if o = 0x18 then (s.mgmt.power, s)
  else if o = 0x20 then (s.mgmt.devnum.zeroExtend 64, s)
  else if o = 0x28 then (s.livecap, s)
  else if 0x40 ≤ o ∧ o < 0xC0 then ((Store.get s.mgmt.peermap ((o - 0x40) / 8)).zeroExtend 64, s)
  else if o = 0xC0 then s.evlogRead
  else if 0x10000 ≤ o ∧ o < 0x18000 then ((Store.get s.mgmt.route ((o - 0x10000) / 8)).zeroExtend 64, s)
  else if 0x20000 ≤ o ∧ o < 0x2C000 then (s.codecBlock ((o - 0x20000) / 0x1000) (o % 0x1000), s)
  else if 0x30000 ≤ o ∧ o < 0x30040 then (word (Memory.load s.mgmt.nonce (o - 0x30000) 8), s)
  else if o = 0x30048 then (word s.mgmt.reportLen, s)
  else if 0x31000 ≤ o ∧ o < 0x33000 then (word (Memory.load s.mgmt.report (o - 0x31000) 8), s)
  else (0, s)

/-- PEERMAP: bits [31] and [11:0] (Table 25-4). -/
def peerEntry (v : Word) : BitVec 32 := BitVec.ofNat 32 (wf v 0 12 + wf v 31 1 * 2 ^ 31)

/-- A hart's write of the management block: PLIM, FMAXR and PEERMAP; false for any other (R476). -/
def State.mgmtWrite (s : State) (o : Nat) (v : Word) : Bool × State :=
  if o = 0x8 then
    (true, if 2600 ≤ v.toNat ∧ v.toNat ≤ 3200 then { s with mgmt := { s.mgmt with plim := v } } else s)
  else if o = 0x10 then
    (true, if 36 ≤ v.toNat ∧ v.toNat ≤ 84 then { s with mgmt := { s.mgmt with fmaxr := v } } else s)
  else if 0x40 ≤ o ∧ o < 0xC0 then
    (true, { s with mgmt := { s.mgmt with peermap := Store.set s.mgmt.peermap ((o - 0x40) / 8) (peerEntry v) } })
  else (false, s)

/-! ### Peers (R480) -/

/-- Whether a DEV is this device (R358, R480). -/
def State.ownDevice (s : State) (dev : Nat) : Bool := dev == 0 || dev == s.mgmt.devnum.toNat

/-- Whether a live Ilbel link leads to a peer device (R480). -/
def State.reaches (s : State) (dev : Nat) : Bool :=
  s.mgmt.devnum != 0 && (List.range 16).any (fun k =>
    bit (Store.get s.mgmt.route dev).toNat k && !s.mgmt.dead.contains (10, k))

/-! ### The windows (Tables 25-1 and 25-2) -/

/-- The index of this core's fault window in its quadrant (Table 25-2). -/
def State.windowIndex (s : State) : Nat := if s.hostPort then 128 else bits s.core.coreId.toNat 0 7

/-- A hart's read of MMIO at level 1 or 0 (R470): none when it is a violation. -/
def State.mmioRead (s : State) (h : BitVec 1) (pa n : Nat) : Option Word × State :=
  match windowOf pa with
  | .hostAperture o =>
    let (k, s) := s.draw
    (some (word ((Config.hostWord k o).toNat % 256 ^ n)), s)
  | w =>
    if n ≠ 8 then (none, s)
    else match w with
      | .mailbox q o =>
        if o < 0x10000 then (some (word (Memory.load s.host.mailbox (q * 65536 + o) 8)), s)
        else if o = 0x10000 then let r := s.mailboxNext q; (some r.1, r.2)
        else (none, s)
      | .vlog q o =>
        if o = 0 then (some (word (Map.get [] s.home.vlog q).length), s)
        else if o = 0x8 then (some ((Store.get s.home.overrun q).zeroExtend 64), s)
        else if o = 0x10 then
          match s.vlogTake q with
          | (none, s) => (some 0xFFFFFFFFFFFFFFFF, s)
          | (some r, s) => (some 0, s.modHart h (fun x => { x with vlogRecord := r }))
        else if 0x20 ≤ o then (some ((s.hart h).vlogRecord.getD ((o - 0x20) / 8) 0), s)
        else (none, s)
      | .errors q o => if o < 0x40 then (some (Store.get s.ctr.errors (8 * q + o / 8)), s) else (none, s)
      | .fault q c o =>
        if q = s.quadrant ∧ c = s.windowIndex then
          if o = 0 then (some (word s.mmu.queue.length), s)
          else if o = 0x8 then let r := s.faultTake h; (some r.1, r.2)
          else if 0x20 ≤ o then (some ((s.hart h).faultRecord.getD ((o - 0x20) / 8) 0), s)
          else (none, s)
        else if o = 0 then let (k, s) := s.draw; (some (Config.otherCore k), s)
        else (none, s)
      | .directory sl o =>
        if o = 0 then
          match s.dirTake sl with
          | (none, s) => (some 0xFFFFFFFFFFFFFFFF, s)
          | (some (num, r), s) => (some (num.zeroExtend 64), s.modHart h (fun x => { x with dirRecord := r }))
        else if o = 0x10 ∨ o = 0x18 then (some ((s.hart h).dirRecord.getD ((o - 0x10) / 8) 0), s)
        else (none, s)
      | .heat u o =>
        if o < 0x2000 then let r := s.heatRead u (o / 8); (some (word r.1), r.2)
        else if o = 0x2000 then (some (word (s.lfsr u)), s)
        else if o = 0x2008 then (some (Store.get s.ctr.sampled u), s)
        else (none, s)
      | .management o => let r := s.mgmtRead o; (some r.1, r.2)
      | _ => (none, s)

/-- A hart's write of MMIO at level 1 or 0 (R470): false when it is a violation. -/
def State.mmioWrite (s : State) (pa n : Nat) (v : Word) : Bool × State :=
  match windowOf pa with
  | .hostAperture o =>
    (true, { s with host := { s.host with hostMem := Memory.store s.host.hostMem o n v.toNat } })
  | w =>
    if n ≠ 8 then (false, s)
    else match w with
      | .mailbox q o =>
        if o < 0x10000 then
          let v := if o % 256 = 0 then setBits v.toNat 2 30 0 else v.toNat
          (true, { s with host := { s.host with mailbox := Memory.store s.host.mailbox (q * 65536 + o) 8 v } })
        else if o = 0x10008 then (true, s.mailboxNotify q v.toNat)
        else (false, s)
      | .errors q o => if o = 0x40 then (true, s.errorsClear q) else (false, s)
      | .fault q c o =>
        if o = 0x10 then
          if q = s.quadrant ∧ c = s.windowIndex then
            let r : ReplyMsg := { src := s.core.coreId.toNat, before := s.net.nextEntry, word := v }
            (true, { s with net := { s.net with replies := s.net.replies ++ [r] } })
          else (true, s)
        else (false, s)
      | .directory sl o => if o = 0x8 then (true, s.dirAck sl v) else (false, s)
      | .heat u o =>
        if o = 0x2000 then (true, s.heatSeed u v)
        else if o = 0x2010 then (true, s.heatClear u)
        else (false, s)
      | .management o => s.mgmtWrite o v
      | _ => (false, s)

/-- Logs a violation in MMIO by this core, in an access under a CID (R451). -/
def State.mmioViolation (s : State) (kind pa : Nat) (cid : BitVec 16) : State :=
  let b := (windowOf pa).blame s.quadrant
  s.logViolation b.1 s.core.coreId.toNat kind b.2 (word pa) cid.toNat

end Sys2Proof.Machine
end

