-- ==== Sys2Proof/Machine/Access.lean ====
section
/-! DEFINITION. Accesses of harts to the three address spaces (chapters 12 to 14): scratch offsets, the interlock table,
and one load and one store of each class of Table 13-1. -/

namespace Sys2Proof.Machine

/-! ### Local scratch and layer space (R270, R271) -/

/-- The scratch-role ways of local scratch, or of layer space, in ascending way number (R269). -/
def State.scratchWays (s : State) (layer : Bool) : List Nat :=
  (List.range 32).filter (fun w => s.role w == 1 && (decide (16 ≤ w) == layer))

/-- The extent of local scratch or layer space in bytes (R269). -/
def State.extent (s : State) (layer : Bool) : Nat := 262144 * (s.scratchWays layer).length

/-- The SRAM byte of an offset (R270): its way, row and columns. -/
def State.scratchKey (s : State) (layer : Bool) (o : Nat) : Nat :=
  (s.scratchWays layer).getD (o / 262144) 0 * 262144 + o % 262144

/-- Where a byte of an upper scratch way, by its SRAM key, lies in the core's slot of the spill region (R284; way by way,
log entry 99). -/
def State.slotKey (s : State) (k : Nat) : Nat := 0x5F80000000 + s.core.coreId.toNat % 512 * 2 ^ 22 + (k - 16 * 262144)

/-- A byte of local scratch, or of layer space in its banks or its slot (R270, R284). -/
def State.scratchByte (s : State) (layer : Bool) (o : Nat) : Byte :=
  if layer && s.relocated then Memory.byte s.home.mem (s.slotKey (s.scratchKey true o))
  else Memory.byte s.core.sram (s.scratchKey layer o)

/-- n bytes of local scratch or layer space at an offset. -/
def State.scratchLoad (s : State) (layer : Bool) (o : Nat) : Nat → Nat
  | 0 => 0
  | n + 1 => (s.scratchByte layer o).toNat + 256 * s.scratchLoad layer (o + 1) n

/-- An access to relocated layer space is one of the controller of its slot (R284, R454). -/
def State.slotAccess (s : State) (layer : Bool) (o : Nat) : State :=
  if layer && s.relocated then (s.heat (s.slotKey (s.scratchKey true o))).2 else s

/-- Crossings between the compute die and upper array ways: beats of the layer bus, or, where that has given way to the
spill region, accesses of the controllers of the core's slot, through which they are staged (R284). -/
def State.crossings (s : State) (n : Nat) : State :=
  if s.relocated then (List.range n).foldl (fun s _ =>
    let (k, s) := s.draw
    (s.heat (s.slotKey (16 * 262144 + Config.stagePlace k % 2 ^ 22))).2) s
  else s.beats n

/-- The SRAM with n bytes stored at an offset. -/
def State.scratchPut (s : State) (layer : Bool) (o n v : Nat) : Memory :=
  (bytesOf v n).foldl (fun m e => Memory.setByte m (s.scratchKey layer (o + e.1)) e.2) s.core.sram

/-- A store to local scratch or layer space. -/
def State.scratchStore (s : State) (layer : Bool) (o n v : Nat) : State :=
  if layer && s.relocated then
    { s with home := { s.home with
        mem := (bytesOf v n).foldl (fun m e => Memory.setByte m (s.slotKey (s.scratchKey true (o + e.1))) e.2) s.home.mem } }
  else { s with core := { s.core with sram := s.scratchPut layer o n v } }

/-! ### Posted scratch stores (R308) -/

/-- A scalar store reaches its bank, by way of the layer bus for layer space (Table 12-2). -/
def State.bankStore (s : State) (x : ScratchStore) : State :=
  ((if x.layer then s.beats 1 else s).slotAccess x.layer x.offset).scratchStore x.layer x.offset 8 x.v.toNat

/-- Whether two scalar stores are to the same word. -/
def ScratchStore.meets (x y : ScratchStore) : Bool := x.layer == y.layer && x.offset == y.offset

/-- A hart's scalar stores have all reached their banks; none while one must wait for the layer bus (R277). -/
def State.settleStores (s : State) (h : BitVec 1) : Option State :=
  match (s.hart h).stores with
  | [] => some s
  | l =>
    if l.any (·.layer) && s.layerHeld then none
    else some (l.foldl State.bankStore (s.modHart h (fun x => { x with stores := [] })))

/-- A word of a hart that lets its own scalar stores reach their banks first (R289, R308). -/
def State.withStores (s : State) (h : BitVec 1) (k : State → Result) : Result :=
  match s.settleStores h with
  | some s => k s
  | none => .next s

/-- The stores that reach their banks at a tick: which do is free, but those to one word do in their order (R290, R308).
Answers those that stay. -/
def reachBanks : List ScratchStore → List ScratchStore → State → List ScratchStore × State
  | [], kept, s => (kept, s)
  | x :: xs, kept, s =>
    if kept.any x.meets || (x.layer && s.layerHeld) then reachBanks xs (kept ++ [x]) s
    else
      let (n, s) := s.draw
      if Config.storeLate n then reachBanks xs (kept ++ [x]) s else reachBanks xs kept (s.bankStore x)

/-- A hart's posted scratch stores go on their way (R308). -/
def State.drainStores (s : State) (h : BitVec 1) : State :=
  match (s.hart h).stores with
  | [] => s
  | l => let r := reachBanks l [] s; r.2.modHart h (fun x => { x with stores := r.1 })

/-- The aligned 8-byte word at an offset as a hart sees it: its own posted store to it counts at once (R308). -/
def State.scratchWord (s : State) (h : BitVec 1) (layer : Bool) (o : Nat) : Word :=
  match (s.hart h).stores.reverse.find? (fun x => x.layer == layer && x.offset == o) with
  | some x => x.v
  | none => word (s.scratchLoad layer o 8)

/-! ### Bytes of a way -/

/-- The entries of 262,144 bytes of a store from `a`, moved to `b`. -/
def movedBytes (m : Memory) (a b : Nat) : List (Nat × Byte) := (Map.slice m a 262144).map (fun e => (e.1 - a + b, e.2))

/-- A memory with a list of bytes written. -/
def putBytes (l : List (Nat × Byte)) (m : Memory) : Memory := l.foldl (fun m e => Memory.setByte m e.1 e.2) m

/-- An upper scratch way's bytes go to its part of the core's slot, where layer space lies there (R284). -/
def State.toSlot (s : State) (k : Nat) : State :=
  if s.relocated && decide (16 ≤ k) then
    let a := k * 262144
    let b := s.slotKey a
    let mem := putBytes (movedBytes s.core.sram a b) (Map.clear s.home.mem b 262144)
    { s with home := { s.home with mem := mem }, core := { s.core with sram := Map.clear s.core.sram a 262144 } }
  else s

/-- An upper way that turns to array computation takes its bytes back from the slot (R161, R284). -/
def State.fromSlot (s : State) (k : Nat) : State :=
  if s.relocated && decide (16 ≤ k) then
    let a := k * 262144
    let b := s.slotKey a
    let rows := putBytes (movedBytes s.home.mem b a) (Map.clear s.core.sram a 262144)
    { s with core := { s.core with sram := rows }, home := { s.home with mem := Map.clear s.home.mem b 262144 } }
  else s

/-- The rows of a way, wherever its bytes lie. -/
def State.wayBytes (s : State) (k : Nat) : Memory :=
  if s.relocated && decide (16 ≤ k) && s.role k == 1 then movedBytes s.home.mem (s.slotKey (k * 262144)) 0
  else movedBytes s.core.sram (k * 262144) 0

/-- Whether n bytes at an offset lie wholly within their space (R271). -/
def State.within (s : State) (layer : Bool) (o n : Nat) : Bool := decide (o + n ≤ s.extent layer)

/-! ### The interlock table (R310, R447, R448) -/

/-- The valid entries of the interlock table with the CIDs of their transfers. -/
def State.interlocks (s : State) : List (Range × BitVec 16) :=
  (s.copy.slots.flatMap (fun e =>
    match e.2 with
    | some c => c.ranges.map (fun r => (r, c.cid))
    | none => [])) ++
  (s.stream.slots.flatMap (fun e =>
    match e.2 with
    | some c => c.ranges.map (fun r => (r, c.cid))
    | none => []))

/-- Whether an access to lo ≤ byte < hi of a space waits (R448): a load on a destination, a store on any entry. -/
def State.interlocked (s : State) (space : Nat) (lo hi : Int) (store : Bool) : Bool :=
  s.interlocks.any (fun e => e.1.space == space && (space != 0 || e.2 == s.cid16) && (store || e.1.dst) &&
    decide (e.1.lo < hi) && decide (lo < e.1.hi))

/-! ### Order against array memory instructions and posted stores (R289) -/

/-- Space of an array memory instruction: 0 global, 1 local, 2 layer; none for any other. -/
def ArrOp.space : ArrOp → Option Nat
  | .vld | .vlds | .vldx | .vldff | .vst | .vsts | .vstx | .vstr | .waitv => some 0
  | .vldl | .vstl => some 1
  | .vldy | .vldys | .vsty | .vstys => some 2
  | _ => none

/-- Whether an element of a VSTR on its way lies in n bytes at a home address. -/
def State.vstrOver (s : State) (a n : Nat) : Bool :=
  s.home.vstr.any (fun v => decide (v.pa < a + n) && decide (a < v.pa + 4))

/-- Whether a queued array memory instruction whose data phase has not been made, or an element of a VSTR on its way,
touches n bytes at a home address or offset of a space (R289). -/
def State.arrayTouches (s : State) (space a n : Nat) : Bool :=
  s.core.queue.any (fun q => q.stage == .waiting && q.w.op != .waitv && q.w.op.space == some space &&
    q.addrs.any (fun e => !e.mmio && decide (e.name < a + n) && decide (a < e.name + 8))) ||
  (space == 0 && s.vstrOver a n)

/-- Whether a posted store of a hart overlaps n bytes at a home address (R289). -/
def State.postedOver (s : State) (h : BitVec 1) (a n : Nat) : Bool :=
  s.home.posted.any (fun p => p.hart == h && !p.done && decide (p.pa < a + n) && decide (a < p.pa + p.n))

/-! ### Global accesses -/

/-- log2 of an access size. -/
def lg (n : Nat) : Nat := Nat.log2 n

/-- What a global access of a hart answers. -/
inductive Got where
  | ok (v : Nat) (s : State)
  /-- an error response: 0 is read, or nothing written, and trap 0x11 is pending (R317) -/
  | error (s : State)
  /-- the hart traps or parks -/
  | fault (r : Result)
  /-- the hart stays at the instruction -/
  | wait (s : State)

/-- Goes on with the value of an access. -/
def Got.andThen (g : Got) (k : Nat → State → Result) : Result :=
  match g with
  | .ok v s => k v s
  | .error s => k 0 s
  | .fault r => r
  | .wait s => .next s

/-- A scalar fault of a hart (R316). -/
def State.scalarFault (s : State) (h : BitVec 1) (cause : Nat) (va : Word) (kind : Nat) (wr : Bool) (n : Nat) : Result :=
  s.hartFault h cause va kind wr (lg n) 0 0 1

/-- The error response of a load: 0, with trap 0x11 pending (R317). -/
def State.loadError (s : State) (h : BitVec 1) (va : Word) (kind n : Nat) (wr : Bool) : State :=
  s.busError h va (finfo 0 wr (lg n) kind 0) 0

/-- A LOAD OF A HART from global memory: n bytes at a virtual address, with alignment, interlock, translation, and the
class of Table 13-1 (R287, R294, R315, R316, R448). -/
def State.loadVa (s : State) (h : BitVec 1) (va : Word) (n kind : Nat) : Got :=
  if va.toNat % n ≠ 0 then .fault (s.scalarFault h 0x03 va kind false n)
  else if s.interlocked 0 va.toNat (va.toNat + n) false then .wait (s.stall h 0x06)
  else
    match s.translate h .read va with
    | (.wait, s) => .wait s
    | (.fault c _, s) => .fault (s.scalarFault h c va kind false n)
    | (.ok t, s) =>
      if t.mmio then
        if s.postedOver h t.name n then .wait s
        else match s.mmioRead h t.name n with
        | (some v, s) => .ok v.toNat s
        | (none, s) => .error ((s.mmioViolation h.toNat t.name s.cid16).loadError h va kind n false)
      else if s.arrayTouches 0 t.name n then .wait s
      else if t.ms then
        if s.postedOver h t.name n then .wait s
        else match s.homeRead h.toNat s.cid16.toNat t.name n with
          | (some v, s) => .ok v s
          | (none, s) => .error (s.loadError h va kind n false)
      else if s.cacheWays.isEmpty && s.postedOver h t.name n then .wait s
      else
        match s.cacheLoad h.toNat t.name n s.cid16 t.vpn with
        | (.ok v, s) => .ok v s
        | (.error, s) => .error (s.loadError h va kind n false)
        | (.wait, s) => .wait s

/-- A STORE OF A HART to global memory (R274, R287, R315, R316, R448).  A cached store writes the core cache; an
uncached one is posted to its home or its window (R303, R390), and one to a compressed frame is made there at once, so that an overflow parks the
hart precisely (R440). -/
def State.storeVa (s : State) (h : BitVec 1) (va : Word) (n v kind : Nat) : Got :=
  if va.toNat % n ≠ 0 then .fault (s.scalarFault h 0x03 va kind true n)
  else if s.interlocked 0 va.toNat (va.toNat + n) true then .wait (s.stall h 0x06)
  else
    match s.translate h .write va with
    | (.wait, s) => .wait s
    | (.fault c _, s) => .fault (s.scalarFault h c va kind true n)
    | (.ok t, s) =>
      if t.mmio then
        let p : Posted :=
          { hart := h, va := va, pa := t.name, n := n, v := word v, done := false, cid := s.cid16, mmio := true }
        .ok 0 { s with home := { s.home with posted := s.home.posted ++ [p] } }
      else if s.arrayTouches 0 t.name n then .wait s
      else if t.ms || s.cacheWays.isEmpty then
        if (Map.get none s.home.frames (frameOf t.name).1).isSome then
          match s.homeWrite h.toNat s.cid16.toNat t.name n v with
          | (.done, s) => .ok 0 s
          | (.error, s) => .error (s.loadError h va kind n true)
          | (.overflow, s) => .fault (s.scalarFault h 0x10 va kind true n)
          | (.full, s) => .wait s
        else
          let p : Posted :=
            { hart := h, va := va, pa := t.name, n := n, v := word v, done := false, cid := s.cid16, ms := t.ms }
          .ok 0 { s with home := { s.home with posted := s.home.posted ++ [p] } }
      else
        match s.cacheStore h.toNat t.name n (v % 256 ^ n) s.cid16 t.vpn with
        | (.error, s) => .error (s.loadError h va kind n true)
        | (.full, s) => .wait s
        | (_, s) => .ok 0 s

/-! ### Scalar loads and stores (R318, R319) -/

/-- The address ga + sext(imm9) × s of the L format (R63). -/
def lAddr (base : Word) (imm : BitVec 9) (n : Nat) : Word := base + word n * imm.signExtend 64

/-- A scalar load: the loaded bytes, extended, arrive later (R318, R319). -/
def loadOp (d a : BitVec 7) (imm : BitVec 9) (n : Nat) (signed : Bool) (s : State) : Result :=
  issue [d, a] s (fun h =>
    (s.loadVa h (lAddr ((s.hart h).reg a.toNat) imm n) n 1).andThen (fun v s =>
      let x := if signed then wordOfInt (sext v (8 * n)) else word v
      .next ((s.lateReg h d.toNat x 0).retire h)))

/-- A scalar store: it retires at issue (R318, R319). -/
def storeOp (d a : BitVec 7) (imm : BitVec 9) (n : Nat) (s : State) : Result :=
  issue [d, a] s (fun h =>
    (s.storeVa h (lAddr ((s.hart h).reg a.toNat) imm n) n (((s.hart h).reg d.toNat).toNat % 256 ^ n) 1).andThen
      (fun _ s => .next (s.retire h)))

/-- LB (Table 14-1). -/
def execLb (d a : BitVec 7) (imm : BitVec 9) (s : State) : Result := loadOp d a imm 1 true s
/-- LH (Table 14-1). -/
def execLh (d a : BitVec 7) (imm : BitVec 9) (s : State) : Result := loadOp d a imm 2 true s
/-- LW (Table 14-1). -/
def execLw (d a : BitVec 7) (imm : BitVec 9) (s : State) : Result := loadOp d a imm 4 true s
/-- LD (Table 14-1). -/
def execLd (d a : BitVec 7) (imm : BitVec 9) (s : State) : Result := loadOp d a imm 8 false s
/-- LBZ (Table 14-1). -/
def execLbz (d a : BitVec 7) (imm : BitVec 9) (s : State) : Result := loadOp d a imm 1 false s
/-- LHZ (Table 14-1). -/
def execLhz (d a : BitVec 7) (imm : BitVec 9) (s : State) : Result := loadOp d a imm 2 false s
/-- LWZ (Table 14-1). -/
def execLwz (d a : BitVec 7) (imm : BitVec 9) (s : State) : Result := loadOp d a imm 4 false s
/-- SB (Table 14-1). -/
def execSb (d a : BitVec 7) (imm : BitVec 9) (s : State) : Result := storeOp d a imm 1 s
/-- SH (Table 14-1). -/
def execSh (d a : BitVec 7) (imm : BitVec 9) (s : State) : Result := storeOp d a imm 2 s
/-- SW (Table 14-1). -/
def execSw (d a : BitVec 7) (imm : BitVec 9) (s : State) : Result := storeOp d a imm 4 s
/-- SD (Table 14-1). -/
def execSd (d a : BitVec 7) (imm : BitVec 9) (s : State) : Result := storeOp d a imm 8 s

/-! ### LSP (R320) -/

/-- The offset ga + sext(imm10) × 8 of the LS format (R63). -/
def lsOffset (base : Word) (imm : BitVec 10) : Nat := (base + 8 * imm.signExtend 64).toNat

/-- The checks of a scalar local or layer access (R271, R320): alignment, extent, interlock, a stall of
the layer buses, order behind array memory instructions. -/
def lspCheck (s : State) (h : BitVec 1) (layer : Bool) (o : Nat) (wr : Bool) (k : Result) : Result :=
  if o % 8 ≠ 0 then s.scalarFault h 0x03 (word o) 6 wr 8
  else if !s.within layer o 8 then s.scalarFault h 0x07 (word o) 6 wr 8
  else if s.interlocked (if layer then 2 else 1) o (o + 8) wr then .next (s.stall h 0x06)
  else if layer && s.layerHeld then .next s
  else if s.arrayTouches (if layer then 2 else 1) o 8 then .next s
  else k

/-- A load of local scratch or layer space (R308, R320). -/
def lspLoad (layer : Bool) (d a : BitVec 7) (imm : BitVec 10) (s : State) : Result :=
  issue [d, a] s (fun h =>
    let o := lsOffset ((s.hart h).reg a.toNat) imm
    lspCheck s h layer o false
      (.next ((((if layer then s.beats 1 else s).slotAccess layer o).lateReg h d.toNat (s.scratchWord h layer o) 0).retire h)))

/-- A store to local scratch or layer space (R308, R320): it is posted. -/
def lspStore (layer : Bool) (d a : BitVec 7) (imm : BitVec 10) (s : State) : Result :=
  issue [d, a] s (fun h =>
    let o := lsOffset ((s.hart h).reg a.toNat) imm
    lspCheck s h layer o true
      (let x : ScratchStore := { layer := layer, offset := o, v := (s.hart h).reg d.toNat }
       .next ((s.modHart h (fun y => { y with stores := y.stores ++ [x] })).retire h)))

/-- LDL (R320). -/
def execLdl (d a : BitVec 7) (imm : BitVec 10) (s : State) : Result := lspLoad false d a imm s
/-- STL (R320). -/
def execStl (d a : BitVec 7) (imm : BitVec 10) (s : State) : Result := lspStore false d a imm s
/-- LDY (R320). -/
def execLdy (d a : BitVec 7) (imm : BitVec 10) (s : State) : Result := lspLoad true d a imm s
/-- STY (R320). -/
def execSty (d a : BitVec 7) (imm : BitVec 10) (s : State) : Result := lspStore true d a imm s

end Sys2Proof.Machine
end

