-- ==== Sys2Proof/Machine/Amo.lean ====
section
/-! DEFINITION. Atomics (R304, R330). -/

namespace Sys2Proof.Machine

/-- The new value at the home for an AMO function fn5 (Table 14-6): `old`, operand `b` and expected value `c` are read
in the low `8n` bits. -/
def amoNew (fn n old b c : Nat) : Nat :=
  let w := 8 * n
  let old := old % 2 ^ w
  let b := b % 2 ^ w
  match fn % 16 with
  | 0 => (old + b) % 2 ^ w
  | 1 => b
  | 2 => old &&& b
  | 3 => old ||| b
  | 4 => old ^^^ b
  | 5 => if sext b w < sext old w then b else old
  | 6 => if sext old w < sext b w then b else old
  | 7 => if b < old then b else old
  | 8 => if old < b then b else old
  | 9 => if old = c % 2 ^ w then b else old
  | _ => (roundF 0x16 mRNE 0 false (Num.add false (val 0x16 old) (val 0x16 b)).1).1

/-- The old value as gd receives it (R330): 32-bit values sign-extended, except AFADD's. -/
def amoOld (fn n old : Nat) : Word :=
  if n = 8 then word old else if fn = 0x1A then word old else wordOfInt (sext old 32)

/-- An atomic of a hart (R330): both permissions, no MMIO; the core gives up its copy of the sector (R304); the home
replaces the word in one step, and the old value arrives later.  A compression overflow is a precise fault: nothing is
written, and the hart parks (R316; log entry 74). -/
def amoOp (fn : Nat) (n : Nat) (d a b : BitVec 7) (s : State) : Result :=
  issue [d, a, b] s (fun h =>
    let x := s.hart h
    let va := x.reg a.toNat
    let bv := (x.reg b.toNat).toNat
    let cv := (x.reg d.toNat).toNat
    if va.toNat % n ≠ 0 then s.scalarFault h 0x03 va 2 true n
    else if s.interlocked 0 va.toNat (va.toNat + n) true then .next (s.stall h 0x06)
    else match s.translate h .both va with
      | (.wait, s) => .next s
      | (.fault c _, s) => s.scalarFault h c va 2 true n
      | (.ok t, s) =>
        if t.mmio then s.scalarFault h 0x07 va 2 true n
        else if s.arrayTouches 0 t.name n || s.postedOver h t.name n then .next s
        else match (if t.ms then some s else s.evictSector t.name) with
          | none => .next s
          | some s1 =>
            match s1.homeAtomic h.toNat s.cid16.toNat t.name n (fun old => amoNew fn n old bv cv) (s1.uncached t.name t.ms va) with
            | (_, .full, _) => .next s
            | (_, .overflow, _) => s1.scalarFault h 0x10 va 2 true n
            | (some old, _, s2) => .next ((s2.lateReg h d.toNat (amoOld fn n old) 0).retire h)
            | (none, _, s2) => .next (((s2.loadError h va 2 n true).lateReg h d.toNat 0 0).retire h))

/-- AADD (Table 14-6). -/
def execAadd (d a b : BitVec 7) (s : State) : Result := amoOp 0x00 8 d a b s
/-- ASWAP (Table 14-6). -/
def execAswap (d a b : BitVec 7) (s : State) : Result := amoOp 0x01 8 d a b s
/-- AAND (Table 14-6). -/
def execAand (d a b : BitVec 7) (s : State) : Result := amoOp 0x02 8 d a b s
/-- AOR (Table 14-6). -/
def execAor (d a b : BitVec 7) (s : State) : Result := amoOp 0x03 8 d a b s
/-- AXOR (Table 14-6). -/
def execAxor (d a b : BitVec 7) (s : State) : Result := amoOp 0x04 8 d a b s
/-- AMIN (Table 14-6). -/
def execAmin (d a b : BitVec 7) (s : State) : Result := amoOp 0x05 8 d a b s
/-- AMAX (Table 14-6). -/
def execAmax (d a b : BitVec 7) (s : State) : Result := amoOp 0x06 8 d a b s
/-- AMINN (Table 14-6). -/
def execAminn (d a b : BitVec 7) (s : State) : Result := amoOp 0x07 8 d a b s
/-- AMAXN (Table 14-6). -/
def execAmaxn (d a b : BitVec 7) (s : State) : Result := amoOp 0x08 8 d a b s
/-- ACAS (Table 14-6): the expected value is read from gd. -/
def execAcas (d a b : BitVec 7) (s : State) : Result := amoOp 0x09 8 d a b s
/-- AADDW (Table 14-6). -/
def execAaddw (d a b : BitVec 7) (s : State) : Result := amoOp 0x10 4 d a b s
/-- ASWAPW (Table 14-6). -/
def execAswapw (d a b : BitVec 7) (s : State) : Result := amoOp 0x11 4 d a b s
/-- AANDW (Table 14-6). -/
def execAandw (d a b : BitVec 7) (s : State) : Result := amoOp 0x12 4 d a b s
/-- AORW (Table 14-6). -/
def execAorw (d a b : BitVec 7) (s : State) : Result := amoOp 0x13 4 d a b s
/-- AXORW (Table 14-6). -/
def execAxorw (d a b : BitVec 7) (s : State) : Result := amoOp 0x14 4 d a b s
/-- AMINW (Table 14-6). -/
def execAminw (d a b : BitVec 7) (s : State) : Result := amoOp 0x15 4 d a b s
/-- AMAXW (Table 14-6). -/
def execAmaxw (d a b : BitVec 7) (s : State) : Result := amoOp 0x16 4 d a b s
/-- AMINNW (Table 14-6). -/
def execAminnw (d a b : BitVec 7) (s : State) : Result := amoOp 0x17 4 d a b s
/-- AMAXNW (Table 14-6). -/
def execAmaxnw (d a b : BitVec 7) (s : State) : Result := amoOp 0x18 4 d a b s
/-- ACASW (Table 14-6). -/
def execAcasw (d a b : BitVec 7) (s : State) : Result := amoOp 0x19 4 d a b s
/-- AFADD (Table 14-6): f32 addition at the home, to nearest even, without flags. -/
def execAfadd (d a b : BitVec 7) (s : State) : Result := amoOp 0x1A 4 d a b s

/-- HOME_ATOMIC (R304): an atomic of another agent reaches its home; fn as in Table 14-6. -/
def execHomeAtomic (fn : BitVec 5) (pa : Nat) (b c : BitVec 64) (s : State) : Result :=
  let n := if fn.toNat < 16 then 8 else 4
  if pa % n ≠ 0 then .next s
  else match s.readError pa with
    | some e => .next (s.foreignError pa e)
    | none => .next (s.homeAtomic 0 0 pa n (fun old => amoNew fn.toNat n old b.toNat c.toNat) (.slice false 0)).2.2

end Sys2Proof.Machine
end

