-- ==== Sys2Proof/Machine/Sync.lean ====
section
/-! DEFINITION. Sync instructions, fences, monitors and the steps of homes (R293 to R309, R331 to R333). -/

namespace Sys2Proof.Machine

/-! ### Object addresses (R295, R331) -/

/-- The home address of the sync object at `va`: 64-byte aligned, on a page that allows reading and writing and that
is neither MS nor MMIO (R295, R331). -/
def syncObject (s : State) (h : BitVec 1) (va : Word) (k : Nat → State → Result) : Result :=
  if va.toNat % 64 ≠ 0 then s.scalarFault h 0x03 va 2 true 8
  else match s.translate h .both va with
    | (.wait, s) => .next s
    | (.fault c _, s) => s.scalarFault h c va 2 true 8
    | (.ok t, s) => if t.ms || t.mmio then s.scalarFault h 0x07 va 2 true 8 else k t.name s

/-- An error response to a sync instruction (R317): it is logged, and trap 0x11 becomes pending. -/
def State.syncError (s : State) (h : BitVec 1) (va : Word) (pa : Nat) (e : Nat × Nat) : State :=
  (s.logError h.toNat pa s.cid16.toNat e).loadError h va 2 8 true

/-- This hart as a party of the directory (R296). -/
def State.party (s : State) (h : BitVec 1) : Party := { core := s.core.coreId, hart := h, cid := s.cid16 }

/-! ### SBIND and SUNBIND (R332) -/

/-- Whether a base and a length name a range within the canonical space (R332). -/
def rangeOk (base len : Word) : Bool :=
  decide (len ≠ 0) && canonical base &&
    decide (base.toNat + len.toNat ≤ if base.toNat < 2 ^ 47 then 2 ^ 47 else 2 ^ 64)

/-- The status of SBIND or SUNBIND at the home, and the bytes it writes (R332): `pair` is SBIND's, `index`
SUNBIND's. -/
def State.bindStatus (s : State) (pa : Nat) (pair : Option (Word × Word)) (index : Nat) : Nat × List (Nat × Byte) :=
  let count := s.homeValue (pa + 0x30) 1
  if (s.dirEntry pa).isSome then (2, [])
  else match pair with
    | some (base, len) =>
      if !rangeOk base len then (3, [])
      else if count = 3 then (1, [])
      else (0, (bytesOf base.toNat 8).map (fun e => (16 * count + e.1, e.2)) ++
        (bytesOf len.toNat 8).map (fun e => (16 * count + 8 + e.1, e.2)) ++ [(0x30, BitVec.ofNat 8 (count + 1))])
    | none =>
      if count ≤ index then (3, [])
      else
        let above := (List.range 48).filterMap (fun o =>
          if 16 * index ≤ o then
            some (o, if o + 16 < 48 then BitVec.ofNat 8 (s.homeValue (pa + o + 16) 1) else 0)
          else none)
        (0, above ++ [(0x30, BitVec.ofNat 8 (count - 1))])

/-- SBIND and SUNBIND at the home, as an AMO: the core gives up its copy of the object's sector, the record is written
at its home, and the status arrives later (R304, R332). -/
def bindAtHome (d : BitVec 7) (h : BitVec 1) (va : Word) (pa : Nat) (pair : Option (Word × Word)) (index : Nat)
    (s : State) : Result :=
  match s.readError pa with
  | some e => .next (((s.syncError h va pa e).lateReg h d.toNat 0 0).retire h)
  | none =>
    if s.interlocked 0 va.toNat (va.toNat + 64) true then .next (s.stall h 0x06)
    else if s.arrayTouches 0 pa 64 || s.postedOver h pa 64 then .next s
    else match s.evictSector pa with
      | none => .next s
      | some s1 =>
        let (st, bs) := s1.bindStatus pa pair index
        let (r, s2) := if bs.isEmpty then (.done, s1)
          else s1.homeWriteBytes h.toNat s1.cid16.toNat pa bs (s1.uncached pa false va)
        if r = .full then .next s
        else if r = .overflow then s1.scalarFault h 0x10 va 2 true 8
        else .next ((s2.lateReg h d.toNat (word st) 0).retire h)

/-- SBIND (R332): reads the pair by loads of the hart and adds it as a range at the home.  An error response to either
load leaves gd := 0 and binds nothing (R118, R317). -/
def execSbind (d a b : BitVec 7) (s : State) : Result :=
  issue [d, a, b] s (fun h =>
    let va := (s.hart h).reg a.toNat
    let vb := (s.hart h).reg b.toNat
    syncObject s h va (fun pa s =>
      if vb.toNat % 8 ≠ 0 then s.scalarFault h 0x03 vb 2 false 8
      else match s.loadVa h vb 8 2 with
        | .error s => .next ((s.lateReg h d.toNat 0 0).retire h)
        | g => g.andThen (fun base s =>
          match s.loadVa h (vb + 8) 8 2 with
          | .error s => .next ((s.lateReg h d.toNat 0 0).retire h)
          | g => g.andThen (fun len s => bindAtHome d h va pa (some (word base, word len)) 0 s))))

/-- SUNBIND (R332): removes the range of an index at the home. -/
def execSunbind (d a b : BitVec 7) (s : State) : Result :=
  issue [d, a, b] s (fun h =>
    let va := (s.hart h).reg a.toNat
    let index := ((s.hart h).reg b.toNat).toNat
    syncObject s h va (fun pa s => bindAtHome d h va pa none index s))

/-! ### Acquires (R296, R297) -/

/-- Whether a request is a context's acquire, or release, of an object. -/
def SyncReq.of (r : SyncReq) (cid : BitVec 16) (pa : Nat) (release : Bool) : Bool :=
  r.pa == pa && r.cid == cid && (r.kind == 3) == release

/-- The hart's request for an object under a CID, when it has one (R296). -/
def Hart.request (x : Hart) (cid : BitVec 16) (pa : Nat) (release : Bool) : Option SyncReq :=
  x.sync.find? (fun r => r.of cid pa release)

/-- The hart without its request for an object. -/
def Hart.endRequest (x : Hart) (cid : BitVec 16) (pa : Nat) (release : Bool) : Hart :=
  { x with sync := x.sync.filter (fun r => !r.of cid pa release) }

/-- The hart with a request added. -/
def State.addRequest (s : State) (h : BitVec 1) (r : SyncReq) : State :=
  s.modHart h (fun x => { x with sync := x.sync ++ [r] })

/-- Steps 3 and 4 of R297: the core self-invalidates and the acquire completes. -/
def acquired (h : BitVec 1) (pa : Nat) (s : State) : Result :=
  (s.selfInvalidate (s.ranges pa)).andThen (fun s1 =>
    .next ((s1.modHart h (fun x => x.endRequest s1.cid16 pa false)).retire h))

/-- SACQ and SACQS (R297): the request is sent and the hart sleeps; executed again, it finds its own request. -/
def acquireOp (kind : BitVec 2) (a : BitVec 7) (s : State) : Result :=
  issue [a] s (fun h =>
    let va := (s.hart h).reg a.toNat
    syncObject s h va (fun pa s =>
      match s.readError pa with
      | some e => .next ((s.syncError h va pa e).retire h)
      | none =>
        match (s.hart h).request s.cid16 pa false with
        | none =>
          .next ((s.addRequest h { pa := pa, va := va, cid := s.cid16, kind := kind, stage := .sent }).sleepIn h (.sacq pa))
        | some r => if r.stage = .granted then acquired h pa s else .next (s.sleepIn h (.sacq pa))))

/-- SACQ (R296, R297). -/
def execSacq (a : BitVec 7) (s : State) : Result := acquireOp 0 a s
/-- SACQS (R296, R297). -/
def execSacqs (a : BitVec 7) (s : State) : Result := acquireOp 1 a s

/-- STRY (R296, R331): writes 1 and acts as a granted SACQ, or writes 0. -/
def execStry (d a : BitVec 7) (s : State) : Result :=
  issue [d, a] s (fun h =>
    let va := (s.hart h).reg a.toNat
    syncObject s h va (fun pa s =>
      match s.readError pa with
      | some e => .next (((s.syncError h va pa e).lateReg h d.toNat 0 0).retire h)
      | none =>
        if (s.tryAtHome (s.party h) pa).1 then
          (s.selfInvalidate (s.ranges pa)).andThen (fun s1 =>
            .next ((((s1.tryAtHome (s1.party h) pa).2).lateReg h d.toNat 1 0).retire h))
        else .next ((s.lateReg h d.toNat 0 0).retire h)))

/-! ### Releases (R298) -/

/-- Whether an array instruction stores to memory. -/
def ArrOp.stores : ArrOp → Bool
  | .vst | .vsts | .vstx | .vstr | .vstl | .vsty | .vstys => true
  | _ => false

/-- Whether the hart has array memory instructions whose data phase has not been made, among those `p` selects. -/
def State.arrayPending (s : State) (h : BitVec 1) (p : ArrOp → Bool) : Bool :=
  s.core.queue.any (fun q => q.hart == h && q.stage == .waiting && q.w.op.space.isSome && p q.w.op)

/-- Whether uncached stores, AMOs or VSTR elements of the hart are still on their way (R298, R306). -/
def State.storesPending (s : State) (h : BitVec 1) : Bool :=
  s.home.posted.any (fun p => p.hart == h) || s.home.vstr.any (fun v => v.hart == h)

/-- Whether a range of the interlock table overlaps one of the bound ranges in global memory. -/
def Range.hits (r : Range) (rs : List (Nat × Nat)) : Bool :=
  r.space == 0 && rs.any (fun b => decide (r.lo < b.1 + b.2) && decide ((b.1 : Int) < r.hi))

/-- Whether an earlier copy or stream of the hart overlaps a bound range (R298, step 2). -/
def State.enginesOver (s : State) (h : BitVec 1) (rs : List (Nat × Nat)) : Bool :=
  s.copy.slots.any (fun e =>
    match e.2 with
    | some c => c.hart == h && c.cid == s.cid16 && c.ranges.any (fun r => r.hits rs)
    | none => false) ||
  s.stream.slots.any (fun e =>
    match e.2 with
    | some c => c.hart == h && c.cid == s.cid16 && (c.ranges ++ c.touched).any (fun r => r.hits rs)
    | none => false)

/-- Steps 1 to 3 of R298 over ranges, once the hart's scratch stores have reached their banks (R308). -/
def State.releaseRanges (s : State) (h : BitVec 1) (rs : List (Nat × Nat)) : Sweep :=
  if s.arrayPending h ArrOp.stores || s.storesPending h || s.enginesOver h rs then .wait s
  else match s.settleStores h with
    | none => .wait s
    | some s1 => s1.releaseLines rs

/-- SREL (R298, R444): the hart waits at the instruction until every step has ended. -/
def execSrel (a : BitVec 7) (s : State) : Result :=
  issue [a] s (fun h =>
    let va := (s.hart h).reg a.toNat
    syncObject s h va (fun pa s =>
      match s.readError pa with
      | some e => .next ((s.syncError h va pa e).retire h)
      | none =>
        match (s.hart h).request s.cid16 pa true with
        | some r =>
          if r.stage = .granted then .next ((s.modHart h (fun x => x.endRequest s.cid16 pa true)).retire h) else .next s
        | none =>
          (s.releaseRanges h (s.ranges pa)).andThen (fun s1 =>
            match s1.releaseAtHome (s1.party h) pa with
            | (true, s2) => .next (s2.retire h)
            | (false, s2) =>
              if s1.openEvents (s1.slice pa) < 256 then
                .next (s2.addRequest h { pa := pa, va := va, cid := s2.cid16, kind := 3, stage := .queued })
              else .next s1)))

/-! ### FENCE (R306, R307) -/

/-- Whether copies or streams of the hart have not completed (Table 13-5). -/
def State.enginesPending (s : State) (h : BitVec 1) : Bool :=
  s.copy.slots.any (fun e =>
    match e.2 with
    | some c => c.hart == h
    | none => false) ||
  s.stream.slots.any (fun e =>
    match e.2 with
    | some c => c.hart == h
    | none => false)

/-- Whether an earlier access of the hart of the kind is not performed at the scope, or has not reached the layer
(Tables 13-3 to 13-5). -/
def State.fenceWaits (s : State) (h : BitVec 1) (scope layer kind : Nat) : Bool :=
  (match kind with
   | 0 => scope != 0 && (s.storesPending h || s.arrayPending h (fun _ => true))
   | 1 => scope != 0 && (s.storesPending h || s.arrayPending h ArrOp.stores)
   | 2 => s.net.entries.any (fun e => e.2.1 == h && decide (e.2.2.1.toNat < 3))
   | _ => s.enginesPending h) ||
  (scope == 5 && s.net.flight.any (fun p => p.hart == h && wf p.dest 52 12 != 0)) ||
  (match layer with
   | 0 => false
   | 1 => s.arrayPending h (fun _ => true) || 
     s.core.queue.any (fun q => q.hart == h && q.stage == .waiting && q.w.op == .vinsr)
   | _ => s.storesPending h || s.arrayPending h ArrOp.stores)

/-- Layer memory of Table 13-4: the slices write back what they hold of the hart's stores, and the fence goes on when no
overflow buffer keeps any of it from its stored form (R440). -/
def State.fenceMemory (s : State) (h : BitVec 1) : Result :=
  match s.llcCleanOf h with
  | none => .next s
  | some s1 => if s1.heldOf h then .next s1 else .next (s1.retire h)

/-- Whether a fence lets the hart's posted scratch stores reach their banks first (R308): at scope core or wider for
stores, and with any layer field. -/
def fenceBanks (scope layer kind : Nat) : Bool := layer != 0 || (scope != 0 && decide (kind ≤ 1))

/-- FENCE (R306, R307): the hart waits at the fence. -/
def execFence (sc : BitVec 3) (l k : BitVec 2) (s : State) : Result :=
  hartOnly s (fun h =>
    if s.fenceWaits h sc.toNat l.toNat k.toNat then .next s
    else
      let go (s : State) : Result := if l = 3 then s.fenceMemory h else .next (s.retire h)
      if fenceBanks sc.toNat l.toNat k.toNat then s.withStores h go else go s)

/-! ### Monitors (R333) -/

/-- WAITA (R333): translates, writes back the core's dirty bytes of the sector, asks for a monitor and sleeps; once it is
armed the home compares at once.  A home that answers with an error leaves gd := 0 and the bus error pending (R317; that
gd is 0 then is the model's choice, log entry 132). -/
def execWaita (d a b : BitVec 7) (s : State) : Result :=
  issue [d, a, b] s (fun h =>
    let va := (s.hart h).reg a.toNat
    let v := (s.hart h).reg b.toNat
    if va.toNat % 8 ≠ 0 then s.scalarFault h 0x03 va 2 false 8
    else if s.interlocked 0 va.toNat (va.toNat + 8) false then .next (s.stall h 0x06)
    else match s.translate h .read va with
      | (.wait, s) => .next s
      | (.fault c _, s) => s.scalarFault h c va 2 false 8
      | (.ok t, s) =>
        if t.mmio then s.scalarFault h 0x07 va 2 false 8
        else if s.arrayTouches 0 t.name 8 || s.postedOver h t.name 8 then .next s
        else match (if t.ms then some s else s.cleanSector t.name) with
          | none => .next s
          | some s1 =>
            match s1.homeRead h.toNat s1.cid16.toNat t.name 8 (if t.ms then .memory else .slice true 0) with
            | (none, s2) => .next (((s2.loadError h va 2 8 false).writeReg h d.toNat 0).retire h)
            | (some x, s2) =>
              let (ok, s3) := s2.askMonitor h 0 t.name t.ms
              .next (s3.sleepIn h (.waita d t.name v s3.ctr.cycle.toNat (ok && word x == v))))

/-- WAITA_TIMEOUT (R333): WAITTO ticks have passed since issue without a match; WAITA writes 0. -/
def execWaitaTimeout (h : BitVec 1) (s : State) : Result :=
  match (s.hart h).run with
  | .asleep (.waita d _ _ since false) =>
    let t := (s.hart h).csr.waitto.toNat
    if t ≠ 0 ∧ since + t ≤ s.ctr.cycle.toNat then .next (((s.dropMonitors h).writeReg h d.toNat 0).retire h)
    else .next s
  | _ => .next s

/-! ### Steps of the directory -/

/-- Whether a party already waits for an object. -/
def State.waits (s : State) (p : Party) (pa : Nat) : Bool :=
  s.dir.held.any (fun x => x.pa == pa && x.who == p) ||
  match s.dirEntry pa with
  | some e => e.waiters.any (fun w => w.who == p)
  | none => false

/-- An acquire that gets an error response at its home (R317): the request ends ungranted, and the hart that sleeps in it
goes on. -/
def State.acquireFails (s : State) (h : BitVec 1) (r : SyncReq) (e : Nat × Nat) : State :=
  let s := s.modHart h (fun x => x.endRequest r.cid r.pa false)
  let s := (s.logError h.toNat r.pa r.cid.toNat e).loadError h r.va 2 8 true
  if (s.hart h).run = .asleep (.sacq r.pa) ∧ r.cid = s.cid16 then s.retire h else s

/-- SYNC_REQUEST_ARRIVAL (R296, R317, R441): a request reaches its object's home; kind 0 SACQ, 1 SACQS, 2 STRY, 3 SREL.  A
request of this core is one that its hart has sent; one of another core joins as given.  It waits in the network while the
slice has no room for it. -/
def execSyncRequestArrival (kind : BitVec 2) (pa : Nat) (core : BitVec 10) (h : BitVec 1) (cid : BitVec 16)
    (s : State) : Result :=
  if pa % 64 ≠ 0 then .next s
  else if core = s.core.coreId then
    match (s.hart h).request cid pa false with
    | some r =>
      if r.stage ≠ .sent ∨ r.kind ≠ kind then .next s
      else match s.homeError pa with
      | some e => .next (s.acquireFails h r e)
      | none =>
      if s.storeRoom pa then
        let s1 := s.modHart h (fun x => { x with
          sync := x.sync.map (fun q => if q.of cid pa false then { q with stage := .queued } else q) })
        .next (s1.acquireArrives { core := core, hart := h, cid := cid } (kind == 0) pa)
      else .next s
    | none => .next s
  else match s.homeError pa with
  | some e => .next (s.foreignError pa e)
  | none =>
    let p : Party := { core := core, hart := h, cid := cid }
    match kind.toNat with
    | 2 => .next (s.tryAtHome p pa).2
    | 3 => .next (s.releaseAtHome p pa).2
    | n => if s.storeRoom pa && !s.waits p pa then .next (s.acquireArrives p (n == 0) pa) else .next s

/-- SYNC_GRANT (R297): the grant reaches the hart that sleeps in its acquire; the core self-invalidates and the
acquire completes. -/
def execSyncGrant (h : BitVec 1) (s : State) : Result :=
  match (s.hart h).run with
  | .asleep (.sacq pa) =>
    match (s.hart h).request s.cid16 pa false with
    | some r => if r.stage = .granted then acquired h pa s else .next s
    | none => .next s
  | _ => .next s

/-! ### Steps of the homes -/

/-- HOME_READ_REQUEST (R294): a read of another agent is served at its home. -/
def execHomeReadRequest (pa : Nat) (s : State) : Result :=
  match s.readError pa with
  | some e => .next (s.foreignError pa e)
  | none => .next (s.homeRead 0 0 pa 1 (.slice false 0)).2

/-- Whether posted store `k` may be made now: no earlier store of its hart to the same bytes is still to come (R289). -/
def State.postedFirst (s : State) (k : Nat) (p : Posted) : Bool :=
  !(s.home.posted.take k).any (fun q => q.hart == p.hart && !q.done && decide (q.pa < p.pa + p.n) &&
    decide (p.pa < q.pa + q.n))

/-- HOME_WRITE_ARRIVAL (R293, R303): the core's posted store `own`, or a write of another agent, reaches its home and
enters the byte order, or acts at its MMIO window; an error response discards it (R317). -/
def execHomeWriteArrival (own : Option Nat) (pa n : Nat) (v : BitVec 64) (s : State) : Result :=
  match own with
  | none =>
    if n = 1 ∨ n = 2 ∨ n = 4 ∨ n = 8 then
      match s.homeError pa with
      | some e => .next (s.foreignError pa e)
      | none => .next (s.homeWrite 0 0 pa n v.toNat (.slice false 0)).2
    else .next s
  | some k =>
    match s.home.posted[k]? with
    | none => .next s
    | some p =>
      if p.done || !s.postedFirst k p then .next s
      else
        let end_ (s : State) : State :=
          { s with home := { s.home with posted := s.home.posted.set k { p with done := true } } }
        if p.mmio then
          match s.mmioWrite p.pa p.n p.v with
          | (true, s1) => .next (end_ s1)
          | (false, s1) => .next (end_ ((s1.mmioViolation p.hart.toNat p.pa p.cid).loadError p.hart p.va 1 p.n true))
        else match s.homeWrite p.hart.toNat p.cid.toNat p.pa p.n p.v.toNat (s.uncached p.pa p.ms p.va) with
        | (.full, _) => .next s
        | (.done, s1) => .next (end_ s1)
        | (.overflow, s1) => .next (((s1.depositOverflow p.va p.cid).map end_).getD s)
        | (.error, s1) => .next (end_ (s1.loadError p.hart p.va 1 p.n true))

/-- HOME_ACKNOWLEDGEMENT (R298, R306): the home's acknowledgement of a hart's store that it has performed arrives. -/
def execHomeAcknowledgement (h : BitVec 1) (s : State) : Result :=
  match s.home.posted.findIdx? (fun p => p.hart == h && p.done) with
  | some k => .next { s with home := { s.home with posted := s.home.posted.eraseIdx k } }
  | none => .next s

end Sys2Proof.Machine
end

