-- ==== Sys2Proof/Machine/ArrayFile.lean ====
section
/-! DEFINITION. The array register file: rows, registers and elements, element types of array words, operand groups and
the checks made at issue (chapters 03, 07, 08 and 09). -/

namespace Sys2Proof.Machine

/-! ### Elements in rows (R156 to R158) -/

/-- The byte that holds row `row` of column `col` of a way, and the bit within it (R156, R270). -/
def rowByte (way row col : Nat) : Nat := way * 262144 + row * 512 + col / 8

/-- One bit of a data row. -/
def rowBit (m : Memory) (way row col : Nat) : Bool := bit (Memory.byte m (rowByte way row col)).toNat (col % 8)

/-- The `n` bits of a column from data row `row` up, lowest first (R158). -/
def columnBits (m : Memory) (way col : Nat) : Nat → Nat → Nat
  | _, 0 => 0
  | row, n + 1 => b2n (rowBit m way row col) + 2 * columnBits m way col (row + 1) n

/-- The SRAM with the `n` rows of a column from `row` up set to the bits of `v`. -/
def putColumn (m : Memory) (way col : Nat) : Nat → Nat → Nat → Memory
  | _, 0, _ => m
  | row, n + 1, v =>
    let a := rowByte way row col
    putColumn (Memory.setByte m a (BitVec.ofNat 8 (setBits (Memory.byte m a).toNat (col % 8) 1 (v % 2)))) way col
      (row + 1) n (v / 2)

/-- Sequencer row `sq` of a subarray of a way, as an instruction finds it (R159): unpredictable, so that it is a free value of
the tick and no field that one instruction could leave to the next.  An instruction sets every one that it reads first, and
what it does with them is within its step: no definition reads this (log entry 135). -/
def State.sequencerRow (s : State) (way sub sq : Nat) : BitVec 256 := Config.sequencerRow s.ctr.cycle.toNat (16 * way + sub) sq

/-! ### Fields of SHAPE (Table 07-3) -/

def shVl (x : Word) : Nat := wf x 0 18
def shType (x : Word) : Nat := wf x 18 5
def shLsel (x : Word) : Nat := wf x 23 2
def shStart (x : Word) : Nat := wf x 25 18

/-- The array ways that a layer selection selects, in element order (R157). -/
def waysOf (wayrole : Word) (lsel : Nat) : List Nat :=
  (arrayWays wayrole).filter (fun w => lsel == 0 || (lsel == 1 && w < 16) || (lsel == 2 && 16 ≤ w))

/-- VLMAX under a layer selection (R164). -/
def State.vlmax (s : State) (lsel : Nat) : Nat := 4096 * (waysOf s.core.wayrole lsel).length

/-! ### Kinds of array words -/

/-- Integer compares and the floating-point ones: a mask register of one register is written (R191, R211). -/
def ArrOp.isCompare : ArrOp → Bool
  | .vceq | .vcne | .vclt | .vcge | .vcltn | .vcgen | .vcfeq | .vcflt | .vcfle | .vcfun => true
  | _ => false

/-- Words of two typed sources (Table 03-4, R79). -/
def ArrOp.twoSources : ArrOp → Bool
  | .vadd | .vsub | .vadds | .vsubs | .vmul | .vmulh | .vmin | .vmax | .vminn | .vmaxn | .vand | .vor | .vxor
  | .vbool | .vsll | .vsrl | .vsra | .vmerge | .vmac | .vwmac | .vdot | .vdots | .vfadd | .vfsub | .vfmul | .vfma
  | .vfmin | .vfmax | .vfdiv | .vfms | .vcfle | .vcfun | .vceq | .vcne | .vclt | .vcge | .vcltn | .vcgen | .vcfeq
  | .vcflt | .vldx | .vstx | .tmma => true
  | _ => false

/-- Words that move elements between positions: they refuse any overlap (R208). -/
def ArrOp.moves : ArrOp → Bool
  | .vslideup | .vslidedn | .vrev | .viota | .vcompress | .vexpand | .vsegsum => true
  | _ => false

/-- Words that read their destination group as an accumulator, or merge into it (R171, R194, R202). -/
def ArrOp.accumulates : ArrOp → Bool
  | .vmac | .vwmac | .vdot | .vdots | .vfma | .vfms | .vbool | .vkwrite => true
  | _ => false

/-- Words that are not element-local: they order every source as chain bit 0 (R76, R171). -/
def ArrOp.crosses : ArrOp → Bool
  | .vslideup | .vslidedn | .vrev | .viota | .vcompress | .vexpand | .vsegsum | .vredsum | .vredmin | .vredmax
  | .vredand | .vredor | .vredxor | .vfredsum | .vfredmax | .vfredmin | .vmpopc | .vmfirst | .vextr | .vinsr => true
  | _ => false

/-- Loads of the VM modes. -/
def ArrOp.loads : ArrOp → Bool
  | .vld | .vlds | .vldx | .vldl | .vldy | .vldys | .vldff => true
  | _ => false

/-- Words whose result is a scalar (Table 05-2). -/
def ArrOp.scalarResult : ArrOp → Bool
  | .vredsum | .vredmin | .vredmax | .vredand | .vredor | .vredxor | .vfredsum | .vfredmax | .vfredmin | .vmpopc
  | .vmfirst | .vextr => true
  | _ => false

/-- Targets of an FMT prefix (R78). -/
def ArrOp.prefixable : ArrOp → Bool
  | .waitv | .ashape | .aclr | .msplit | .msetm | .tattach | .tdetach | .tzero | .tload => false
  | _ => true

/-! ### Types (R78, R79, R181, R205, R253, R261, R321, R335) -/

/-- The resolved types, rounding mode, saturate bit and scale mode of a word (R78). -/
structure Resolved where
  t1 : Nat
  t2 : Nat
  td : Nat
  mode : Nat
  sat : Bool
  scale : Nat
deriving DecidableEq, Repr

/-- The type of twice the width and the same signedness (R78, Table 08-1). -/
def widerType (t : Nat) : Nat := if t ≤ 1 then t + 4 else t + 2

/-- The destination type of an unprefixed word (R78, Tables 08-1 and 09-1, R253). -/
def ArrOp.naturalType (op : ArrOp) (t : Nat) : Nat :=
  match op with
  | .vwmac => widerType t
  | .vdot | .vdots => if t ≤ 1 then 6 else 8
  | .vsegsum | .vfredsum | .vfredmax | .vfredmin => 0x16
  | .tmma => if isFloat t then 0x16 else 8
  | _ => t

/-- Resolves the types and modes of a word (R40, R78). -/
def resolve (op : ArrOp) (fmt : Option (BitVec 26)) (shape : Word) (rmode : Nat) : Resolved :=
  match fmt with
  | some b =>
    let x := b.toNat
    let t1 := bits x 16 5
    let r := bits x 8 3
    { t1 := t1, t2 := if op.twoSources then bits x 11 5 else t1, td := bits x 21 5,
      mode := if r = 6 then rmode else r, sat := bit x 7, scale := bits x 5 2 }
  | none =>
    let t := shType shape
    { t1 := t, t2 := if op = .vldx ∨ op = .vstx then 8 else t, td := op.naturalType t, mode := rmode, sat := false,
      scale := 0 }

/-- Whether a word accepts its types (Tables 08-1, 09-1, 11-4, 14-3, 14-8; R261). -/
def ArrOp.accepts (op : ArrOp) (pref : Bool) (r : Resolved) : Bool :=
  let t1 := r.t1
  let t2 := r.t2
  let td := r.td
  match op with
  | .vadd | .vsub | .vadds | .vsubs | .vmul | .vmulh | .vmac | .vmin | .vmax | .vminn | .vmaxn | .vsll | .vsrl
  | .vsra | .vceq | .vcne | .vclt | .vcge | .vcltn | .vcgen | .vneg | .vabs | .vaddi | .vslli | .vsrli | .vsrai =>
    isInt t1 && t1 == t2 && td == t1
  | .vand | .vor | .vxor | .vnot | .vmov | .vmerge | .vclz | .vpopc | .vsearch | .vkwrite =>
    typeOk t1 && typeOk t2 && typeOk td && width t1 == width t2 && width td == width t1
  | .vwmac => [0, 1, 4, 5, 6, 7, 8, 9].contains t1 && t2 == t1 && td == widerType t1
  | .vdot | .vdots =>
    ([0, 1].contains t1 && [0, 1].contains t2 && td == 6) || ([4, 5].contains t1 && [4, 5].contains t2 && td == 8)
  | .vfadd | .vfsub | .vfmul | .vfma | .vfdiv | .vfms => isFloat t1 && t1 == t2 && isFloat td
  | .vfmin | .vfmax | .vfneg | .vfabs | .vfsqrt | .vexp2 | .vlog2 | .vrcp | .vrsqrt =>
    isFloat t1 && t1 == t2 && td == t1
  | .vcfeq | .vcflt | .vcfle | .vcfun => isFloat t1 && t1 == t2
  | .vcvt => typeOk t1 && typeOk td
  | .vredsum | .vredmin | .vredmax | .vredand | .vredor | .vredxor => isInt t1
  | .vfredsum | .vfredmax | .vfredmin => isFloat t1 && (!pref || td == 0x16)
  | .vsegsum => isFloat t1 && (if pref then td == 0x16 || td == 0x14 else t1 == 0x14 || t1 == 0x15)
  | .vslideup | .vslidedn | .vrev | .vcompress | .vexpand | .vbcast | .vextr | .vinsr => typeOk t1 && td == t1
  | .viota => isInt td
  | .vld | .vst | .vldff | .vldl | .vstl | .vldy | .vsty => typeOk t1 && td == t1
  | .vlds | .vsts | .vldys | .vstys => decide (8 ≤ width t1) && td == t1
  | .vldx | .vstx => decide (8 ≤ width t1) && td == t1 && (t2 == 8 || t2 == 9)
  | .tmma =>
    (decide (0x10 ≤ t1) && decide (t1 ≤ 0x15) && decide (0x10 ≤ t2) && decide (t2 ≤ 0x15) && td == 0x16) ||
    ([0, 1, 4, 5].contains t1 && [0, 1, 4, 5].contains t2 && td == 8)
  | .tread => (t1 == 0x16 || t1 == 8 || t1 == 9) && typeOk td
  | .vstr =>
    (isFloat t1 && (td == 0x16 || td == 0x14)) || ((t1 == 4 || t1 == 6 || t1 == 8) && td == 8)
  | _ => true

/-- Whether a word takes a scale mode (R182, R206, R321, Table 11-4, Table 14-8). -/
def ArrOp.takesScale (op : ArrOp) (r : Resolved) : Bool :=
  match r.scale with
  | 0 => true
  | 1 =>
    match op with
    | .vcvt | .vfredsum | .vsegsum => true
    | .vstr | .tmma => isFloat r.t1
    | _ => false
  | 2 => op == .tmma && isFloat r.t1
  | _ => false

/-- The fields of a prefix that are reserved whatever the target, or that the target does not accept (R79). -/
def prefixMisuse (op : ArrOp) (b : BitVec 26) : Bool :=
  let x := b.toNat
  let r := resolve op (some b) 0 0
  !op.prefixable || !typeOk r.td || !typeOk r.t1 || (op.twoSources && !typeOk r.t2) || bits x 8 3 == 7 ||
    r.scale == 3 || bits x 0 5 != 0 || !op.accepts true r || !op.takesScale r

/-! ### Operand groups (R72, R158, R183, R208) -/

/-- A group: its base register and its register count. -/
abbrev Group := Nat × Nat

/-- The group that a word writes. -/
def ArrWord.dest (w : ArrWord) (r : Resolved) : Option Group :=
  match w.op with
  | .vbool | .vsearch => some (w.d.toNat, 1)
  | .waitv => some (w.d.toNat, 1)
  | .vst | .vsts | .vstx | .vstl | .vsty | .vstys | .vstr | .ashape | .aclr | .msplit | .msetm | .tattach
  | .tdetach | .tmma | .tzero | .tload => none
  | op =>
    if op.isCompare then some (w.d.toNat, 1)
    else if op.scalarResult then none
    else some (w.d.toNat, regsOf r.td)

/-- The scale group that a block-scaled word reads (R207, R335). -/
def ArrWord.scaleGroup (w : ArrWord) (r : Resolved) (scaleg : Word) : Option Group :=
  if r.scale = 0 then none
  else match w.op with
    | .vfredsum | .vsegsum | .vstr => some (w.b.toNat, 8)
    | _ => some (wf scaleg 0 7, 8)

/-- The groups that a word reads, with the chain bit of each; the scale group and the mask come apart (R171). -/
def ArrWord.sources (w : ArrWord) (r : Resolved) : List (Group × Bool) :=
  match w.op with
  | .vbool => [((w.a.toNat, 1), w.k1), ((w.b.toNat, 1), w.k2)]
  | .viota | .vmpopc | .vmfirst => [((w.a.toNat, 1), false)]
  | .waitv => [((w.a.toNat, 16), false), ((w.b.toNat, 8), false)]
  | .vbcast | .vinsr | .vld | .vlds | .vldl | .vldy | .vldys | .vldff | .ashape | .aclr | .msplit | .msetm
  | .tattach | .tdetach | .tzero | .tread => []
  | .vldx => [((w.b.toNat, 8), false)]
  | .vst | .vsts | .vstl | .vsty | .vstys => [((w.d.toNat, regsOf r.t1), false)]
  | .vstx => [((w.d.toNat, regsOf r.t1), false), ((w.b.toNat, 8), false)]
  | .vstr => [((w.a.toNat, regsOf r.t1), false)]
  | .tload => [((w.a.toNat, 8), false)]
  | .tmma =>
    ((w.a.toNat, regsOf r.t1), false) ::
      (List.range 8).map (fun k => ((w.b.toNat + k * regsOf r.t2, regsOf r.t2), false))
  | op =>
    if op.twoSources then [((w.a.toNat, regsOf r.t1), w.k1), ((w.b.toNat, regsOf r.t2), w.k2)]
    else [((w.a.toNat, regsOf r.t1), w.k1)]

/-- Whether two groups share a register. -/
def Group.meets (x y : Group) : Bool := decide (x.1 < y.1 + y.2) && decide (y.1 < x.1 + x.2)

/-- Whether a group is aligned and ends within a127 (R72, R158). -/
def Group.ok (x : Group) : Bool := x.1 % x.2 == 0 && decide (x.1 + x.2 ≤ 128)

/-- Whether source group `g` may not overlap the destination of the word (R183, R208, R322). -/
def ArrOp.refuses (op : ArrOp) (dst g : Group) : Bool :=
  dst.meets g && (op.moves || op == .vldx || dst.2 != g.2)

/-- Whether a word is illegal for a reason that its prefix decides: a scale field that is not 0 where no scale group is
read (R217, R335, Table 03-5). -/
def ArrWord.illegal (w : ArrWord) (r : Resolved) : Bool :=
  (w.op == .vfredsum || w.op == .vsegsum || w.op == .vstr) && r.scale == 0 && w.b != 0

/-- The operand checks of kinds 2 to 7 of R74 of an array word, after those of its prefix: the trap it takes, if any. -/
def ArrWord.check (w : ArrWord) (pref : Bool) (r : Resolved) (scaleg : Word) : Option Nat :=
  let dst := (w.dest r).toList
  let src := (w.sources r).map (·.1)
  let scale := (w.scaleGroup r scaleg).toList
  if w.illegal r then some 0x01
  else if !w.op.accepts pref r then some 0x0B
  else if !(dst ++ src ++ scale).all Group.ok then some 0x0B
  else if dst.any (fun d => src.any (fun g => w.op.refuses d g) || scale.any (fun g => d.meets g)) then some 0x08
  else none

/-! ### The elements an instruction works on (R28, R157, R489) -/

/-- What an array instruction sees: its array ways in element order, which of them its micro-threads select, START, VL,
the predication, and the operands beside registers. -/
structure ArrCtx where
  ways : List Nat
  sel : List Bool
  start : Nat
  vl : Nat
  w : ArrWord
  r : Resolved
  x0 : Word
  x1 : Word
  boolt : Nat
  akey : Nat
  akmask : Nat
  scaleg : Nat

/-- Whether an element lies in a selected way. -/
def ArrCtx.inSel (c : ArrCtx) (e : Nat) : Bool := c.sel.getD (e / 4096) false

/-- The way of an element. -/
def ArrCtx.way (c : ArrCtx) (e : Nat) : Nat := c.ways.getD (e / 4096) 0

/-- `elem(g, e)` as `n` bits: an element of an unselected way reads as 0 (R158, R489), a scale word of such a way too
(log entry 130). -/
def ArrCtx.get (c : ArrCtx) (m : Memory) (g n e : Nat) : Nat :=
  if c.inSel e then columnBits m (c.way e) (e % 4096) (4 * g) n else 0

/-- Writes an element of `regs` registers; nothing in an unselected way (R158, R489). -/
def ArrCtx.put (c : ArrCtx) (m : Memory) (g regs e v : Nat) : Memory :=
  if c.inSel e then putColumn m (c.way e) (e % 4096) (4 * g) (4 * regs) v else m

/-- Row 0 of a0 at an element (R28). -/
def ArrCtx.mask (c : ArrCtx) (m : Memory) (e : Nat) : Bool := c.get m 0 1 e == 1

/-- Whether an element lies in START ≤ e < VL of a selected way. -/
def ArrCtx.inRange (c : ArrCtx) (e : Nat) : Bool := decide (c.start ≤ e) && decide (e < c.vl) && c.inSel e

/-- `active(e)` (R28). -/
def ArrCtx.active (c : ArrCtx) (m : Memory) (e : Nat) : Bool := c.inRange e && (c.w.p == 0 || c.mask m e)

/-- The elements from START to VL − 1, in ascending order, through `f`. -/
def ArrCtx.over {α : Type} (c : ArrCtx) (f : Nat → α → α) (x : α) : α := loop f c.start (c.vl - c.start) x

/-- What an array instruction changes as it runs: rows, generators, flags. -/
structure ArrAcc where
  m : Memory
  gens : Store 16
  fl : BitVec 6

/-- The generator of column `c`: 0 stands for its seed of device reset (R42). -/
def genValue (g : Store 16) (c : Nat) : Nat :=
  let x := (Store.get g c).toNat
  if x = 0 then 1 + c * 0x9E37 % 65535 else x

/-- The generators after column `c` has passed one rounding (R42). -/
def genStep (g : Store 16) (c : Nat) : Store 16 := Store.set g c (BitVec.ofNat 16 (lfsrStep (genValue g c)))

/-- The column of an element within its core. -/
def ArrCtx.column (c : ArrCtx) (e : Nat) : Nat := c.way e * 4096 + e % 4096

end Sys2Proof.Machine
end

