-- ==== Sys2Proof/Machine/Scalar.lean ====
section
/-! DEFINITION. Integer register and immediate operations (R121 to R125). -/

namespace Sys2Proof.Machine

/-- 1 or 0 as a word. -/
def boolWord (b : Bool) : Word := if b then 1 else 0

/-- 1 or 0 as a 32-bit value. -/
def bool32 (b : Bool) : BitVec 32 := if b then 1 else 0

/-- ADD (R121): d := a + b. -/
def execAdd (d a b : BitVec 7) (s : State) : Result := scalar3 d a b (· + ·) (· + ·) false s

/-- SUB (R121): d := a − b. -/
def execSub (d a b : BitVec 7) (s : State) : Result := scalar3 d a b (· - ·) (· - ·) false s

/-- AND (R121). -/
def execAnd (d a b : BitVec 7) (s : State) : Result := scalar3 d a b (· &&& ·) (· &&& ·) false s

/-- OR (R121). -/
def execOr (d a b : BitVec 7) (s : State) : Result := scalar3 d a b (· ||| ·) (· ||| ·) false s

/-- XOR (R121). -/
def execXor (d a b : BitVec 7) (s : State) : Result := scalar3 d a b (· ^^^ ·) (· ^^^ ·) false s

/-- ANDN (R121): d := a AND NOT b. -/
def execAndn (d a b : BitVec 7) (s : State) : Result :=
  scalar3 d a b (fun x y => x &&& ~~~y) (fun x y => x &&& ~~~y) false s

/-- SLL (R121): the amount is b[5:0], or b[4:0] in a block image (R236). -/
def execSll (d a b : BitVec 7) (s : State) : Result :=
  scalar3 d a b (fun x y => x <<< (y.toNat % 64)) (fun x y => x <<< (y.toNat % 32)) false s

/-- SRL (R121). -/
def execSrl (d a b : BitVec 7) (s : State) : Result :=
  scalar3 d a b (fun x y => x >>> (y.toNat % 64)) (fun x y => x >>> (y.toNat % 32)) false s

/-- SRA (R121): rounding towards minus infinity. -/
def execSra (d a b : BitVec 7) (s : State) : Result :=
  scalar3 d a b (fun x y => x.sshiftRight (y.toNat % 64)) (fun x y => x.sshiftRight (y.toNat % 32)) false s

/-- SLT (R121): signed compare; sets PRED in a block image (R236). -/
def execSlt (d a b : BitVec 7) (s : State) : Result :=
  scalar3 d a b (fun x y => boolWord (x.slt y)) (fun x y => bool32 (x.slt y)) true s

/-- SLTN (R121): unsigned compare; sets PRED in a block image (R236). -/
def execSltn (d a b : BitVec 7) (s : State) : Result :=
  scalar3 d a b (fun x y => boolWord (x.ult y)) (fun x y => bool32 (x.ult y)) true s

/-- MIN (R121): the smaller, read as signed. -/
def execMin (d a b : BitVec 7) (s : State) : Result :=
  scalar3 d a b (fun x y => if x.slt y then x else y) (fun x y => if x.slt y then x else y) false s

/-- MAX (R121): the larger, read as signed. -/
def execMax (d a b : BitVec 7) (s : State) : Result :=
  scalar3 d a b (fun x y => if x.slt y then y else x) (fun x y => if x.slt y then y else x) false s

/-- MINN (R121): the smaller, read as unsigned. -/
def execMinn (d a b : BitVec 7) (s : State) : Result :=
  scalar3 d a b (fun x y => if x.ult y then x else y) (fun x y => if x.ult y then x else y) false s

/-- MAXN (R121): the larger, read as unsigned. -/
def execMaxn (d a b : BitVec 7) (s : State) : Result :=
  scalar3 d a b (fun x y => if x.ult y then y else x) (fun x y => if x.ult y then y else x) false s

/-- ADDW (R121): the 32-bit sum, sign-extended; as ADD in a block image (R236). -/
def execAddw (d a b : BitVec 7) (s : State) : Result :=
  scalar3 d a b (fun x y => ((x + y).truncate 32).signExtend 64) (· + ·) false s

/-- SUBW (R121): the 32-bit difference, sign-extended; as SUB in a block image (R236). -/
def execSubw (d a b : BitVec 7) (s : State) : Result :=
  scalar3 d a b (fun x y => ((x - y).truncate 32).signExtend 64) (· - ·) false s

/-- CMOV (R121): d := b when a ≠ 0; d is waited for even when it is kept. -/
def execCmov (d a b : BitVec 7) (s : State) : Result :=
  match s.cur with
  | .hart h =>
    let x := s.hart h
    let old := x.reg d.toNat
    scalar3 d a b (fun x y => if x = 0 then old else y) (fun x _ => x) false s
  | .mt w =>
    let old := (s.mt w).reg d.toNat
    scalar3 d a b (fun x _ => x) (fun x y => if x = 0 then old else y) false s

/-- MUL (R122): bits [63:0] of the product. -/
def execMul (d a b : BitVec 7) (s : State) : Result := scalarLate d a b (· * ·) s

/-- MULH (R122): bits [127:64] of the signed product. -/
def execMulh (d a b : BitVec 7) (s : State) : Result :=
  scalarLate d a b (fun x y => wordOfInt (x.toInt * y.toInt / 2 ^ 64)) s

/-- MULHN (R122): bits [127:64] of the unsigned product. -/
def execMulhn (d a b : BitVec 7) (s : State) : Result :=
  scalarLate d a b (fun x y => word (x.toNat * y.toNat / 2 ^ 64)) s

/-- Signed quotient (R123): towards zero; all ones for a zero divisor; −2^63 / −1 gives −2^63. -/
def divSigned (x y : Word) : Word :=
  if y = 0 then 0xFFFFFFFFFFFFFFFF else wordOfInt (x.toInt.tdiv y.toInt)

/-- Unsigned quotient (R123). -/
def divUnsigned (x y : Word) : Word := if y = 0 then 0xFFFFFFFFFFFFFFFF else word (x.toNat / y.toNat)

/-- Signed remainder (R123): the sign of the dividend; the dividend for a zero divisor. -/
def remSigned (x y : Word) : Word := if y = 0 then x else wordOfInt (x.toInt.tmod y.toInt)

/-- Unsigned remainder (R123). -/
def remUnsigned (x y : Word) : Word := if y = 0 then x else word (x.toNat % y.toNat)

/-- DIV (R123). -/
def execDiv (d a b : BitVec 7) (s : State) : Result := scalarDivide d a b divSigned s

/-- DIVN (R123). -/
def execDivn (d a b : BitVec 7) (s : State) : Result := scalarDivide d a b divUnsigned s

/-- REM (R123). -/
def execRem (d a b : BitVec 7) (s : State) : Result := scalarDivide d a b remSigned s

/-- REMN (R123). -/
def execRemn (d a b : BitVec 7) (s : State) : Result := scalarDivide d a b remUnsigned s

/-- Number of set bits of a number below 2^n. -/
def popCount (x : Nat) : Nat → Nat
  | 0 => 0
  | n + 1 => x % 2 + popCount (x / 2) n

/-- Number of zero bits below the lowest set bit, at most `n`. -/
def lowZeros (x : Nat) : Nat → Nat
  | 0 => 0
  | n + 1 => if x % 2 = 1 then 0 else 1 + lowZeros (x / 2) n

/-- Number of zero bits above the highest set bit of an `n`-bit number. -/
def highZeros (x n : Nat) : Nat := if x = 0 then n else n - 1 - Nat.log2 x

/-- The bits of an `n`-bit number in reverse order. -/
def reverseBits (x : Nat) : Nat → Nat
  | 0 => 0
  | n + 1 => x % 2 * 2 ^ n + reverseBits (x / 2) n

/-- The bytes of an `n`-byte number in reverse order. -/
def reverseBytes (x : Nat) : Nat → Nat
  | 0 => 0
  | n + 1 => x % 256 * 256 ^ n + reverseBytes (x / 256) n

/-- CLZ (R122): 64 for zero. -/
def execClz (d a : BitVec 7) (s : State) : Result := scalarUnary d a (fun x => word (highZeros x.toNat 64)) s

/-- CTZ (R122): 64 for zero. -/
def execCtz (d a : BitVec 7) (s : State) : Result := scalarUnary d a (fun x => word (lowZeros x.toNat 64)) s

/-- POPC (R122). -/
def execPopc (d a : BitVec 7) (s : State) : Result := scalarUnary d a (fun x => word (popCount x.toNat 64)) s

/-- REV (R122): d[i] := a[63 − i]. -/
def execRev (d a : BitVec 7) (s : State) : Result := scalarUnary d a (fun x => word (reverseBits x.toNat 64)) s

/-- BSWAP (R122). -/
def execBswap (d a : BitVec 7) (s : State) : Result := scalarUnary d a (fun x => word (reverseBytes x.toNat 8)) s

/-- A word of two operands and latency 1 that only harts have (Table 05-5). -/
def scalarBinary (d a b : BitVec 7) (f : Word → Word → Word) (s : State) : Result :=
  issue [d, a, b] s (fun h =>
    .next ((s.writeReg h d.toNat (f ((s.hart h).reg a.toNat) ((s.hart h).reg b.toNat))).retire h))

/-- ROTL (R122): left by b[5:0]. -/
def execRotl (d a b : BitVec 7) (s : State) : Result :=
  scalarBinary d a b (fun x y => x.rotateLeft (y.toNat % 64)) s

/-- ROTR (R122): right by b[5:0]. -/
def execRotr (d a b : BitVec 7) (s : State) : Result :=
  scalarBinary d a b (fun x y => x.rotateRight (y.toNat % 64)) s

/-- ADDI (R124): d := a + sext(imm12). -/
def execAddi (d a : BitVec 7) (imm : BitVec 12) (s : State) : Result :=
  scalarI d a (· + imm.signExtend 64) (· + imm.signExtend 32) false s

/-- ANDI (R124): the immediate is zero-extended. -/
def execAndi (d a : BitVec 7) (imm : BitVec 12) (s : State) : Result :=
  scalarI d a (· &&& imm.zeroExtend 64) (· &&& imm.zeroExtend 32) false s

/-- ORI (R124). -/
def execOri (d a : BitVec 7) (imm : BitVec 12) (s : State) : Result :=
  scalarI d a (· ||| imm.zeroExtend 64) (· ||| imm.zeroExtend 32) false s

/-- XORI (R124). -/
def execXori (d a : BitVec 7) (imm : BitVec 12) (s : State) : Result :=
  scalarI d a (· ^^^ imm.zeroExtend 64) (· ^^^ imm.zeroExtend 32) false s

/-- SLLI (R124): as SLL with the amount in the word; bits [4:0] of it in a block image (R236). -/
def execSlli (d a : BitVec 7) (imm : BitVec 6) (s : State) : Result :=
  scalarI d a (· <<< imm.toNat) (· <<< (imm.toNat % 32)) false s

/-- SRLI (R124). -/
def execSrli (d a : BitVec 7) (imm : BitVec 6) (s : State) : Result :=
  scalarI d a (· >>> imm.toNat) (· >>> (imm.toNat % 32)) false s

/-- SRAI (R124). -/
def execSrai (d a : BitVec 7) (imm : BitVec 6) (s : State) : Result :=
  scalarI d a (·.sshiftRight imm.toNat) (·.sshiftRight (imm.toNat % 32)) false s

/-- SLTI (R124): signed compare with sext(imm12); sets PRED in a block image (R236). -/
def execSlti (d a : BitVec 7) (imm : BitVec 12) (s : State) : Result :=
  scalarI d a (fun x => boolWord (x.slt (imm.signExtend 64))) (fun x => bool32 (x.slt (imm.signExtend 32))) true s

/-- sext(imm19 << 13, 32), extended to 64 bits (R63, R125). -/
def upperImm (imm : BitVec 19) : Word := (imm ++ (0 : BitVec 13)).signExtend 64

/-- LIH (R125): d := sext(imm19 << 13, 32); its low 32 bits in a block image (R236). -/
def execLih (d : BitVec 7) (imm : BitVec 19) (s : State) : Result :=
  scalarI d 0 (fun _ => upperImm imm) (fun _ => imm ++ (0 : BitVec 13)) false s

/-- AUIP (R125): d := PC + sext(imm19 << 13, 32). -/
def execAuip (d : BitVec 7) (imm : BitVec 19) (s : State) : Result :=
  issue [d] s (fun h => .next ((s.writeReg h d.toNat ((s.hart h).pc + upperImm imm)).retire h))

end Sys2Proof.Machine
end

