-- ==== Sys2Proof/Machine/Float.lean ====
section
/-! DEFINITION. Scalar floating point (R129 to R135).  Every result arrives later, with its flags (R114, R135). -/

namespace Sys2Proof.Machine

/-- The rounding mode of an OPF word: RMODE as read at issue, with 101 taken as RNE (R41, R129). -/
def State.scalarMode (s : State) (h : BitVec 1) : Nat := noStochastic ((s.hart h).csr.rmode.toNat % 8)

/-- Bits [31:0] of an operand (R129). -/
def low32 (x : Word) : Nat := x.toNat % 2 ^ 32

/-- The shape of an OPF word: it reads `ga`, `gb` and, as a third source or writer, `gd`; the result pattern and its
flags arrive later (R115, R135).  FDIV and FSQRT take the divider (R120). -/
def floatOp (d a b : BitVec 7) (f : Nat → Word → Word → Word → Nat × BitVec 6) (s : State) (divider : Bool := false) :
    Result :=
  issue [d, a, b] s (fun h =>
    let x := s.hart h
    let r := f (s.scalarMode h) (x.reg a.toNat) (x.reg b.toNat) (x.reg d.toNat)
    let go : Result := .next ((s.lateReg h d.toNat (word r.1) r.2 true divider).retire h)
    if divider then s.takeDivider h go else go)

/-- Rounds a value that an operation raised flags for (R130). -/
def round32 (mode : Nat) (r : Num × BitVec 6) (sticky : Bool := false) : Nat × BitVec 6 :=
  let q := roundF 0x16 mode 0 false r.1 sticky
  (q.1, q.2 ||| r.2)

/-- The exact value of an f32 operand. -/
def v32 (x : Word) : Num := val 0x16 (low32 x)

/-- FADD (R130). -/
def execFadd (d a b : BitVec 7) (s : State) : Result :=
  floatOp d a b (fun m x y _ => round32 m (Num.add (rdnOf m) (v32 x) (v32 y))) s

/-- FSUB (R130). -/
def execFsub (d a b : BitVec 7) (s : State) : Result :=
  floatOp d a b (fun m x y _ => round32 m (Num.add (rdnOf m) (v32 x) (v32 y).neg)) s

/-- FMUL (R130). -/
def execFmul (d a b : BitVec 7) (s : State) : Result :=
  floatOp d a b (fun m x y _ => round32 m (Num.mul (rdnOf m) (v32 x) (v32 y))) s

/-- FDIV (R130). -/
def execFdiv (d a b : BitVec 7) (s : State) : Result :=
  floatOp d a b (fun m x y _ =>
    let r := divNum (rdnOf m) (v32 x) (v32 y)
    round32 m (r.1, r.2.2) r.2.1) s true

/-- x × y + z with one rounding; a NaN operand decides before 0 × ∞ (R130). -/
def fmaNum (rdn : Bool) (x y z : Num) : Num × BitVec 6 :=
  if x = .nan ∨ y = .nan ∨ z = .nan then (.nan, 0)
  else
    let p := Num.mul rdn x y
    let q := Num.add rdn p.1 z
    (q.1, p.2 ||| q.2)

/-- z − x × y with one rounding (R209): the product takes its sign of zero from R34 before it is subtracted. -/
def fmsNum (rdn : Bool) (x y z : Num) : Num × BitVec 6 :=
  if x = .nan ∨ y = .nan ∨ z = .nan then (.nan, 0)
  else
    let p := Num.mul rdn x y
    let q := Num.add rdn z p.1.neg
    (q.1, p.2 ||| q.2)

/-- FMA (R130): x × y + z, where z is gd. -/
def execFma (d a b : BitVec 7) (s : State) : Result :=
  floatOp d a b (fun m x y z => round32 m (fmaNum (rdnOf m) (v32 x) (v32 y) (v32 z))) s

/-- FMIN (R131): the pattern of one operand, no flag. -/
def execFmin (d a b : BitVec 7) (s : State) : Result :=
  floatOp d a b (fun _ x y _ => (minmaxF 0x16 false (low32 x) (low32 y), 0)) s

/-- FMAX (R131). -/
def execFmax (d a b : BitVec 7) (s : State) : Result :=
  floatOp d a b (fun _ x y _ => (minmaxF 0x16 true (low32 x) (low32 y), 0)) s

/-- FSQRT (R130). -/
def execFsqrt (d a : BitVec 7) (s : State) : Result :=
  floatOp d a 0 (fun m x _ _ =>
    let r := sqrtNum (rdnOf m) (v32 x)
    round32 m (r.1, r.2.2) r.2.1) s true

/-- FEQ (R132): no flag for a NaN. -/
def execFeq (d a b : BitVec 7) (s : State) : Result :=
  floatOp d a b (fun _ x y _ =>
    if v32 x = .nan ∨ v32 y = .nan then (0, 0) else (b2n (Num.cmp (v32 x) (v32 y) == 0), 0)) s

/-- FLT (R132): NV for a NaN. -/
def execFlt (d a b : BitVec 7) (s : State) : Result :=
  floatOp d a b (fun _ x y _ =>
    if v32 x = .nan ∨ v32 y = .nan then (0, flNV) else (b2n (decide (Num.cmp (v32 x) (v32 y) < 0)), 0)) s

/-- FLE (R132): NV for a NaN. -/
def execFle (d a b : BitVec 7) (s : State) : Result :=
  floatOp d a b (fun _ x y _ =>
    if v32 x = .nan ∨ v32 y = .nan then (0, flNV) else (b2n (decide (Num.cmp (v32 x) (v32 y) ≤ 0)), 0)) s

/-- FCVTIS (R133): toint(x, s64, mode). -/
def execFcvtis (d a : BitVec 7) (s : State) : Result :=
  floatOp d a 0 (fun m x _ _ => toint 0x0A m 0 (v32 x)) s

/-- An integer as a value to round: the zero takes its sign under R34. -/
def numOfInt (rdn : Bool) (x : Int) : Num := if x = 0 then .fin rdn 0 0 else .ofInt x

/-- FCVTSI (R133): reads all 64 bits as a signed integer. -/
def execFcvtsi (d a : BitVec 7) (s : State) : Result :=
  floatOp d a 0 (fun m x _ _ => round32 m (numOfInt (rdnOf m) x.toInt, 0)) s

/-- The class bit of an f32 pattern (Table 05-9). -/
def classOf (b : Nat) : Nat :=
  match valF (ffmt 0x16) b with
  | .nan => 8
  | .inf neg => if neg then 0 else 7
  | .fin neg m _ =>
    if m = 0 then (if neg then 3 else 4)
    else if m < 2 ^ 23 then (if neg then 2 else 5)
    else (if neg then 1 else 6)

/-- FCLASS (R134): one bit set. -/
def execFclass (d a : BitVec 7) (s : State) : Result :=
  floatOp d a 0 (fun _ x _ _ => (2 ^ classOf (low32 x), 0)) s

/-- FCVTBF (R133): f32 to bf16. -/
def execFcvtbf (d a : BitVec 7) (s : State) : Result :=
  floatOp d a 0 (fun m x _ _ => roundF 0x14 m 0 false (v32 x)) s

/-- FCVTFB (R133): bits [15:0] as bf16, exact; a NaN gives the canonical NaN. -/
def execFcvtfb (d a : BitVec 7) (s : State) : Result :=
  floatOp d a 0 (fun m x _ _ => roundF 0x16 m 0 false (val 0x14 (x.toNat % 2 ^ 16))) s

end Sys2Proof.Machine
end

