-- ==== Sys2Proof/Machine/ArrayOps.lean ====
section
/-! DEFINITION. What array instructions write: element functions, conversions, special functions, reductions and moves
(chapters 08 and 09).  Sources and the mask are read from the rows as they stood before the instruction. -/

namespace Sys2Proof.Machine

/-! ### Special functions (R57, R58, R212) -/

/-- The fraction bits that special functions are computed with. -/
def specBits : Nat := 320

/-- 2^f for a fraction f = m / 2^n in [0, 1), as a multiple of 2^-320 cut down: the product of the roots 2^(2^-i). -/
def exp2Chain (m : Nat) : Nat → Nat → Nat → Nat
  | 0, _, acc => acc
  | n + 1, root, acc =>
    let root := isqrt (root * 2 ^ specBits) (specBits + 2) 0
    exp2Chain m n root (if bit m n then acc * root / 2 ^ specBits else acc)

/-- 2^x for a finite x: the value cut to a long magnitude, and whether it was cut. -/
def exp2Num (neg : Bool) (m : Nat) (e : Int) : Num × Bool :=
  let n := (-e).toNat
  let v : Int := (if neg then -1 else 1) * (if 0 ≤ e then m * 2 ^ (min e 20).toNat else m : Nat)
  let whole : Int := if 20 < e ∧ m ≠ 0 then (if neg then -100000 else 100000) else v / (2 ^ n : Nat)
  let whole : Int := max (-100000) (min 100000 whole)
  let frac : Nat := (v % (2 ^ n : Nat)).toNat
  if frac = 0 ∨ 20 < e then (.fin false 1 whole, false)
  else (.fin false (exp2Chain frac n (2 ^ (specBits + 1)) (2 ^ specBits)) (whole - specBits), true)

/-- `n` bits of log2 of y / 2^320 in [1, 2), by repeated squaring. -/
def log2Bits : Nat → Nat → Nat → Nat
  | 0, _, acc => acc
  | n + 1, y, acc =>
    let q := y * y / 2 ^ specBits
    if 2 ^ (specBits + 1) ≤ q then log2Bits n (q / 2) (2 * acc + 1) else log2Bits n q (2 * acc)

/-- log2 of a positive value: cut to 96 fraction bits, and whether it was cut. -/
def log2Num (m : Nat) (e : Int) : Num × Bool :=
  let k := Nat.log2 m
  let whole : Int := e + (k : Nat)
  if m = 2 ^ k then (.ofInt whole, false)
  else
    let f : Nat := log2Bits 96 (m * 2 ^ specBits / 2 ^ k) 0
    let x : Int := whole * (2 ^ 96 : Nat) + (f : Nat)
    -- a negative value is cut towards zero so that what was cut adds to its magnitude
    if 0 ≤ x then (.fin false x.toNat (-96), true) else (.fin true (-x - 1).toNat (-96), true)

/-- The exact value of a special function (cut, with sticky) and its NV or DZ (Table 02-9): 0 VEXP2, 1 VLOG2, 2 VRCP,
3 VRSQRT. -/
def specialNum (fn : Nat) (x : Num) : Num × Bool × BitVec 6 :=
  match x with
  | .nan => (.nan, false, 0)
  | .inf neg =>
    match fn with
    | 0 => if neg then (.fin false 0 0, false, 0) else (.inf false, false, 0)
    | 1 => if neg then (.nan, false, flNV) else (.inf false, false, 0)
    | 2 => (.fin neg 0 0, false, 0)
    | _ => if neg then (.nan, false, flNV) else (.fin false 0 0, false, 0)
  | .fin neg m e =>
    if m = 0 then
      match fn with
      | 0 => (.fin false 1 0, false, 0)
      | 1 => (.inf true, false, flDZ)
      | _ => (.inf neg, false, flDZ)
    else
      match fn with
      | 0 => let r := exp2Num neg m e; (r.1, r.2, 0)
      | 1 => if neg then (.nan, false, flNV) else let r := log2Num m e; (r.1, r.2, 0)
      | 2 => let r := quotient false 1 0 neg m e; (r.1, r.2, 0)
      | _ =>
        if neg then (.nan, false, flNV)
        else
          let q := quotient false (2 ^ 128) (-128) false m e
          match q.1 with
          | .fin _ n f => let r := rootOf n f; (r.1, r.2 || q.2, 0)
          | z => (z, false, 0)

/-- The place of an f32 pattern that is no NaN in the order of values: both zeros stand at 0. -/
def f32Order (x : Nat) : Int := (if bit x 31 then -1 else 1) * (x % 2 ^ 31 : Nat)

/-- Whether an f32 special function gives the upper of its two bracketing values, of which `lo` is the lower (R57): VEXP2
and VLOG2 from their turn on, VRCP and VRSQRT, which fall, up to it.  Over each bracket the choice is monotone. -/
def specialUpper (fn lo x : Nat) : Bool :=
  if fn ≤ 1 then decide (Config.specialTurn fn lo ≤ f32Order x) else decide (f32Order x ≤ Config.specialTurn fn lo)

/-- A special function of a pattern (R57, R58, R212): to nearest even, but in f32 one of the two values that bracket
the exact result, by a fixed monotone function of the input (log entry 25). -/
def specialFn (fn t : Nat) (sat : Bool) (x : Nat) : Nat × BitVec 6 :=
  let r := specialNum fn (valF (ffmt t) x)
  let mode :=
    if t = 0x16 then
      (if specialUpper fn (roundF t mRDN 0 false r.1 r.2.1).1 x then mRUP else mRDN)
    else mRNE
  let q := roundF t mode 0 sat r.1 r.2.1
  (q.1, q.2 ||| r.2.2)

/-! ### Conversion (R213) -/

/-- The format of e3m5 as a destination of conversions (R37, R213). -/
def scaleFmt : FFmt := { mb := 5, eb := 3, bias := 4, hasInf := false, hasNan := false, max := 0xFF, nan := 0 }

/-- Rounds a value to e3m5 (R213).  An inexact result below the smallest normal scale raises UF beside NX, as Table 02-8
has it of every floating-point result (log entry 127). -/
def roundScale (mode gen : Nat) (x : Num) (sticky : Bool := false) : Nat × BitVec 6 :=
  match x with
  | .nan => (0, flNV)
  | .inf neg => if neg then (0, flNV) else (0xFF, flOF ||| flNX)
  | .fin neg m e => if m = 0 then (0, 0) else if neg then (0, flNV) else roundFin scaleFmt mode gen false m e sticky

/-- `round` to a destination type that is a floating-point or the scale type. -/
def roundTyped (t mode gen : Nat) (sat : Bool) (x : Num) : Nat × BitVec 6 :=
  if t = 0x17 then roundScale mode gen x else roundF t mode gen sat x

/-- VCVT of one pattern (R213), with the scale when the word is block-scaled.  An unscaled e3m5 source goes to an integer
type by `toint`, as the values of a floating-point type do (log entry 127). -/
def convert (t1 td mode gen : Nat) (sat : Bool) (scale : Option Nat) (x : Nat) : Nat × BitVec 6 :=
  let v : Num × BitVec 6 :=
    match scale with
    | some b => Num.mul (rdnOf mode) (val t1 x) (valScale b)
    | none => (valSigned (rdnOf mode) t1 x, 0)
  let r :=
    if !isInt td then roundTyped td mode gen sat v.1
    else if !isInt t1 || scale.isSome then toint td mode gen v.1
    else if sat then satInt td (intOf t1 x)
    else (wrapBits (width td) (intOf t1 x), 0)
  (r.1, r.2 ||| v.2)

/-- Whether a conversion passes through a rounding, so that mode 101 advances the generator (R42). -/
def convertRounds (t1 td : Nat) (scaled : Bool) : Bool := !isInt td || !isInt t1 || scaled

/-! ### Element functions (R186 to R202, R209 to R213, R225) -/

/-- A pattern read as signed, whatever the type (R191). -/
def sx (n x : Nat) : Int := sext x n

/-- The pattern of a mask result (R191). -/
def flagBit (b : Bool) : Nat × BitVec 6 := (b2n b, 0)

/-- The result of a floating-point compare (Table 09-3): NV for the ordered ones on a NaN. -/
def floatCompare (op : ArrOp) (t x y : Nat) : Nat × BitVec 6 :=
  let a := valF (ffmt t) x
  let b := valF (ffmt t) y
  if a = .nan ∨ b = .nan then
    match op with
    | .vcfun => (1, 0)
    | .vcfeq => (0, 0)
    | _ => (0, flNV)
  else
    match op with
    | .vcfeq => flagBit (Num.cmp a b == 0)
    | .vcflt => flagBit (decide (Num.cmp a b < 0))
    | .vcfle => flagBit (decide (Num.cmp a b ≤ 0))
    | _ => (0, 0)

/-- A floating-point result: the exact value with its flags and sticky part, rounded to td under R44 and R45. -/
def floatResult (r : Resolved) (gen : Nat) (v : Num × BitVec 6) (sticky : Bool := false) : Nat × BitVec 6 :=
  let q := roundF r.td r.mode gen r.sat v.1 sticky
  (q.1, q.2 ||| v.2)

/-- The bits set in the `n` low bits of a pattern. -/
def popBits (x : Nat) : Nat → Nat
  | 0 => 0
  | n + 1 => b2n (bit x n) + popBits x n

/-- The zero bits above the highest set bit of an n-bit pattern (R199). -/
def clzBits (x : Nat) : Nat → Nat
  | 0 => 0
  | n + 1 => if bit x n then 0 else 1 + clzBits x n

/-- Bit j of VBOOL's result from the truth table (R194). -/
def boolBit (tt z x y j : Nat) : Nat :=
  b2n (bit tt (4 * b2n (bit z j) + 2 * b2n (bit x j) + b2n (bit y j))) * 2 ^ j

/-- The value of an element-wise word at one element and its flags: `x` and `y` are the source patterns, `z` the old
destination pattern, `gen` the column's generator, `scale` its scale byte. -/
def elemFn (c : ArrCtx) (gen : Nat) (scale : Option Nat) (x y z : Nat) : Nat × BitVec 6 :=
  let r := c.r
  let n := width r.t1
  let nd := width r.td
  let ix := intOf r.t1 x
  let iy := intOf r.t2 y
  let iz := intOf r.td z
  let fx := valF (ffmt r.t1) x
  let fy := valF (ffmt r.t2) y
  let fz := valF (ffmt r.td) z
  let rdn := rdnOf r.mode
  let imm := c.w.b.toNat
  match c.w.op with
  | .vadd => (wrapBits n (ix + iy), 0)
  | .vsub => (wrapBits n (ix - iy), 0)
  | .vaddi => (wrapBits n (ix + sext imm 7), 0)
  | .vadds => satInt r.td (ix + iy)
  | .vsubs => satInt r.td (ix - iy)
  | .vmul => (wrapBits n (ix * iy), 0)
  | .vmulh => (wrapBits n (ix * iy / (2 ^ n : Nat)), 0)
  | .vmac => (wrapBits n (iz + ix * iy), 0)
  | .vwmac => (wrapBits (2 * n) (iz + ix * iy), 0)
  | .vmin => (if sx n y < sx n x then y else x, 0)
  | .vmax => (if sx n x < sx n y then y else x, 0)
  | .vminn => (if y < x then y else x, 0)
  | .vmaxn => (if x < y then y else x, 0)
  | .vand => (x &&& y, 0)
  | .vor => (x ||| y, 0)
  | .vxor => (x ^^^ y, 0)
  | .vmov => (x, 0)
  | .vnot => (2 ^ n - 1 - x, 0)
  | .vbool => (boolBit c.boolt z x y 0 + boolBit c.boolt z x y 1 + boolBit c.boolt z x y 2 + boolBit c.boolt z x y 3, 0)
  | .vsll => (if n ≤ y then 0 else x * 2 ^ y % 2 ^ n, 0)
  | .vsrl => (if n ≤ y then 0 else x / 2 ^ y, 0)
  | .vsra => (wrapBits n (sx n x / (2 ^ min y (n - 1) : Nat)), 0)
  | .vslli => (if n ≤ imm then 0 else x * 2 ^ imm % 2 ^ n, 0)
  | .vsrli => (if n ≤ imm then 0 else x / 2 ^ imm, 0)
  | .vsrai => (wrapBits n (sx n x / (2 ^ min imm (n - 1) : Nat)), 0)
  | .vneg => (wrapBits n (-ix), 0)
  | .vabs => (wrapBits n ix.natAbs, 0)
  | .vclz => (clzBits x n, 0)
  | .vpopc => (popBits x n, 0)
  | .vceq => flagBit (x == y)
  | .vcne => flagBit (x != y)
  | .vclt => flagBit (decide (sx n x < sx n y))
  | .vcge => flagBit (decide (sx n y ≤ sx n x))
  | .vcltn => flagBit (decide (x < y))
  | .vcgen => flagBit (decide (y ≤ x))
  | .vcfeq | .vcflt | .vcfle | .vcfun => floatCompare c.w.op r.t1 x y
  | .vsearch => flagBit (((x ^^^ c.akey) &&& c.akmask) % 2 ^ n == 0)
  | .vkwrite => ((c.akey &&& c.akmask) % 2 ^ n + (z - (z &&& (c.akmask % 2 ^ n))), 0)
  | .vfadd => floatResult r gen (Num.add rdn fx fy)
  | .vfsub => floatResult r gen (Num.add rdn fx fy.neg)
  | .vfmul => floatResult r gen (Num.mul rdn fx fy)
  | .vfma => floatResult r gen (fmaNum rdn fx fy fz)
  | .vfms => floatResult r gen (fmsNum rdn fx fy fz)
  | .vfdiv => let q := divNum rdn fx fy; floatResult r gen (q.1, q.2.2) q.2.1
  | .vfsqrt => let q := sqrtNum rdn fx; floatResult r gen (q.1, q.2.2) q.2.1
  | .vfmin => (minmaxF r.t1 false x y, 0)
  | .vfmax => (minmaxF r.t1 true x y, 0)
  | .vfneg => (x ^^^ 2 ^ (n - 1), 0)
  | .vfabs => (x % 2 ^ (n - 1), 0)
  | .vexp2 => specialFn 0 r.t1 r.sat x
  | .vlog2 => specialFn 1 r.t1 r.sat x
  | .vrcp => specialFn 2 r.t1 r.sat x
  | .vrsqrt => specialFn 3 r.t1 r.sat x
  | .vcvt => convert r.t1 r.td r.mode gen r.sat scale x
  | .vbcast => (c.x0.toNat % 2 ^ nd, 0)
  | _ => (0, 0)

/-- Element-wise words whose value passes through a rounding under the resolved mode (R42). -/
def ArrCtx.rounds (c : ArrCtx) : Bool :=
  match c.w.op with
  | .vfadd | .vfsub | .vfmul | .vfma | .vfms | .vfdiv | .vfsqrt => true
  | .vcvt => convertRounds c.r.t1 c.r.td (c.r.scale != 0)
  | _ => false

/-- The scale byte of an element: byte (e mod 32) div 8 of element e div 32 of the scale group (R38, R207). -/
def ArrCtx.scaleByte (c : ArrCtx) (m : Memory) (g e : Nat) : Nat :=
  bits (c.get m g 32 (e / 32)) (e % 32 / 8 * 8) 8

/-- One element written by `f`, with its flags and its generator's step (R42, R49). -/
def ArrCtx.write (c : ArrCtx) (g : Group) (rounds : Bool) (e : Nat) (f : Nat → Nat × BitVec 6) (a : ArrAcc) : ArrAcc :=
  let k := c.column e
  let v := f (genValue a.gens k)
  { m := c.put a.m g.1 g.2 e v.1,
    gens := if rounds && c.r.mode == mSTO then genStep a.gens k else a.gens,
    fl := a.fl ||| v.2 }

/-- Zeroing under p = 11: every inactive element of the destination becomes 0, below START and at or above VL too
(R168); `q` says which positions the word writes at all. -/
def ArrCtx.zero (c : ArrCtx) (m0 : Memory) (g : Group) (q : Nat → Bool) (a : ArrAcc) : ArrAcc :=
  if c.w.p = 3 then
    { a with m := loop (fun e m => if q e && !c.active m0 e then c.put m g.1 g.2 e 0 else m) 0 (4096 * c.ways.length) a.m }
  else a

/-- The group of a word's destination. -/
def ArrCtx.dst (c : ArrCtx) : Group := (c.w.dest c.r).getD (0, 1)

/-- An element-wise word: every active element is written from its sources. -/
def ArrCtx.elementwise (c : ArrCtx) (m0 : Memory) (a : ArrAcc) : ArrAcc :=
  let g := c.dst
  let one := c.w.op == .vbool
  let n1 := if one then 4 else width c.r.t1
  let n2 := if one then 4 else width c.r.t2
  let nd := if one then 4 else width c.r.td
  let src (b : BitVec 7) (n e : Nat) : Nat := c.get m0 b.toNat n e
  c.zero m0 g (fun _ => true) (c.over (fun e a =>
    if c.active m0 e then
      let y := if c.w.op.twoSources then src c.w.b n2 e else 0
      let sc := if c.r.scale = 0 then none else some (c.scaleByte m0 c.scaleg e)
      c.write g c.rounds e (fun gen => elemFn c gen sc (src c.w.a n1 e) y (c.get m0 g.1 nd e)) a
    else a) a)

/-- VMERGE (R195): a0 chooses the source of every element from START to VL − 1. -/
def ArrCtx.merge (c : ArrCtx) (m0 : Memory) (a : ArrAcc) : ArrAcc :=
  c.over (fun e a =>
    if c.inRange e then
      let s := if c.mask m0 e then c.w.a else c.w.b
      c.write c.dst false e (fun _ => (c.get m0 s.toNat (width c.r.t1) e, 0)) a
    else a) a

/-- VKWRITE (R202): the key goes into the selected bits of the marked elements. -/
def ArrCtx.keyWrite (c : ArrCtx) (m0 : Memory) (a : ArrAcc) : ArrAcc :=
  let n := width c.r.t1
  let g : Group := (c.w.d.toNat, regsOf c.r.t1)
  if c.akmask % 2 ^ n = 0 then a
  else c.over (fun e a =>
    if c.inRange e && c.mask m0 e then
      let z := c.get m0 g.1 n e
      c.write g false e (fun _ => elemFn c 0 none z 0 z) a
    else a) a

/-- VDOT and VDOTS (R190): the total of the active products of four elements and the accumulator. -/
def ArrCtx.dot (c : ArrCtx) (m0 : Memory) (a : ArrAcc) : ArrAcc :=
  let g := c.dst
  let n := width c.r.t1
  c.zero m0 g (fun e => e % 4 == 0) (c.over (fun e a =>
    if e % 4 == 0 && c.active m0 e then
      let s : Int := loop (fun k s =>
        if c.active m0 (e + k) then
          s + intOf c.r.t1 (c.get m0 c.w.a.toNat n (e + k)) * intOf c.r.t2 (c.get m0 c.w.b.toNat n (e + k))
        else s) 0 4 (intOf c.r.td (c.get m0 g.1 (4 * n) e))
      c.write g false e (fun _ => if c.w.op = .vdots then satInt c.r.td s else (wrapBits (4 * n) s, 0)) a
    else a) a)

/-! ### Moves (R221 to R225, R489) -/

/-- VSLIDEUP, VSLIDEDN and VREV: each active element takes the source element `from` names, if any. -/
def ArrCtx.move (c : ArrCtx) (m0 : Memory) (src : Nat → Option Nat) (a : ArrAcc) : ArrAcc :=
  c.zero m0 c.dst (fun _ => true) (c.over (fun e a =>
    if c.active m0 e then
      match src e with
      | some v => c.write c.dst false e (fun _ => (v, 0)) a
      | none => a
    else a) a)

/-- The source pattern of element `e` of the word's first source. -/
def ArrCtx.src (c : ArrCtx) (m0 : Memory) (e : Nat) : Nat := c.get m0 c.w.a.toNat (width c.r.t1) e

/-- VIOTA (R223): each active element gets the number of active elements below it whose source row 0 is 1. -/
def ArrCtx.iota (c : ArrCtx) (m0 : Memory) (a : ArrAcc) : ArrAcc :=
  c.zero m0 c.dst (fun _ => true) (c.over (fun e (p : Nat × ArrAcc) =>
    if c.active m0 e then
      (p.1 + c.get m0 c.w.a.toNat 1 e,
        c.write c.dst false e (fun _ => (p.1 % 2 ^ width c.r.td, 0)) p.2)
    else p) (0, a)).2

/-- VCOMPRESS (R224, R489): the marked elements go to START, START + 1, … in ascending order. -/
def ArrCtx.compress (c : ArrCtx) (m0 : Memory) (a : ArrAcc) : ArrAcc :=
  (c.over (fun e (p : Nat × ArrAcc) =>
    if c.inRange e && c.mask m0 e then
      (p.1 + 1, c.write c.dst false (c.start + p.1) (fun _ => (c.src m0 e, 0)) p.2)
    else p) (0, a)).2

/-- VEXPAND (R224, R489): each marked element takes the next source element from START. -/
def ArrCtx.expand (c : ArrCtx) (m0 : Memory) (a : ArrAcc) : ArrAcc :=
  (c.over (fun e (p : Nat × ArrAcc) =>
    if c.inRange e && c.mask m0 e then
      (p.1 + 1, c.write c.dst false e (fun _ => (c.src m0 (c.start + p.1), 0)) p.2)
    else p) (0, a)).2

/-! ### Reductions (R52, R53, R216 to R218) -/

/-- A pattern extended to 64 bits as its type asks (R216, R225). -/
def extend (t v : Nat) : Word := if isSigned t then wordOfInt (sext v (width t)) else word v

/-- The active patterns of the first source, in ascending element order. -/
def ArrCtx.actives (c : ArrCtx) (m0 : Memory) : List Nat :=
  (c.over (fun e l => if c.active m0 e then c.src m0 e :: l else l) []).reverse

/-- An integer reduction (R216). -/
def ArrCtx.reduceInt (c : ArrCtx) (m0 : Memory) : Word :=
  let t := c.r.t1
  let n := width t
  let l := c.actives m0
  match c.w.op with
  | .vredsum => wordOfInt (l.foldl (fun s x => s + intOf t x) 0)
  | .vredmin => extend t (wrapBits n (l.foldl (fun s x => min s (intOf t x)) (intMax t)))
  | .vredmax => extend t (wrapBits n (l.foldl (fun s x => max s (intOf t x)) (intMin t)))
  | .vredand => extend t (l.foldl (· &&& ·) (2 ^ n - 1))
  | .vredor => extend t (l.foldl (· ||| ·) 0)
  | _ => extend t (l.foldl (· ^^^ ·) 0)

/-- VFREDMAX and VFREDMIN (R216): the chosen active value, exactly as f32; NaN elements are passed over. -/
def ArrCtx.reduceFloat (c : ArrCtx) (m0 : Memory) : Word :=
  let t := c.r.t1
  let wantMax := c.w.op == .vfredmax
  let l := c.actives m0
  match l.filter (fun x => valF (ffmt t) x != .nan) with
  | [] => if l.isEmpty then (if wantMax then 0xFF800000 else 0x7F800000) else 0x7FC00000
  | x :: xs => word (roundF 0x16 mRNE 0 false (valF (ffmt t) (xs.foldl (minmaxF t wantMax) x))).1

/-- One leaf of R52: the exact sum of the active elements of sub-block j, times its scale, rounded to f32. -/
def ArrCtx.leaf (c : ArrCtx) (m0 : Memory) (j : Nat) : Nat × BitVec 6 :=
  let terms := (List.range 8).filterMap (fun k =>
    if c.active m0 (8 * j + k) then some (valF (ffmt c.r.t1) (c.src m0 (8 * j + k))) else none)
  let s := Num.sum false terms
  let v : Num × BitVec 6 :=
    if c.r.scale = 0 then s
    else
      let p := Num.mul false s.1 (valScale (bits (c.get m0 c.w.b.toNat 32 (j / 4)) (j % 4 * 8) 8))
      (p.1, p.2 ||| s.2)
  let q := roundF 0x16 mRNE 0 false v.1
  (q.1, q.2 ||| v.2)

/-- A node of the tree of R52: an f32 addition under RNE. -/
def treeAdd (x y : Nat × BitVec 6) : Nat × BitVec 6 :=
  let s := Num.add false (val 0x16 x.1) (val 0x16 y.1)
  let q := roundF 0x16 mRNE 0 false s.1
  (q.1, q.2 ||| s.2 ||| x.2 ||| y.2)

/-- One level of the tree: neighbours combine, an odd last node passes on. -/
def treeLevel : List (Nat × BitVec 6) → List (Nat × BitVec 6)
  | x :: y :: l => treeAdd x y :: treeLevel l
  | l => l

/-- The tree of R52 over its leaves, level by level. -/
def tree : Nat → List (Nat × BitVec 6) → Nat × BitVec 6
  | 0, l => l.headD (0, 0)
  | n + 1, l => tree n (treeLevel l)

/-- The saturate bit on a final f32 value (R44). -/
def saturate32 (sat : Bool) (x : Nat × BitVec 6) : Nat × BitVec 6 :=
  let q := roundF 0x16 mRNE 0 sat (val 0x16 x.1)
  (q.1, q.2 ||| x.2)

/-- VFREDSUM (R52, R216): the value and its flags. -/
def ArrCtx.fredsum (c : ArrCtx) (m0 : Memory) : Word × BitVec 6 :=
  let l := (List.range ((c.vl + 7) / 8)).map (c.leaf m0)
  let r := saturate32 c.r.sat (tree 18 l)
  (word r.1, r.2)

/-- The f32 value of block i of VSEGSUM (R53). -/
def ArrCtx.block (c : ArrCtx) (m0 : Memory) (i : Nat) : Nat × BitVec 6 :=
  let present := (List.range 4).filter (fun j => 32 * i + 8 * j < c.vl)
  tree 2 (present.map (fun j => c.leaf m0 (4 * i + j)))

/-- VSEGSUM (R53, R217): element i of the destination from block i.  Under mode 101 every written element advances its
column's generator, that of a block with no active element and of an f32 destination too (R42; log entry 128). -/
def ArrCtx.segsum (c : ArrCtx) (m0 : Memory) (a : ArrAcc) : ArrAcc :=
  loop (fun i a =>
    if c.inSel i then
      let v := c.block m0 i
      c.write c.dst true i (fun gen =>
        let q := roundF c.r.td c.r.mode gen c.r.sat (val 0x16 v.1)
        (q.1, q.2 ||| v.2)) a
    else a) 0 ((c.vl + 31) / 32) a

/-- The elements that VMPOPC and VMFIRST count, in ascending order (R218). -/
def ArrCtx.marked (c : ArrCtx) (m0 : Memory) : List Nat :=
  (c.over (fun e l => if c.active m0 e && c.get m0 c.w.a.toNat 1 e == 1 then e :: l else l) []).reverse

/-! ### The whole instruction -/

/-- What an instruction that touches no memory does: its rows, generators and flags, and its scalar result. -/
def ArrCtx.run (c : ArrCtx) (m0 : Memory) (gens : Store 16) : ArrAcc × Word :=
  let a : ArrAcc := { m := m0, gens := gens, fl := 0 }
  let k := min c.x0.toNat (4096 * c.ways.length)
  match c.w.op with
  | .vmerge => (c.merge m0 a, 0)
  | .vkwrite => (c.keyWrite m0 a, 0)
  | .vdot | .vdots => (c.dot m0 a, 0)
  | .vslideup => (c.move m0 (fun e => if k ≤ e then some (c.src m0 (e - k)) else none) a, 0)
  | .vslidedn => (c.move m0 (fun e => some (if e + k < c.vl then c.src m0 (e + k) else 0)) a, 0)
  | .vrev => (c.move m0 (fun e => some (c.src m0 (c.start + c.vl - 1 - e))) a, 0)
  | .viota => (c.iota m0 a, 0)
  | .vcompress => (c.compress m0 a, 0)
  | .vexpand => (c.expand m0 a, 0)
  | .vextr => (a, if c.x0.toNat < c.vl then extend c.r.t1 (c.src m0 c.x0.toNat) else 0)
  | .vinsr =>
    (if c.x1.toNat < c.vl then
      c.write c.dst false c.x1.toNat (fun _ => (c.x0.toNat % 2 ^ width c.r.td, 0)) a
     else a, 0)
  | .vredsum | .vredmin | .vredmax | .vredand | .vredor | .vredxor => (a, c.reduceInt m0)
  | .vfredmax | .vfredmin => (a, c.reduceFloat m0)
  | .vfredsum => let r := c.fredsum m0; ({ a with fl := r.2 }, r.1)
  | .vsegsum => (c.segsum m0 a, 0)
  | .vmpopc => (a, word (c.marked m0).length)
  | .vmfirst =>
    (a, match (c.marked m0).head? with
      | some e => word e
      | none => 0xFFFFFFFFFFFFFFFF)
  | _ => (c.elementwise m0 a, 0)

end Sys2Proof.Machine
end

