-- ==== Sys2Proof/Machine/ArraySteps.lean ====
section
/-! DEFINITION. Step counts of array instructions (R166 to R169, R185, R202, R214, R215, R219 to R225, R328, R336).

Steps change no result; the performance counters of R458 count them. -/

namespace Sys2Proof.Machine

/-- ⌈log2 n⌉, and 0 for n ≤ 1. -/
def clog2 (n : Nat) : Nat := if n ≤ 1 then 0 else Nat.log2 (n - 1) + 1

/-- Exponent width and significand width p = m + 1 of a type; an integer counts e = 0 and p = n (R214, R215). -/
def expWidth (t : Nat) : Nat := if isInt t then 0 else if t = 0x17 then 3 else (ffmt t).eb
def sigWidth (t : Nat) : Nat := if isInt t then width t else if t = 0x17 then 6 else (ffmt t).mb + 1

/-- The steps of VDOT (Table 08-2). -/
def dotSteps (n : Nat) (signed : Bool) : Nat := if signed then n * n + 18 * n + 8 else n * n + 16 * n + 7

/-- The steps of a special function (Table 09-4). -/
def specialSteps (fn t : Nat) : Nat :=
  let n := width t
  if n ≤ 6 then 2 ^ n * (2 * n) + 2
  else
    let row : List Nat :=
      match fn with
      | 0 => [1120, 1120, 1760, 2480, 6900]
      | 1 => [1160, 1160, 1840, 2620, 7300]
      | 2 => [980, 980, 1420, 2030, 5600]
      | _ => [1240, 1240, 1960, 2760, 7800]
    row.getD (t - 0x12) 0

/-- The steps per pass of VCVT (R215). -/
def convertSteps (r : Resolved) : Nat :=
  let ns := width r.t1
  let nd := width r.td
  let base :=
    if isInt r.t1 && isInt r.td then (if r.sat then 2 * ns + nd + 4 else nd)
    else
      let w := max (sigWidth r.t1) (sigWidth r.td)
      ns + nd + 2 * max (expWidth r.t1) (expWidth r.td) + (w + 3) * clog2 (w + 3) + 10
  if r.scale = 0 then base else base + 6 * (sigWidth r.td + 3) + 8

/-- S of a word whose length is S per pass (Tables 08-2 and 09-4, R225, R328, R336). -/
def ArrCtx.stepsPerPass (c : ArrCtx) : Nat :=
  let r := c.r
  let n := width r.t1
  let l := clog2 n
  let l' := clog2 (n + 1)
  let signed := isSigned r.t1 || (c.w.op.twoSources && isSigned r.t2)
  let m := popBits c.akmask n
  let e := max (expWidth r.t1) (expWidth r.td)
  let p := max (sigWidth r.t1) (sigWidth r.td)
  let w := max (width r.t1) (width r.td)
  let a := clog2 (p + 3)
  let a' := clog2 (2 * p + 3)
  let popc := l' + n * (l' + 1) + n
  let e1 := expWidth r.t1
  match c.w.op with
  | .vadd | .vsub => n + 1
  | .vadds | .vsubs => 2 * n + 4
  | .vaddi => n + 3
  | .vmul => n * (n + 1)
  | .vmulh => if signed then n * n + 3 * n + 1 else n * (n + 2)
  | .vmac => (n + 1) * (n + 1)
  | .vwmac => if signed then n * n + 6 * n + 2 else n * n + 4 * n + 1
  | .vdot => dotSteps n signed
  | .vdots => dotSteps n signed + 4 * n + 3
  | .vminn | .vmaxn => 2 * n + 1
  | .vmin | .vmax | .vceq | .vcne => 2 * n + 3
  | .vcltn | .vcgen => n + 5
  | .vclt | .vcge => n + 7
  | .vand | .vor | .vxor | .vnot | .vmov | .vmerge => n
  | .vbool => 12
  | .vsll | .vsrl | .vsra => n * (l + 1) + n - l
  | .vslli | .vsrli | .vsrai => n
  | .vneg => n + 2
  | .vabs => if signed then 2 * n + 2 else n
  | .vpopc => popc
  | .vclz => popc + n
  | .vsearch => m + 4
  | .vkwrite => m
  | .vfadd | .vfsub => 4 * e + 5 * p + 2 * a * (p + 3) + a + 12
  | .vfmul => p * (p + 2) + 2 * e + 3 * p + w + 10
  | .vfma | .vfms => p * (p + 2) + 6 * e + 10 * p + 2 * a' * (2 * p + 3) + a' + 20
  | .vfdiv => (p + 3) * (p + 4) + 2 * e + 2 * p + w + 12
  | .vfsqrt => (p + 3) * (p + 5) + e + 2 * p + w + 12
  | .vfmin | .vfmax => 4 * n + e1 + 9
  | .vfneg | .vfabs => n
  | .vcfeq => 2 * n + e1 + 7
  | .vcflt | .vcfle => 3 * n + e1 + 9
  | .vcfun => 2 * n + 4
  | .vexp2 => specialSteps 0 r.t1
  | .vlog2 => specialSteps 1 r.t1
  | .vrcp => specialSteps 2 r.t1
  | .vrsqrt => specialSteps 3 r.t1
  | .vcvt => convertSteps r
  | .vbcast => width r.td
  | .vldx | .vstx => 4 * regsOf r.t1 + 32
  | .vstr => 4 * regsOf r.t1 + (if r.scale = 0 then 0 else 32)
  | _ => 4 * regsOf r.t1

/-- Live groups of the array way at position `i` (R166); under density time only groups with a marked element. -/
def ArrCtx.liveGroups (c : ArrCtx) (m0 : Memory) (density : Bool) (i : Nat) : Nat :=
  ((List.range 16).filter (fun g => (List.range 256).any (fun k =>
    let e := 4096 * i + 256 * g + k
    c.inRange e && (!density || c.mask m0 e)))).length

/-- Passes of the array way at position `i`. -/
def ArrCtx.passes (c : ArrCtx) (m0 : Memory) (density : Bool) (i : Nat) : Nat := (c.liveGroups m0 density i + 7) / 8

/-- The most passes of any way; 0 when no group is live. -/
def ArrCtx.mostPasses (c : ArrCtx) (m0 : Memory) : Nat :=
  ((List.range c.ways.length).map (c.passes m0 (c.w.p == 2))).foldl max 0

/-- Density skips: passes that density time removes from what p = 01 would run, one per way (R166). -/
def ArrCtx.skips (c : ArrCtx) (m0 : Memory) : Nat :=
  if c.w.p = 2 then
    ((List.range c.ways.length).map (fun i => c.passes m0 false i - c.passes m0 true i)).sum
  else 0

/-- W of R219: selected array ways that hold a live group, and at least 1. -/
def ArrCtx.liveWays (c : ArrCtx) (m0 : Memory) : Nat :=
  max 1 ((List.range c.ways.length).filter (fun i => c.passes m0 (c.w.p == 2) i != 0)).length

/-- The cost of a slide by k over a group of r rows (R221). -/
def slideSteps (r k : Nat) : Nat :=
  r * (3 * popBits (k % 256) 8 + k / 256 % 16 + 4 * (k / 4096)) + r + 2

/-- The length of a reduction from its r and c (R219). -/
def reduceSteps (passes w r c : Nat) : Nat := passes * (8 * (r + c)) + 4 * (r + c) + clog2 w * (4 * r + c) + r + 4

/-- Words whose length does not come from live groups: they act on a whole way or on one element, or have no step of their
own (R165, R177, R179, R225, R334). -/
def ArrOp.ownLength : ArrOp → Bool
  | .vextr | .vinsr | .waitv | .aclr | .ashape | .msplit | .msetm => true
  | _ => false

/-- The length of an instruction in steps (R167, R168).  One with no live group in any array way costs 1 step, its
once-only costs included (R167); under p = 11 the clearing of R168 still runs (log entry 129), for VREV and VIOTA within
their whole cost.  DESIGN CHOICE (log entry 159): a VREV whose 4,096W − START − VL is negative slides by 0, and a VEXTR or
VINSR of an element in an unselected way costs 1 step. -/
def ArrCtx.length (c : ArrCtx) (m0 : Memory) : Nat :=
  let t := c.r.t1
  let n := width t
  let w := c.liveWays m0
  let ps := c.mostPasses m0
  let rows := 4 * c.dst.2
  let masked := c.w.p != 0
  let once (k : Nat) : Nat :=
    if c.w.p = 3 then (if ps = 0 then max 1 rows else max k rows + 1) else if masked then k + 1 else k
  let whole (k : Nat) : Nat :=
    if c.w.p = 3 then max k rows + (if ps = 0 then 0 else 1) else if masked then k + 1 else k
  let s := c.stepsPerPass
  let perPass (extra : Nat) (mask : Bool) : Nat :=
    let ofWay (i : Nat) : Nat :=
      let p := c.passes m0 (c.w.p == 2) i
      let base := if c.w.p = 3 && c.sel.getD i false then s * (max 1 p - 1) + max s rows else s * p
      base + (if mask && p != 0 then 1 else 0)
    max 1 (((List.range c.ways.length).map ofWay).foldl max 0 + extra)
  let r4 := 4 * regsOf c.r.td
  let fixed := 2 ^ expWidth t + sigWidth t + 3
  let x := if c.r.scale = 0 then 0 else 170
  if ps = 0 && c.w.p != 3 && !c.w.op.ownLength then 1
  else match c.w.op with
  | .vkwrite => if popBits c.akmask n = 0 then 1 else perPass 0 true
  | .vmerge => perPass 0 true
  | .vslideup | .vslidedn => once (slideSteps r4 (min c.x0.toNat (4096 * c.ways.length)))
  | .vrev =>
    let ws := (c.sel.filter id).length
    whole (r4 * (56 + 8 * ws) + slideSteps r4 (4096 * ws - c.start - c.vl))
  | .viota => whole (444 + 91 * clog2 w + width c.r.td)
  | .vcompress | .vexpand => 462 + 91 * clog2 w + (r4 + 18) * (35 + 4 * w)
  | .vextr => if c.x0.toNat < c.vl && c.inSel c.x0.toNat then n + 6 else 1
  | .vinsr => if c.x1.toNat < c.vl && c.inSel c.x1.toNat then n + 6 else 1
  | .vredsum => once (reduceSteps ps w (n + 17) (n + 18))
  | .vredand | .vredor | .vredxor => once (reduceSteps ps w n n)
  | .vredmin | .vredmax => once (reduceSteps ps w n (if isSigned t then 2 * n + 7 else 2 * n + 5))
  | .vfredmax | .vfredmin => once (reduceSteps ps w n (4 * n + expWidth t + 9))
  | .vmpopc => once (reduceSteps ps w 18 19)
  | .vmfirst => once (reduceSteps ps w 18 41)
  | .vfredsum => once (ps * (3 * (2 * fixed + 1) + fixed + 40 + x + 5 * 471) + 4 * 471 + clog2 w * 567 + 36)
  | .vsegsum =>
    once (ps * (3 * (2 * fixed + 1) + fixed + 40 + x + 2 * 471) + 32 * (19 + 4 * w) +
      (if c.r.td = 0x14 then 209 else 0) + (if c.r.scale = 0 then 0 else 96))
  | .vcvt => perPass (if c.r.scale = 0 then 0 else 96) masked
  | .waitv => 28
  | .aclr => 512
  | .ashape | .msplit | .msetm => 0
  | _ => perPass 0 masked

end Sys2Proof.Machine
end

