-- ==== Sys2Proof/Machine/ArrayQueue.lean ====
section
/-! DEFINITION. The array issue queue: entries, the order in which they begin, translation and data phases of array memory
words, broadcast blocks, begin and completion (R170 to R173, R232 to R234, R321 to R328, R335, R336). -/

namespace Sys2Proof.Machine

/-! ### Entries -/

/-- Types and modes of an entry. -/
def QEntry.res (q : QEntry) : Resolved := resolve q.w.op q.fmt q.shape q.rmode.toNat

/-- What an entry still works on (R157, R171, R234): the ways that have run it already are not selected any more. -/
def State.ctx (s : State) (q : QEntry) : ArrCtx :=
  let ways := waysOf s.core.wayrole (shLsel q.shape)
  { ways := ways, sel := ways.map (fun w => bit q.sel.toNat (s.mtNumber w) && !bit q.ran.toNat w), start := shStart q.shape,
    vl := shVl q.shape, w := q.w, r := q.res, x0 := q.x0, x1 := q.x1, boolt := q.boolt.toNat,
    akey := q.akey.toNat, akmask := q.akmask.toNat, scaleg := wf q.scaleg 0 7 }

/-- Words of major 38 and 39 that act on micro-threads whatever SHAPE.LSEL selects (R179, R235, R246). -/
def ArrOp.wholeCore : ArrOp → Bool
  | .aclr | .msplit | .msetm => true
  | _ => false

/-- The ways that an entry uses: its array ways that its micro-thread mask selects.  WAITV works in array way 0 alone
(R334). -/
def State.usedWays (s : State) (q : QEntry) : List Nat :=
  let ways := waysOf s.core.wayrole (if q.w.op.wholeCore then 0 else shLsel q.shape)
  (if q.w.op = .waitv then ways.take 1 else ways).filter (fun w => bit q.sel.toNat (s.mtNumber w))

/-- The ways in which an entry is still to run. -/
def State.restWays (s : State) (q : QEntry) : List Nat := (s.usedWays q).filter (fun w => !bit q.ran.toNat w)

/-- Whether each way may run its part of an entry for itself (R171): the elements of one way need no others. -/
def QEntry.parted (q : QEntry) : Bool :=
  q.w.op == .msetm || (!q.w.op.wholeCore && !q.w.op.crosses && q.w.op != .waitv && q.res.scale == 0)

/-- An entry for a word of hart `h`, with what the CSRs hold as the words before it left them (R148, R163, R203). -/
def State.newEntry (s : State) (h : BitVec 1) (w : ArrWord) (fmt : Option (BitVec 26)) (shape : Word)
    (sel : BitVec 32) (x0 x1 : Word) (dest : Nat) : QEntry :=
  let c := s.core
  { seq := c.nextSeq, w := w, hart := h, fmt := fmt, shape := shape, scaleg := c.scaleg, bandsc := c.bandsc,
    tshape := c.tshape, boolt := c.boolt, akey := c.akey, akmask := c.akmask,
    rmode := BitVec.ofNat 3 (s.hart h).csr.rmode.toNat, sel := sel, x0 := x0, x1 := x1, dest := BitVec.ofNat 6 dest,
    addrs := [], stage := .waiting, flags := 0, value := 0, steps := 0, skips := 0 }

/-- Places an entry at the tail of the array issue queue. -/
def State.enqueue (s : State) (q : QEntry) : State :=
  { s with core := { s.core with
      queue := s.core.queue ++ [{ q with seq := s.core.nextSeq }], nextSeq := s.core.nextSeq + 1 } }

/-- Free entries of the array issue queue. -/
def State.queueRoom (s : State) : Nat := Config.arrayQueueEntries - s.core.queue.length

/-- SHAPE after an array instruction that found START ≠ 0 (R163). -/
def startCleared (shape : Word) : Word := wset shape 25 18 0

/-- The state with SHAPE replaced. -/
def State.setShape (s : State) (x : Word) : State := { s with core := { s.core with shape := x } }

/-- The scalar registers that an array word reads, its first and second scalar operands (Tables 03-5 and 03-6, R335). -/
def ArrWord.scalars (w : ArrWord) : List (BitVec 7) :=
  match w.op with
  | .vbcast | .vextr | .vslideup | .vslidedn => [w.b]
  | .vinsr => [w.a, w.b]
  | .vld | .vst | .vldl | .vstl | .vldy | .vsty | .vldff | .vldx | .vstx => [w.a]
  | .vlds | .vsts | .vldys | .vstys => [w.a, w.b]
  | .vstr => [w.d]
  | _ => []

/-- The scalar destination of an array word, 0 for none. -/
def ArrWord.scalarDest (w : ArrWord) : Nat := if w.op.scalarResult then w.d.toNat else 0

/-! ### Order between entries (R171, R257, R289) -/

/-- Whether a word reads its mask from row 0 of a0 whatever its p (R195, R202, R224). -/
def ArrOp.alwaysMasked : ArrOp → Bool
  | .vmerge | .vkwrite | .vcompress | .vexpand => true
  | _ => false

/-- The array group that an entry writes. -/
def QEntry.destGroup (q : QEntry) : Option Group := q.w.dest q.res

/-- The groups that an entry reads, with the chain bit of each: sources, scale group, accumulator and mask (R171). -/
def QEntry.readGroups (q : QEntry) : List (Group × Bool) :=
  let src := (q.w.sources q.res).map (fun g => (g.1, g.2 && !q.w.op.crosses))
  let scale := (q.w.scaleGroup q.res q.scaleg).toList.map (fun g => (g, false))
  let acc := if q.w.op.accumulates then (q.destGroup.toList).map (fun g => (g, true)) else []
  let mask := if q.w.p != 0 || q.w.op.alwaysMasked then [(((0, 1) : Group), true)] else []
  src ++ scale ++ acc ++ mask

/-- Whether a waiting entry `e` before `q` in the same queue holds `q` back in way `w` (R171): `e` is still to run there, or
writes a source of `q` that is not chained. -/
def State.holdsBack (s : State) (e q : QEntry) (w : Nat) : Bool :=
  e.stage == .waiting &&
  ((s.restWays e).contains w ||
   (match e.destGroup with
    | some g => q.readGroups.any (fun x => g.meets x.1 && !x.2)
    | none => false))

/-- Whether two waiting memory words of the array issue queue touch the same bytes (R289). -/
def bytesMeet (e q : QEntry) : Bool :=
  e.w.op.space == q.w.op.space &&
    e.addrs.any (fun x => q.addrs.any (fun y => decide (x.name < y.name + 8) && decide (y.name < x.name + 8)))

/-- Whether a tile word waits for, or is waited for by, an array word through the tile-register scoreboard: `t` is a
pending tile word and `q` a later array word (Table 11-5). -/
def scoreboardHolds (t q : QEntry) : Bool :=
  let wr := if q.w.op = .aclr then [((0, 128) : Group)] else q.destGroup.toList
  let rd := q.readGroups.map (·.1)
  match t.w.op with
  | .tread => (t.destGroup.toList).any (fun g => (wr ++ rd).any (fun x => g.meets x))
  | .tmma | .tload => t.stage == .waiting && t.readGroups.any (fun g => wr.any (fun x => Group.meets g.1 x))
  | _ => false

/-- Whether VEXTR or VINSR moves an element of an upper way, across the layer bus (Table 12-2). -/
def State.crossing (s : State) (q : QEntry) : Bool :=
  let e := if q.w.op = .vinsr then q.x1.toNat else q.x0.toNat
  (q.w.op == .vextr || q.w.op == .vinsr) && decide (e < shVl q.shape) &&
    ((waysOf s.core.wayrole (shLsel q.shape))[e / 4096]?).any (fun w => decide (16 ≤ w))

/-- Whether it is the turn of entry `k` of the array issue queue, as far as its ways do not matter (R257, R277, R289).
MSPLIT does not begin: its release is MICRO_THREAD_RELEASE. -/
def State.inTurn (s : State) (k : Nat) (q : QEntry) : Bool :=
  q.stage == .waiting && q.w.op != .msplit && !(s.layerHeld && s.crossing q) &&
  !(s.core.queue.take k).any (fun e => e.stage == .waiting && bytesMeet e q) &&
  !s.core.mqueue.any (fun t => decide (t.seq < q.seq) && scoreboardHolds t q)

/-- Whether entry `k` may run in way `w` (R171, R234): the way has no private micro-thread, and nothing before the entry
holds it back there. -/
def State.wayFree (s : State) (k : Nat) (q : QEntry) (w : Nat) : Bool :=
  (s.mt w).state != 1 && !(s.core.queue.take k).any (fun e => s.holdsBack e q w)

/-- Whether entry `k` may begin in every way in which it is still to run (R171, R234, R257, R289). -/
def State.mayBegin (s : State) (k : Nat) (q : QEntry) : Bool :=
  s.inTurn k q && (s.restWays q).all (s.wayFree k q)

/-- The ways in which entry `k` may run though another one of its ways holds it back (R171, R234). -/
def State.freeWays (s : State) (k : Nat) (q : QEntry) : List Nat :=
  if s.inTurn k q && q.parted then (s.restWays q).filter (s.wayFree k q) else []

/-! ### Element addresses (R30, R315, R323) -/

/-- The bytes that hold an element of a unit-stride access: (byte from the base, bit within it, first bit of the
element, bits). -/
def packed (t e : Nat) : List (Nat × Nat × Nat × Nat) :=
  match width t with
  | 4 => [(e / 2, 4 * (e % 2), 0, 4)]
  | 6 =>
    let k := 6 * (e % 4)
    let o := 3 * (e / 4) + k / 8
    let sh := k % 8
    if sh ≤ 2 then [(o, sh, 0, 6)] else [(o, sh, 0, 8 - sh), (o + 1, 0, 8 - sh, sh - 2)]
  | n => [(e * (n / 8), 0, 0, n)]

/-- Size in bytes of an element as its access checks it: 1 for packed types (R315, R325). -/
def elemSize (t : Nat) : Nat := max 1 (width t / 8)

/-- The element type in memory: the target type of VSTR, else the type of the group. -/
def QEntry.memType (q : QEntry) : Nat :=
  if q.w.op = .waitv then 8 else if q.w.op = .vstr then q.res.td else if q.w.op.loads then q.res.td else q.res.t1

/-- The parts of element `e` with their addresses or offsets (Table 14-4). -/
def QEntry.parts (q : QEntry) (c : ArrCtx) (m : Memory) (e : Nat) : List (Word × Nat × Nat × Nat) :=
  let n := width q.memType
  let whole (off : Word) : List (Word × Nat × Nat × Nat) := [(q.x0 + off, 0, 0, n)]
  match q.w.op with
  | .vlds | .vsts | .vldys | .vstys => whole (word e * q.x1)
  | .vldx | .vstx =>
    let i := c.get m q.w.b.toNat 32 e
    whole (if q.res.t2 = 9 then word i else wordOfInt (sext i 32))
  | .waitv => [(word (c.get m q.w.a.toNat 64 e), 0, 0, 32)]
  | _ => (packed q.memType e).map (fun p => (q.x0 + word p.1, p.2.1, p.2.2.1, p.2.2.2))

/-- FSTRIDE (R325). -/
def QEntry.stride (q : QEntry) : Word :=
  match q.w.op with
  | .vlds | .vsts | .vldys | .vstys => q.x1
  | .vldx | .vstx | .waitv => 0
  | _ => word (elemSize q.memType)

/-- FINFO.KIND of an array memory word (Table 06-5). -/
def QEntry.kind (q : QEntry) : Nat :=
  match q.w.op.space with
  | some 1 => 4
  | some 2 => 5
  | _ => if q.w.op = .vstr then 7 else 3

/-! ### The translation phase (R324) -/

/-- What the translation phase has found: parts placed so far, and the first fault (cause, element, address). -/
structure Placed where
  addrs : List ElemAddr
  fault : Option (Nat × Nat × Word)
  /-- the page of some element below it is still to be translated (R399, R400) -/
  wait : Bool := false

/-- Places one part of an element: translation of a global address, or the extent of local scratch or layer space. -/
def State.placePart (s : State) (h : BitVec 1) (q : QEntry) (e : Nat) (p : Word × Nat × Nat × Nat) (x : Placed) :
    Placed × State :=
  let put (name vpn : Nat) (ms mmio : Bool) : Placed :=
    { x with addrs := x.addrs ++ [{ elem := e, lo := p.2.2.1, n := p.2.2.2, shift := p.2.1, va := p.1, name := name,
                                    vpn := vpn, ms := ms, mmio := mmio }] }
  let bad (c : Nat) (va : Word) : Placed := { x with fault := some (c, e, va) }
  match q.w.op.space with
  | some 0 =>
    match s.translatePage h (if q.w.op.stores then .write else .read) p.1 with
    | (.wait, s) => ({ x with wait := true }, s)
    | (.fault c _, s) => (bad c p.1, s)
    | (.ok t, s) => if q.w.op = .waitv ∧ t.mmio then (bad 0x07 p.1, s) else (put t.name t.vpn t.ms t.mmio, s)
  | some k => if s.within (k == 2) p.1.toNat (elemSize q.memType) then (put p.1.toNat 0 false false, s) else (bad 0x07 p.1, s)
  | none => (x, s)

/-- Places an element, unless an earlier one has faulted: misalignment comes before translation (R325). -/
def State.placeElem (s : State) (h : BitVec 1) (q : QEntry) (c : ArrCtx) (e : Nat) (x : Placed) : Placed × State :=
  if x.fault.isSome then (x, s)
  else
    let m := s.core.sram
    let ps := q.parts c m e
    let va := (ps.head?.map (·.1)).getD 0
    if va.toNat % (if q.w.op = .waitv then 4 else elemSize q.memType) ≠ 0 then ({ x with fault := some (0x03, e, va) }, s)
    else
      let y := ps.foldl (fun a p => if a.1.fault.isSome then a else a.2.placePart h q e p a.1) (x, s)
      match y.1.fault with
      | some (cause, e, _) => ({ x with fault := some (cause, e, va) }, y.2)
      | none => y

/-- The elements that a memory word's translation phase visits. -/
def QEntry.visits (q : QEntry) (c : ArrCtx) (m : Memory) (e : Nat) : Bool :=
  if q.w.op = .waitv then c.inRange e && decide (e < 64) else c.active m e

/-- THE TRANSLATION PHASE of a memory word: its active elements in ascending order, up to the first that faults. -/
def State.place (s : State) (h : BitVec 1) (q : QEntry) (c : ArrCtx) : Placed × State :=
  c.over (fun e (a : Placed × State) => if q.visits c s.core.sram e then a.2.placeElem h q c e a.1 else a)
    ({ addrs := [], fault := none }, s)

/-- Whether the translation phase must wait: a pending word is still to write the mask or the addresses it reads, or a
private micro-thread holds a way whose rows it reads (R184, R324).  For a word of a block its mask is a0 as it stands when
the words queued before that write a0 have finished (R233), whatever a micro-thread does. -/
def State.placeWaits (s : State) (q : QEntry) (inBlock : Bool := false) : Bool :=
  let mask : List Group := if q.w.p != 0 then [((0, 1) : Group)] else []
  let addrs : List Group :=
    match q.w.op with
    | .vldx | .vstx => [(q.w.b.toNat, 8)]
    | .waitv => [(q.w.a.toNat, 16), (q.w.b.toNat, 8)]
    | _ => []
  let rows := mask ++ addrs
  !rows.isEmpty &&
  ((!(inBlock && addrs.isEmpty) && (s.usedWays q).any (fun w => (s.mt w).state == 1)) ||
   (s.core.queue ++ s.core.mqueue).any (fun e => e.stage == .waiting &&
     (e.w.op == .aclr || (e.destGroup.toList).any (fun g => rows.any (fun x => g.meets x)))))

/-- Whether the interval from the lowest to the highest placed byte overlaps a range of the interlock table (R310,
R448). -/
def State.placedLocked (s : State) (q : QEntry) (x : Placed) : Bool :=
  match x.addrs.map (fun a => a.va.toNat) with
  | [] => false
  | b :: bs =>
    let lo := bs.foldl min b
    let hi := x.addrs.foldl (fun m a => max m (a.va.toNat + (a.shift + a.n + 7) / 8)) 0
    s.interlocked (q.w.op.space.getD 0) (lo : Nat) (hi : Nat) q.w.op.stores

/-- What the issue of an array word comes to, up to its place in the queue. -/
inductive Prepared where
  /-- it may be queued, and SHAPE becomes `shape` -/
  | ok (q : QEntry) (shape : Word) (s : State)
  /-- the hart stays at the word -/
  | wait (s : State)
  /-- its first fault: cause, element, address; the entry keeps the elements below it -/
  | fault (cause elem : Nat) (va : Word) (q : QEntry) (s : State)

/-- The steps and density skips of a word, as its mask stands now (R166, R167). -/
def State.withLength (s : State) (q : QEntry) : QEntry :=
  let c := s.ctx q
  { q with steps := c.length s.core.sram, skips := c.skips s.core.sram }

/-- Prepares a word: the translation phase of a memory word, with the truncation of VLDFF (R324 to R327). -/
def State.prepare (s : State) (h : BitVec 1) (q : QEntry) (inBlock : Bool := false) : Prepared :=
  let sh := startCleared q.shape
  if q.w.op.space.isNone then .ok q sh s
  else if s.placeWaits q inBlock then .wait s
  else
    let (x, s1) := s.place h q (s.ctx q)
    if x.wait then .wait s1
    else if s1.placedLocked q x then .wait (s1.stall h 0x06)
    else
      let q1 := s1.withLength { q with addrs := x.addrs }
      match x.fault with
      | none => .ok q1 sh s1
      | some (c, e, va) =>
        let sp := q.w.op.space.getD 0
        let lowest := x.addrs.isEmpty
        if sp ≠ 0 then .fault c e va { q1 with addrs := [] } s1
        else if q.w.op = .vldff ∧ !lowest then .ok q1 (wset sh 0 18 e) s1
        else .fault c e va q1 s1

/-- The fault of a memory word at its hart (R325, R327): FREMAIN counts the elements from the faulting one to VL. -/
def State.arrayFault (s : State) (h : BitVec 1) (q : QEntry) (cause elem : Nat) (va : Word) : Result :=
  s.hartFault h cause va q.kind q.w.op.stores (lg (elemSize q.memType)) elem q.stride (word (shVl q.shape - elem))

/-- A word of local scratch or layer space comes behind its hart's own scalar stores there (R289, R308). -/
def State.behindStores (s : State) (h : BitVec 1) (op : ArrOp) (k : State → Result) : Result :=
  if op.space.any (· != 0) then s.withStores h k else k s

/-- ISSUE of an array word outside a block (R170, R324, R325): its checks have passed.  On a fault of a global word the
elements below the faulting one are queued and START names it. -/
def State.issueArray (s : State) (h : BitVec 1) (w : ArrWord) (sel : BitVec 32) : Result :=
  let x := s.hart h
  let regs := (w.scalars.map (·.toNat)) ++ [w.scalarDest]
  if !x.ready regs then .next (s.stall h 0x08)
  else if s.queueRoom = 0 then .next s
  else s.behindStores h w.op (fun s =>
    let x0 := x.reg ((w.scalars.getD 0 0).toNat)
    let x1 := x.reg ((w.scalars.getD 1 0).toNat)
    let q := s.newEntry h w (x.fmt.map (·.bits)) s.core.shape sel x0 x1 w.scalarDest
    match s.prepare h q with
    | .ok q sh s => .next ((((s.enqueue q).setShape sh).setPending h w.scalarDest).retire h)
    | .wait s => .next s
    | .fault c e va q s =>
      if q.w.op.space = some 0 then
        let s1 := if q.addrs.isEmpty then s else s.enqueue q
        (s1.setShape (wset q.shape 25 18 e)).arrayFault h q c e va
      else s.arrayFault h q c e va)

/-- Collects a word in the open block (R232). -/
def State.collect (s : State) (h : BitVec 1) (w : ArrWord) : State :=
  { s with core := { s.core with
      block := s.core.block ++ [{ w := w, fmt := (s.hart h).fmt.map (·.bits) }] } }

/-! ### The data phase (R28, R324, R328, R335, R336) -/

/-- The error response of an array access (R317). -/
def State.elemError (s : State) (q : QEntry) (a : ElemAddr) : State :=
  s.busError q.hart a.va (finfo 0 q.w.op.stores (lg (elemSize q.memType)) q.kind a.elem) q.stride
    (some q.seq)

/-- Bytes that a part of an element touches. -/
def ElemAddr.bytes (a : ElemAddr) : Nat := (a.shift + a.n + 7) / 8

/-- The bytes of a part, as a number; none while the access must wait. -/
def State.loadPart (s : State) (q : QEntry) (a : ElemAddr) (again : Bool) : Option (Nat × State) :=
  let h := q.hart
  match q.w.op.space with
  | some 0 =>
    if s.postedOver h a.name a.bytes || s.vstrOver a.name a.bytes then none
    else if a.mmio then
      match windowOf a.name with
      | .hostAperture _ => some (0, (s.mmioViolation h.toNat a.name s.cid16).elemError q a)
      | _ =>
        match s.mmioRead h a.name a.bytes with
        | (some v, s) => some (v.toNat, s)
        | (none, s) => some (0, (s.mmioViolation h.toNat a.name s.cid16).elemError q a)
    else if a.ms then
      match s.homeRead h.toNat s.cid16.toNat a.name a.bytes (if again then .again else .memory) with
      | (some v, s) => some (v, s)
      | (none, s) => some (0, s.elemError q a)
    else
      match s.cacheLoad h.toNat a.name a.bytes s.cid16 a.vpn with
      | (.ok v, s) => some (v, s)
      | (.error, s) => some (0, s.elemError q a)
      | (.wait, _) => none
  | some k => some (s.scratchLoad (k == 2) a.name a.bytes, if again then s else s.slotAccess (k == 2) a.name)
  | none => none

/-- Writes a part of a loaded element into its rows; the spare rows of a 6-bit element become 0 (R158). -/
def State.putPart (s : State) (c : ArrCtx) (g t : Nat) (a : ElemAddr) (v : Nat) : State :=
  let way := c.way a.elem
  let col := a.elem % 4096
  let m := putColumn s.core.sram way col (4 * g + a.lo) a.n (v / 2 ^ a.shift)
  let m := if width t = 6 then putColumn m way col (4 * g + 6) 2 0 else m
  { s with core := { s.core with sram := m } }

/-- Stores a part of an element, whose bits are `v`: a part of a byte is merged into it (R323).  None while the access
must wait. -/
def State.storePart (s : State) (q : QEntry) (a : ElemAddr) (v : Nat) (again : Bool) : Option State :=
  let h := q.hart
  let n := a.bytes
  let merge (old : Nat) : Nat := setBits old a.shift a.n v
  let overflow (r : WriteResult × State) : Option State :=
    match r with
    | (.done, s) => some s
    | (.overflow, s) => s.depositOverflow a.va s.cid16
    | (.error, s) => some (s.elemError q a)
    | (.full, _) => none
  let via (s : State) : Via :=
    match s.uncached a.name a.ms a.va with
    | .memory => if again then .again else .memory
    | v => v
  match q.w.op.space with
  | some 0 =>
    if s.postedOver h a.name n || s.vstrOver a.name n then none
    else if a.mmio then
      match windowOf a.name with
      | .hostAperture _ => some ((s.mmioViolation h.toNat a.name s.cid16).elemError q a)
      | _ =>
        match s.mmioWrite a.name n (word v) with
        | (true, s) => some s
        | (false, s) => some ((s.mmioViolation h.toNat a.name s.cid16).elemError q a)
    else if a.ms || s.cacheWays.isEmpty then
      let r := s.homeMerge h.toNat s.cid16.toNat a.name n merge (via s)
      overflow (r.2.1, r.2.2)
    else if a.n % 8 = 0 then overflow (s.cacheStore h.toNat a.name n (v % 2 ^ a.n) s.cid16 a.vpn)
    else
      match s.cacheLoad h.toNat a.name n s.cid16 a.vpn with
      | (.ok old, s) => overflow (s.cacheStore h.toNat a.name n (merge old) s.cid16 a.vpn)
      | (.error, s) => some (s.elemError q a)
      | (.wait, _) => none
  | some k =>
    let l := k == 2
    some ((if again then s else s.slotAccess l a.name).scratchStore l a.name n (merge (s.scratchLoad l a.name n)))
  | none => none

/-- The exact value of an element of a VSTR (R335). -/
def vstrValue (c : ArrCtx) (m : Memory) (e : Nat) : Num :=
  let x := val c.r.t1 (c.get m c.w.a.toNat (width c.r.t1) e)
  if c.r.scale = 0 then x else (Num.mul false x (valScale (c.scaleByte m c.w.b.toNat e))).1

/-- A value as an item of VSTR holds it. -/
def VstrItem.ofNum (h : BitVec 1) (seq : Nat) (va : Word) (pa : Nat) (r : Resolved) (e : Nat) : Num → VstrItem
  | .fin neg m x => { hart := h, seq := seq, va := va, pa := pa, td := BitVec.ofNat 5 r.td, cls := 0, neg := neg, num := m,
                      exp := x, mode := BitVec.ofNat 3 r.mode, sat := r.sat, elem := e }
  | .inf neg => { hart := h, seq := seq, va := va, pa := pa, td := BitVec.ofNat 5 r.td, cls := 1, neg := neg, num := 0, exp := 0,
                  mode := BitVec.ofNat 3 r.mode, sat := r.sat, elem := e }
  | .nan => { hart := h, seq := seq, va := va, pa := pa, td := BitVec.ofNat 5 r.td, cls := 2, neg := false, num := 0, exp := 0,
              mode := BitVec.ofNat 3 r.mode, sat := r.sat, elem := e }

/-- Whether an MMIO address is a place a VSTR may reach on a peer (R480): a slot whose PEERMAP entry is valid. -/
def State.peerSlot (s : State) (pa : Nat) : Bool :=
  match windowOf pa with
  | .peer slot _ => bit (Store.get s.mgmt.peermap slot).toNat 31
  | _ => false

/-- Sends one element of a VSTR towards its home, here or on a peer (R304, R336, R480): the core first gives up its copy of
the sector. -/
def State.sendVstr (s : State) (q : QEntry) (c : ArrCtx) (m : Memory) (a : ElemAddr) : Option State :=
  let send (s : State) : State := { s with home := { s.home with
    vstr := s.home.vstr ++ [{ VstrItem.ofNum q.hart q.seq a.va a.name q.res a.elem (vstrValue c m a.elem) with ms := a.ms, cid := s.cid16 }] } }
  if s.postedOver q.hart a.name a.bytes then none
  else if a.mmio then
    if s.peerSlot a.name then some (send s) else some ((s.mmioViolation q.hart.toNat a.name s.cid16).elemError q a)
  else (if a.ms then some s else s.evictSector a.name).map send

/-- Moves one part of an element; none while it must wait. -/
def State.movePart (s : State) (q : QEntry) (c : ArrCtx) (again : Bool) (a : ElemAddr) : Option State :=
  if q.w.op = .vstr then s.sendVstr q c s.core.sram a
  else if q.w.op.loads then
    (s.loadPart q a again).map (fun r => r.2.putPart c q.w.d.toNat q.memType a r.1)
  else s.storePart q a (columnBits s.core.sram (c.way a.elem) (a.elem % 4096) (4 * q.w.d.toNat + a.lo) a.n) again

/-- Whether moving an element between way `w` and a space must wait for the layer bus or for a relocation (Table 12-2,
R277, R284): what lies in layer space crosses to the lower ways, everything else to the upper ones. -/
def State.elemHeld (s : State) (op : ArrOp) (w : Nat) : Bool :=
  match op.space with
  | some 2 => if 16 ≤ w then s.relocating else s.layerHeld
  | some _ => s.wayHeld w
  | none => false

/-- Whether moving an element crosses the layer bus (Table 12-2). -/
def crosses (op : ArrOp) (w : Nat) : Bool :=
  match op.space with
  | some 2 => decide (w < 16)
  | some _ => decide (16 ≤ w)
  | none => false

/-- The sector of a part: its space tells it from those of other spaces. -/
def ElemAddr.sector (a : ElemAddr) : Nat := a.name / 64

/-- Whether the core cache holds the bytes of a part, so that no access leaves the core. -/
def State.cachedPart (s : State) (a : ElemAddr) : Bool :=
  !a.ms && (s.findLine (a.name / 256)).any (fun l => (Map.get Sector.empty l.sectors (a.name / 64 % 4)).hit (a.name % 64) a.bytes)

/-- The part of an element whose home answers with an error, where the element has another part or belongs to an access
that has failed already (R291, R317, R324). -/
def State.deadPart (s : State) (q : QEntry) (seen : List Nat) (ps : List ElemAddr) : Option (ElemAddr × (Nat × Nat)) :=
  if q.w.op.space = some 0 ∧ q.w.op ≠ .vstr then
    ps.findSome? (fun a =>
      if a.mmio || s.cachedPart a || (ps.length == 1 && !seen.contains a.sector) then none
      else (if q.w.op.loads then s.readError a.name else s.homeError a.name).map (fun e => (a, e)))
  else none

/-- MOVES AN ELEMENT, whole or not at all (R291): none while one of its parts must wait.  One that gets an error response is
0, or is not written; the elements of a sector that an instruction has accessed are of the same access (R317, R324). -/
def State.moveElem (s : State) (q : QEntry) (c : ArrCtx) (seen : List Nat) (ps : List ElemAddr) : Option State :=
  if ps.any (fun a => s.elemHeld q.w.op (c.way a.elem)) then none
  else match s.deadPart q seen ps with
    | some (a, e) =>
      let s1 := if seen.contains a.sector then s
        else (s.logError q.hart.toNat a.name s.cid16.toNat e).elemError q a
      some (if q.w.op.loads then ps.foldl (fun s a => s.putPart c q.w.d.toNat q.memType a 0) s1 else s1)
    | none => (ps.foldl (fun (o : Option State × List Nat) a =>
        (o.1.bind (fun s => s.movePart q c (o.2.contains a.sector) a), a.sector :: o.2)) (some s, seen)).1

/-- The parts of the elements of a list, one list for each element. -/
def groupElems : List ElemAddr → List (List ElemAddr)
  | [] => []
  | a :: as =>
    match groupElems as with
    | (b :: bs) :: gs => if a.elem = b.elem then (a :: b :: bs) :: gs else [a] :: (b :: bs) :: gs
    | gs => [a] :: gs

/-- The beats that an element adds to those of its instruction (R276): one for each new 128-byte block. -/
def newBeats (op : ArrOp) (c : ArrCtx) (seen : List Nat) (ps : List ElemAddr) : Nat :=
  ((ps.filter (fun a => crosses op (c.way a.elem) && !seen.any (fun k => k / 2 == a.sector / 2))).map
    (·.sector / 2)).eraseDups.length

/-- An array word's crossings (Table 12-2): what goes to or from layer space is an access there, which in a relocated space
has been made; what goes to or from upper ways is staged where there is no bus (R284). -/
def State.cross (s : State) (op : ArrOp) (n : Nat) : State := if op.space = some 2 then s.beats n else s.crossings n

/-- THE DATA PHASE: elements in ascending order, as far as they go; answers those still to be moved and the sectors
accessed. -/
def State.dataPhase (q : QEntry) (c : ArrCtx) : List (List ElemAddr) → List Nat → State → List ElemAddr × List Nat × State
  | [], seen, s => ([], seen, s)
  | ps :: pss, seen, s =>
    match s.moveElem q c seen ps with
    | some s1 => State.dataPhase q c pss (seen ++ ps.map (·.sector)) (s1.cross q.w.op (newBeats q.w.op c seen ps))
    | none => (ps ++ pss.flatten, seen, s)

/-! ### Begin and completion -/

/-- The queue with entry `k` replaced. -/
def State.setEntry (s : State) (k : Nat) (q : QEntry) : State :=
  { s with core := { s.core with queue := s.core.queue.set k q } }

/-- Every data row of every array-role way cleared (R179). -/
def State.clearArray (s : State) : State :=
  { s with core := { s.core with
      sram := (arrayWays s.core.wayrole).foldl (fun m w => Map.clear m (w * 262144) 262144) s.core.sram } }

/-- MSETM as the queue processes it (R246): the value to one m register of each selected micro-thread. -/
def State.setM (s : State) (q : QEntry) : State :=
  (s.restWays q).foldl (fun s w =>
    s.modMt w (fun x => { x with m := Store.set x.m (q.w.b.toNat % 8) (q.x1.truncate 32) })) s

/-- The flags that an operation can raise at most (R174). -/
def flagMask (op : ArrOp) : BitVec 6 :=
  match op with
  | .vadds | .vsubs | .vdots => 0x20
  | .vfadd | .vfsub | .vfmul | .vfma | .vfms | .vfredsum | .vsegsum | .tmma => 0x1D
  | .vfdiv => 0x1F
  | .vfsqrt => 0x19
  | .vexp2 => 0x1C
  | .vrcp => 0x1E
  | .vlog2 | .vrsqrt => 0x1B
  | .vcvt | .tread => 0x3D
  | .vcflt | .vcfle => 0x01
  | _ => 0

/-! ### WAITV in a block (R234, R334) -/

/-- The watched words of a WAITV from its placed elements. -/
def watches (q : QEntry) (c : ArrCtx) (m : Memory) (l : List ElemAddr) : List Watch :=
  l.map (fun a => { elem := a.elem, addr := a.name, want := BitVec.ofNat 32 (c.get m q.w.b.toNat 32 a.elem),
                    matched := false })

/-- Writes back the core's dirty bytes of every watched sector (R334); none while one must wait. -/
def State.cleanAll (s : State) (l : List ElemAddr) : Option State :=
  l.foldl (fun o a => o.bind (fun s => if a.ms then some s else s.cleanSector a.name)) (some s)

/-- The requests for monitors reach their homes, which compare at once where they arm one (R333); an error response
matches nothing (R317). -/
def State.compareAll (s : State) (q : QEntry) (l : List ElemAddr) (ws : List Watch) : List Watch × State :=
  (l.zip ws).foldl (fun o p =>
    match o.2.homeRead q.hart.toNat o.2.cid16.toNat p.1.name 4 (if p.1.ms then .memory else .slice true 0) with
    | (some v, s) =>
      let (ok, s) := s.askMonitor q.hart p.1.elem p.1.name p.1.ms
      (o.1 ++ [{ p.2 with matched := ok && BitVec.ofNat 32 v == p.2.want }], s)
    | (none, s) => (o.1 ++ [p.2], s.elemError q p.1)) ([], s)

/-- Row 0 of each used element of register `ad` of a way gets its match, rows 1 to 3 become 0 (R334). -/
def putMatches (m : Memory) (way ad : Nat) (els : List Watch) : Memory :=
  els.foldl (fun m e => putColumn m way e.elem (4 * ad) 4 (b2n e.matched)) m

/-- A WAITV of a block is over: `els` are its used elements, as they have matched.  It leaves the queue, and its hart goes
on when the block holds no other (log entry 131). -/
def State.waitbEnd (s : State) (q : QEntry) (since : Nat) (els : List Watch) : State :=
  let way := (waysOf s.core.wayrole (shLsel q.shape)).getD 0 0
  let rest := s.core.queue.filter (fun e => e.seq != q.seq)
  let s1 := { s with core := { s.core with sram := putMatches s.core.sram way q.w.d.toNat els, queue := rest } }
  let more := rest.any (fun e => e.hart == q.hart && e.w.op == .waitv)
  ((s1.dropMonitors q.hart).count q.hart 0x03 (if els.isEmpty then 1 else 28)).modHart q.hart (fun x =>
    { x with run := if more then .asleep (.waitb since none) else .running })

/-- A WAITV of a block whose turn has come (R334): it watches the words that its MEND has placed. -/
def State.waitbBegin (s : State) (q : QEntry) : State :=
  match (s.hart q.hart).run with
  | .asleep (.waitb since none) =>
    if q.addrs.any (fun a => s.postedOver q.hart a.name 4 || s.vstrOver a.name 4) then s
    else if q.addrs.isEmpty then s.waitbEnd q since []
    else match s.cleanAll q.addrs with
      | none => s
      | some s1 =>
        let (ws, s2) := s1.compareAll q q.addrs (watches q (s.ctx q) s1.core.sram q.addrs)
        s2.sleepIn q.hart (.waitb since (some (q.seq, ws)))
  | _ => s

/-- The ways of a list, as a mask. -/
def wayMask (l : List Nat) : BitVec 32 := l.foldl (fun m w => m ||| (1 <<< w)) 0

/-- An entry in `ways` alone, though it is still to run in others. -/
def State.inWays (s : State) (q : QEntry) (ways : List Nat) : QEntry :=
  { q with ran := q.ran ||| wayMask ((s.restWays q).filter (fun w => !ways.contains w)) }

/-- Entry `k` runs in `ways`, some of those in which it is still to run (R171, R234).  Its length is that of the whole
word. -/
def State.runPart (s : State) (k : Nat) (q : QEntry) (ways : List Nat) : State :=
  let p := s.inWays q ways
  let c := s.ctx p
  let ran : QEntry → QEntry := fun q => { q with ran := q.ran ||| wayMask ways }
  match q.w.op with
  | .msetm => (s.setM p).setEntry k (ran q)
  | op =>
    if op.space.isSome then
      let mine (a : ElemAddr) : Bool := ways.contains (c.way a.elem)
      match State.dataPhase q c (groupElems (q.addrs.filter mine)) q.seen s with
      | ([], seen, s) => s.setEntry k (ran { q with addrs := q.addrs.filter (fun a => !mine a), seen := seen })
      | (rest, seen, s) => s.setEntry k { q with addrs := q.addrs.filter (fun a => !mine a || rest.contains a), seen := seen }
    else
      let q := if q.ran = 0 then s.withLength q else q
      let (a, _) := c.run s.core.sram s.core.gens
      { s with core := { s.core with sram := a.m, gens := a.gens } }.setEntry k (ran { q with flags := q.flags ||| a.fl })

/-- ARRAY_INSTRUCTION_BEGIN (R171, R234): entry `k` makes all its effects on rows, memory and micro-threads; or, while some
of its ways hold it back, those in the others. -/
def execArrayInstructionBegin (k : Nat) (s : State) : Result :=
  match s.core.queue[k]? with
  | none => .next s
  | some q =>
    if !s.mayBegin k q then
      match s.freeWays k q with
      | [] => .next s
      | ways => .next (s.runPart k q ways)
    else
      let c := s.ctx q
      let begun (q : QEntry) : QEntry := { q with stage := .begun }
      match q.w.op with
      | .aclr => .next (s.clearArray.setEntry k (begun { q with steps := 512 }))
      | .msetm => .next ((s.setM q).setEntry k (begun q))
      | .ashape => .next (s.setEntry k (begun q))
      | .waitv => .next (s.waitbBegin q)
      | op =>
        if op.space.isSome then
          match State.dataPhase q c (groupElems q.addrs) q.seen s with
          | ([], _, s) => .next (s.setEntry k (begun { q with addrs := [], seen := [] }))
          | (rest, seen, s) => .next (s.setEntry k { q with addrs := rest, seen := seen })
        else
          let s := if s.crossing q then s.crossings 1 else s
          let q := if q.ran = 0 then s.withLength q else q
          let (a, v) := c.run s.core.sram s.core.gens
          .next ({ s with core := { s.core with sram := a.m, gens := a.gens } }.setEntry k
            (begun { q with flags := q.flags ||| a.fl, value := v }))

/-- Whether an entry writes the same scalar register as `q`. -/
def QEntry.sameDest (q e : QEntry) : Bool := e.hart == q.hart && e.dest == q.dest && q.dest != 0

/-- ARRAY_INSTRUCTION_COMPLETE (R51, R118, R172, R458): entry `k` leaves the queue; its flags merge, its scalar result
arrives, and its steps count.  Words of a block that write one register write it in block order, and its pending bit
clears with the last (R116). -/
def execArrayInstructionComplete (k : Nat) (s : State) : Result :=
  match s.core.queue[k]? with
  | none => .next s
  | some q =>
    if q.stage ≠ .begun || (s.core.queue.take k).any q.sameDest then .next s
    else
      let s := { s with core := { s.core with queue := s.core.queue.eraseIdx k } }
      let s := s.mergeFlags q.hart q.flags
      let s := if q.dest = 0 then s
        else if s.core.queue.any q.sameDest then s.writeReg q.hart q.dest.toNat q.value
        else s.arrive q.hart q.dest.toNat q.value
      .next ((s.count q.hart 0x03 q.steps).count q.hart 0x04 q.skips)

end Sys2Proof.Machine
end

