-- ==== Sys2Proof/Machine/ArrayIssue.lean ====
section
/-! DEFINITION. The meaning that every array word shares: a hart queues it or collects it, a private micro-thread runs it
in its own way (R74, R170, R232, R236). -/

namespace Sys2Proof.Machine

/-! ### In a private micro-thread (R236, R237, R329) -/

/-- Words of the array profile that a block image may hold (R236). -/
def ArrOp.privateOk : ArrOp → Bool
  | .vld | .vlds | .vldx | .vldff | .vst | .vsts | .vstx | .waitv | .vstr | .ashape | .aclr | .msplit | .msetm
  | .tattach | .tdetach | .tmma | .tzero | .tread | .tload => false
  | _ => true

/-- A word of a private micro-thread as an entry: its own way, START 0, VL_p, the snapshot's type, m registers as scalar
operands, with the base of a memory word read as unsigned (R236, R329). -/
def State.privateEntry (s : State) (way : Nat) (w : ArrWord) : QEntry :=
  let x := s.mt way
  let shape := word (x.vlp.toNat + x.type.toNat * 2 ^ 18)
  let r0 := x.reg (w.scalars.getD 0 0).toNat
  let x0 := if w.op.space.isSome then r0.zeroExtend 64 else r0.signExtend 64
  s.newEntry s.control w x.fmt shape 0 x0 ((x.reg (w.scalars.getD 1 0).toNat).signExtend 64) w.scalarDest

/-- What an array word of a private micro-thread works on. -/
def State.privateCtx (s : State) (way : Nat) (q : QEntry) : ArrCtx :=
  { s.ctx q with ways := [way], sel := [true] }

/-- PRED after an array word whose result rows are `m` and whose scalar result is `v` (R236). -/
def predAfter (c : ArrCtx) (m : Memory) (v : Word) (old : Bool) : Bool :=
  match c.w.op with
  | .vsearch => (List.range c.vl).any (fun e => c.active m e && c.get m c.w.d.toNat 1 e == 1)
  | .vmfirst => v != 0xFFFFFFFFFFFFFFFF
  | .vextr => old
  | op =>
    if op.isCompare then (List.range c.vl).any (fun e => c.active m e && c.get m c.w.d.toNat 1 e == 1)
    else if op.scalarResult then v.truncate 32 != (0 : BitVec 32)
    else old

/-- The data of a local or layer word of a micro-thread, element by element, with the sectors accessed (R324). -/
def moveEach (q : QEntry) (c : ArrCtx) : List (List ElemAddr) → List Nat → State → State
  | [], _, s => s
  | ps :: pss, seen, s =>
    moveEach q c pss (seen ++ ps.map (·.sector))
      (((s.moveElem q c seen ps).getD s).cross q.w.op (newBeats q.w.op c seen ps))

/-- The data of a local or layer word of a micro-thread. -/
def State.moveAll (s : State) (q : QEntry) (c : ArrCtx) (l : List ElemAddr) : State := moveEach q c (groupElems l) [] s

/-- AN ARRAY WORD OF A PRIVATE MICRO-THREAD (R236, R240): its effect in its own way, or the fault of Table 10-6. -/
def State.privateArray (s : State) (way : Nat) (w : ArrWord) : State :=
  let x := s.mt way
  let q := s.privateEntry way w
  let c := s.privateCtx way q
  let m0 := s.core.sram
  if !w.op.privateOk || !(w.scalars.all (fun r => decide (r.toNat < 8))) || decide (8 ≤ w.scalarDest) then
    s.mtFault way 1
  else
    match w.check x.fmt.isSome c.r s.core.scaleg with
    | some t => s.mtFault way (if t = 0x0B then 5 else 1)
    | none =>
      if w.op.space.isSome then
        let (p, _) := s.place 0 q c
        if p.fault.isSome then s.mtFault way 3
        else (s.moveAll q c p.addrs).countCore 0x0D (c.length m0)
      else
        let (a, v) := c.run m0 s.core.gens
        let s1 := { s with core := { s.core with sram := a.m, gens := a.gens } }
        let s2 := s1.modMt way (fun y => { y with
          m := if w.op.scalarResult then Store.set y.m w.scalarDest (v.truncate 32) else y.m
          pred := predAfter c a.m v y.pred
          flags := y.flags ||| a.fl })
        s2.countCore 0x0D (c.length m0)

/-! ### From a hart -/

/-- AN ARRAY WORD OF MAJORS 20 TO 37, 3C AND 3D (R10, R74, R94, R170, R232): the traps that its operands cause in the
order of R74; inside an open block it is collected, otherwise it is issued to the micro-threads that MTSEL selects. -/
def arrayOp (w : ArrWord) (s : State) : Result :=
  match s.cur with
  | .mt way => .next (s.privateArray way w)
  | .hart h =>
    let x := s.hart h
    let pref := x.fmt.map (·.bits)
    let r := resolve w.op pref s.core.shape (x.csr.rmode.toNat % 8)
    let bad := w.check pref.isSome r s.core.scaleg
    if s.hostPort || w.illegal r then s.trap h 0x01
    else if !x.ao then s.trap h 0x0A
    else if x.mb && decide (32 ≤ s.core.block.length) then s.trap h 0x0B
    else match bad with
      | some t => s.trap h t
      | none =>
        if x.mb then .next ((s.collect h w).retire h)
        else s.issueArray h w (s.core.mtsel.truncate 32)

end Sys2Proof.Machine
end

