-- ==== Sys2Proof/Machine/ArrayMonitor.lean ====
section
/-! DEFINITION. WAITV and the replies of monitors (R333, R334), and the packets of VSTR at their homes (R335, R336). -/

namespace Sys2Proof.Machine

/-! ### WAITV (R334) -/

/-- Ends a WAITV outside a block: it writes row 0 of each used element of ad and clears rows 1 to 3; its completion clears
START, and the hart goes on. -/
def State.waitvEnd (s : State) (h : BitVec 1) (ad : Nat) (els : List Watch) : State :=
  let way := (waysOf s.core.wayrole (shLsel s.core.shape)).getD 0 0
  let s1 := { s with core := { s.core with
    sram := putMatches s.core.sram way ad els, shape := startCleared s.core.shape } }
  (((s1.dropMonitors h).count h 0x03 (if els.isEmpty then 1 else 28))).retire h

/-- WAITV when its turn has come (R334): translation, write-back, arming, sleep; with no used element it completes at
once.  `q` is its entry. -/
def State.waitvBegin (s : State) (h : BitVec 1) (q : QEntry) : Result :=
  let c := s.ctx q
  if !s.core.queue.isEmpty || s.placeWaits q ||
      s.core.mqueue.any (fun t => scoreboardHolds t q) then .next s
  else
    let (x, s1) := s.place h q c
    if x.wait then .next s1
    else if s1.placedLocked q x then .next (s1.stall h 0x06)
    else match x.fault with
      | some (cause, e, va) => s1.arrayFault h q cause e va
      | none =>
        if x.addrs.any (fun a => s1.postedOver h a.name 4 || s1.vstrOver a.name 4) then .next s1
        else if x.addrs.isEmpty then .next (s1.waitvEnd h q.w.d.toNat [])
        else match s1.cleanAll x.addrs with
          | none => .next s1
          | some s2 =>
            let (ws, s3) := s2.compareAll q x.addrs (watches q c s2.core.sram x.addrs)
            .next (s3.sleepIn h (.waitv q.w.d q.w.k1 ws s3.ctr.cycle.toNat))

/-- WAITV (R334): checked as every array word; in an open block it is collected. -/
def execWaitv (d a b : BitVec 7) (k : BitVec 1) (s : State) : Result :=
  let w : ArrWord := { op := .waitv, d := d, a := a, b := b, k1 := k == 1, k2 := false, p := 0 }
  match s.cur with
  | .mt way => .next (s.privateArray way w)
  | .hart h =>
    let x := s.hart h
    if s.hostPort || !x.ao || x.mb || (w.check x.fmt.isSome (resolve .waitv none s.core.shape 0) 0).isSome then
      arrayOp w s
    else s.waitvBegin h (s.newEntry h w none s.core.shape (s.core.mtsel.truncate 32) 0 0 0)

/-- Whether a WAITV has what it waits for (R334). -/
def waitvDone (all : Bool) (els : List Watch) : Bool :=
  if all then els.all (·.matched) else els.any (·.matched)

/-- The entry of a WAITV of a block. -/
def State.waitbEntry (s : State) (n : Nat) : Option QEntry := s.core.queue.find? (fun q => q.seq == n)

/-- MONITOR_MATCH_REPLY (R333, R334): the match reaches the hart that sleeps in a WAITA or WAITV, which completes; or a
monitor that has come free goes to the request that waits for it longest. -/
def execMonitorMatchReply (h : BitVec 1) (s : State) : Result :=
  let none_ : Result := .next ((s.armNext).getD s)
  match (s.hart h).run with
  | .asleep (.waita d _ _ _ true) => .next (((s.dropMonitors h).writeReg h d.toNat 1).retire h)
  | .asleep (.waitv ad all els _) => if waitvDone all els then .next (s.waitvEnd h ad.toNat els) else none_
  | .asleep (.waitb since (some (n, els))) =>
    match s.waitbEntry n with
    | some q => if waitvDone q.w.k1 els then .next (s.waitbEnd q since els) else none_
    | none => none_
  | _ => none_

/-- WAITV_TIMEOUT (R334): WAITTO ticks have passed since issue; WAITV writes what has matched. -/
def execWaitvTimeout (h : BitVec 1) (s : State) : Result :=
  let t := (s.hart h).csr.waitto.toNat
  let ended (since : Nat) : Bool := t != 0 && decide (since + t ≤ s.ctr.cycle.toNat)
  match (s.hart h).run with
  | .asleep (.waitv ad all els since) =>
    if ended since && !waitvDone all els then .next (s.waitvEnd h ad.toNat els) else .next s
  | .asleep (.waitb since (some (n, els))) =>
    match s.waitbEntry n with
    | some q => if ended since && !waitvDone q.w.k1 els then .next (s.waitbEnd q since els) else .next s
    | none => .next s
  | _ => .next s

/-! ### VSTR at its home (R335, R336) -/

/-- The value of an item of VSTR. -/
def VstrItem.value (v : VstrItem) : Num :=
  match v.cls.toNat with
  | 0 => .fin v.neg v.num v.exp
  | 1 => .inf v.neg
  | _ => .nan

/-- The new pattern at the home (R335): rounded under the resolved mode, with stochastic taken as RNE. -/
def vstrNew (td mode : Nat) (sat : Bool) (x : Num) (old : Nat) : Nat :=
  if isFloat td then
    let mode := noStochastic mode
    (roundF td mode 0 sat (Num.add (rdnOf mode) (val td old) x).1).1
  else
    match x with
    | .fin neg m _ =>
      let y : Int := intOf td old + (if neg then -(m : Int) else m)
      if sat then (satInt td y).1 else wrapBits 32 y
    | _ => old

/-- Adds one element at its home, like an AMO (R305, R336). -/
def State.vstrAdd (s : State) (kind : Nat) (cid : BitVec 16) (pa td mode : Nat) (sat : Bool) (x : Num) (via : Via) :
    Option Nat × WriteResult × State :=
  s.homeAtomic kind cid.toNat pa (width td / 8) (vstrNew td mode sat x) via

/-- An error response to an element of a VSTR (R317). -/
def State.vstrError (s : State) (v : VstrItem) : State :=
  s.busError v.hart v.va (finfo 0 true (lg (width v.td.toNat / 8)) 7 v.elem) (word (width v.td.toNat / 8)) (some v.seq)

/-- The device and the physical address there that a place in the peer aperture names (R480). -/
def State.peerPlace (s : State) (pa : Nat) : Nat × Nat :=
  match windowOf pa with
  | .peer slot o => ((Store.get s.mgmt.peermap slot).toNat % 4096, o)
  | _ => (0, 0)

/-- Whether a peer answers an element with an error (R480): its slot is no longer valid, its device cannot be reached, the
place is in the peer's spill region or in no region of memory, or, unknown here, the peer's home refuses it. -/
def State.peerRefuses (s : State) (pa : Nat) (n : Nat) : Bool :=
  !s.peerSlot pa || !s.reaches (s.peerPlace pa).1 ||
    (match regionOf (s.peerPlace pa).2 with
     | .hbm | .pinned | .far | .farPinned => Config.remoteError n
     | _ => true)

/-- The item with its home on this device, where its slot names this device (R480). -/
def State.here (s : State) (v : VstrItem) : VstrItem :=
  let p := s.peerPlace v.pa
  if regionOf v.pa == .mmio && s.peerSlot v.pa && s.ownDevice p.1 && regionOf p.2 != .mmio && regionOf p.2 != .spill then
    { v with pa := p.2 }
  else v

/-- Adds every element of a packet in turn, at its home here or on a peer, which alone sees it; none while its home must
wait (R440). -/
def State.vstrPacket (s : State) (items : List VstrItem) : Option State :=
  items.foldl (fun o v => (o.map (fun s => (s, s.here v))).bind (fun (s, v) => (s.evictSector v.pa).bind (fun s =>
    if regionOf v.pa == .mmio then
      let (n, s) := s.draw
      some (if s.peerRefuses v.pa n then s.vstrError v else s)
    else match s.vstrAdd v.hart.toNat v.cid v.pa v.td.toNat v.mode.toNat v.sat v.value (s.uncached v.pa v.ms v.va) with
    | (_, .done, s) => some s
    | (_, .overflow, s) => s.depositOverflow v.va v.cid
    | (_, .error, s) => some (s.vstrError v)
    | (_, .full, _) => none))) (some s)

/-- Whether an item belongs to the packet of `v`: the same VSTR and target superblock (R336). -/
def VstrItem.together (v x : VstrItem) : Bool := x.seq == v.seq && x.pa / 256 == v.pa / 256

/-- The error response to an element that another core adds here: that of its home, or, in the spill region, which only a
peer can name (R280), that of R480. -/
def State.addError (s : State) (pa : Nat) : Option (Nat × Nat) :=
  if regionOf pa == .spill then some (unitQuadrant (unitOf pa), 0) else s.readError pa

/-- VSTR_PACKET_ARRIVAL (R305, R336, R480): the packet of the core's element `own`, or an element of another core, is added
at its home.  Additions of one hart to one element keep their order (R289). -/
def execVstrPacketArrival (own : Option Nat) (pa : Nat) (td : BitVec 5) (x : BitVec 32) (mode : BitVec 3) (sat : Bool)
    (s : State) : Result :=
  match own with
  | none =>
    if td = 0x16 ∨ td = 0x14 ∨ td = 8 then
      if pa % (width td.toNat / 8) ≠ 0 then .next s
      else
        let v := val td.toNat (x.toNat % 2 ^ width td.toNat)
        match s.addError pa with
        | some e => .next (s.foreignError pa e)
        | none =>
          match s.vstrAdd 0 s.cid16 pa td.toNat mode.toNat sat v (.slice false 0) with
          | (_, .full, _) => .next s
          | (_, _, s) => .next s
    else .next s
  | some k =>
    match s.home.vstr[k]? with
    | none => .next s
    | some v =>
      let mine := s.home.vstr.filter v.together
      if (s.home.vstr.take k).any (fun x => !v.together x &&
          mine.any (fun y => decide (x.pa < y.pa + 4) && decide (y.pa < x.pa + 4))) then .next s
      else match s.vstrPacket mine with
        | none => .next s
        | some s1 =>
          .next { s1 with home := { s1.home with vstr := s1.home.vstr.filter (fun x => !v.together x) } }

end Sys2Proof.Machine
end

