-- ==== Sys2Proof/Machine/Actl.lean ====
section
/-! DEFINITION. Way roles and the words of major 38, ACTL (R160 to R165, R175 to R180, R367). -/

namespace Sys2Proof.Machine

/-! ### The checks of ACTL words -/

/-- A word of major 38 or 3A of a hart (R10, R74, R94, R176, R232): illegal in an open block, and where `here` is false;
then the level, then ownership. -/
def ownerOp (rs : List (BitVec 7)) (level : Nat) (here : State → Bool) (s : State) (k : BitVec 1 → Result) : Result :=
  hartOnly s (fun h =>
    let x := s.hart h
    if x.mb || !here s then s.trap h 0x01
    else if level < x.pl then s.trap h 0x02
    else if !x.ao then s.trap h 0x0A
    else if x.ready (rs.map (·.toNat)) then k h
    else .next (s.stall h 0x08))

/-! ### Changing roles (R161, R162) -/

/-- Whether a way is retired, marked for retirement, or absent (R160, R162, R175). -/
def State.retiredWay (s : State) (k : Nat) : Bool :=
  bit s.core.marked.toNat k || bit s.core.out.toNat k || (s.hostPort && 16 ≤ k)

/-- Whether a role is refused for a way (R162). -/
def State.refused (s : State) (k r : Nat) : Bool :=
  (s.retiredWay k && r != 3) || (s.hostPort && decide (k < 16) && r == 2)

/-- The role requested for way `k` by a lower and an upper role word. -/
def requested (lo hi : Nat) (k : Nat) : Nat := if k < 16 then bits lo (2 * k) 2 else bits hi (2 * (k - 16)) 2

/-- The role that way `k` takes: a retired way reads off, a refused one keeps its role. -/
def State.newRole (s : State) (lo hi k : Nat) : Nat :=
  let r := requested lo hi k
  if s.retiredWay k then 3 else if s.refused k r then s.role k else r

/-- The status of an AROLE: bit k for a refused way k. -/
def State.roleStatus (s : State) (lo hi : Nat) : Nat :=
  (List.range 32).foldl (fun a k => a + b2n (s.refused k (requested lo hi k)) * 2 ^ k) 0

/-- The ways whose role would change. -/
def State.changing (s : State) (lo hi : Nat) : List Nat :=
  (List.range 32).filter (fun k => s.newRole lo hi k != s.role k)

/-- Whether a stream has a local or layer endpoint. -/
def StreamSlot.inSram (c : StreamSlot) : Bool := (c.ranges ++ c.touched).any (fun r => r.space != 0)

/-- Whether an AROLE that came at place `seq` in the order of issue still waits (R162, steps 1 and 2): queued array and tile
words, micro-thread words that are still to be answered, stores of the core on their way to their homes, and of what was
accepted before it the copies and the streams with a local or layer endpoint. -/
def State.roleWaits (s : State) (seq : Nat) : Bool :=
  !s.core.queue.isEmpty || !s.core.mqueue.isEmpty || !s.core.answers.isEmpty || !s.home.posted.isEmpty ||
  s.copy.slots.any (fun e => e.2.any (fun c => decide (c.order < seq))) ||
  s.stream.slots.any (fun e => e.2.any (fun c => c.inSram && decide (c.order < seq)))

/-- The rows of a way become 0, and with them its part of the core's slot where layer space lies there (R284). -/
def State.clearWay (s : State) (k : Nat) : State :=
  let s1 := { s with core := { s.core with sram := Map.clear s.core.sram (k * 262144) 262144 } }
  if s.relocated && decide (16 ≤ k) then
    { s1 with home := { s1.home with mem := Map.clear s1.home.mem (s.slotKey (k * 262144)) 262144 } }
  else s1

/-- One way of Table 07-2: cache lines are written back and invalidated, rows are cleared or lost, and a way that enters
or leaves the array role has a new micro-thread (R228, R229).  None while a write-back must wait. -/
def State.turnWay (s : State) (k r : Nat) : Option State :=
  let old := s.role k
  let flushed := if old = 0 then s.overLines (fun l => l.way == k) State.flushLine else some s
  flushed.map (fun s =>
    let keep := (old == 1 && r == 2) || (old == 2 && r == 1)
    let s := if !keep then s.clearWay k else if r = 1 then s.toSlot k else s.fromSlot k
    { s with core := { s.core with
        wayrole := wset s.core.wayrole (2 * k) 2 r,
        mts := if old = 2 ∨ r = 2 then Map.set MicroThread.new s.core.mts k MicroThread.new else s.core.mts } })

/-- SHAPE clipped to VLMAX (R162, step 5). -/
def State.clipShape (s : State) : State :=
  let x := s.core.shape
  let vl := min (shVl x) (s.vlmax (shLsel x))
  s.setShape (wset (wset x 0 18 vl) 25 18 (min (shStart x) vl))

/-! ### The receive area under AROLE (R365, R367) -/

/-- The local offset of a receive slot (R365). -/
def State.slotOffset (s : State) (vn idx : Nat) : Nat := s.extent false - 32768 + 16384 * vn + 256 * idx

/-- The packet in a full slot, as it goes back to the network (R367). -/
def State.slotPacket (s : State) (x : RxSlot) : Packet :=
  let o := s.slotOffset x.vn.toNat x.idx
  let header := s.scratchLoad false o 8
  { entry := 0, hart := 0,
    dest := word (x.handler.toNat + x.vn.toNat * 2 ^ 40 + s.core.coreId.toNat * 2 ^ 42), sdev := BitVec.ofNat 12 (bits header 16 12), score := x.core,
    body := .nsend x.vn x.handler
      ((List.range (bits header 0 9)).map (fun i => BitVec.ofNat 8 (s.scratchLoad false (o + 8 + i) 1))) }

/-- The receive area is gone (R367): its taken slots are freed and its full ones returned to the network, in their order
and before what waits there. -/
def State.returnSlots (s old : State) : State :=
  let full := sortBy (fun a b => decide (a.order ≤ b.order)) (s.net.rx.filter (fun x => !x.taken))
  { s with net := { s.net with rx := [], waiting := full.map old.slotPacket ++ s.net.waiting } }

/-- The same, ahead of the loss of the last scratch way. -/
def State.dropSlots (s : State) : State := s.returnSlots s

/-- Moves the receive slots of `old` to the area of the state, or back to the network when there is none (R367). -/
def State.moveSlots (s old : State) : State :=
  if s.extent false = old.extent false then s
  else if s.extent false = 0 then s.returnSlots old
  else if old.extent false = 0 then s
  else
    s.net.rx.foldl (fun s x =>
      s.scratchStore false (s.slotOffset x.vn.toNat x.idx) 256
        (old.scratchLoad false (old.slotOffset x.vn.toNat x.idx) 256)) s

/-- The scalar scratch stores of both harts have reached their banks; none while one must wait (R308). -/
def State.settleAll (s : State) : Option State := (s.settleStores 0).bind (·.settleStores 1)

/-- Steps 3 to 5 of R162, behind the scalar scratch stores of both harts. -/
def State.turnWays (s0 : State) (lo hi : Nat) : Option State :=
  s0.settleAll.bind (fun s =>
    let out := s.core.out ||| s.core.marked
    ((s.changing lo hi).foldl (fun o k => o.bind (fun a => a.turnWay k (s.newRole lo hi k))) (some s)).map (fun a =>
      let a := a.moveSlots s
      { a with core := { a.core with out := out, marked := 0 } }.clipShape))

/-- The place in the order of issue of a role change of hart `h`: that of its first attempt (R162). -/
def State.rolePlace (s : State) (h : BitVec 1) : Nat := (s.hart h).roleSeq.getD s.core.nextSeq

/-- AROLE and the writes of WAYROLE (R137, R162), once level and ownership have been checked: `k` is told the status.  While
it waits, work accepted after it waits too (`State.behindRole`). -/
def State.arole (s : State) (h : BitVec 1) (lo hi : Nat) (k : Nat → State → Result) : Result :=
  let held : Result := .next (s.modHart h (fun x => { x with waits := some (.role (s.rolePlace h)) }))
  if (s.changing lo hi).any (fun w => (s.mt w).state == 1) then s.trap h 0x0B
  else if s.roleWaits (s.rolePlace h) then held
  else match s.turnWays lo hi with
    | none => held
    | some s1 => k (s.roleStatus lo hi) s1

/-- AROLE (R162). -/
def execArole (d a b : BitVec 7) (s : State) : Result :=
  ownerOp [d, a, b] 1 (fun _ => true) s (fun h =>
    s.arole h ((s.hart h).reg a.toNat).toNat ((s.hart h).reg b.toNat).toNat (fun st s =>
      .next ((s.lateReg h d.toNat (word st) 0).retire h)))

/-! ### ASHAPE (R165) -/

/-- SHAPE after ASHAPE with operands `a` and `b`. -/
def State.shaped (s : State) (a b : Word) : Word :=
  let sel := wf b 5 2
  let x := wset (wset s.core.shape 18 5 (wf b 0 5)) 23 2 sel
  let x := wset x 0 18 (min a.toNat (s.vlmax sel))
  if bit b.toNat 7 then startCleared x else x

/-- Whether the configuration operand of ASHAPE is refused (R165). -/
def shapeRefused (b : Word) : Bool := !typeOk (wf b 0 5) || wf b 5 2 == 3 || wf b 8 56 != 0

/-- ASHAPE (R165): SHAPE changes in the order of the queue, and the granted VL reaches gd when the queue processes it. -/
def execAshape (d a b : BitVec 7) (s : State) : Result :=
  ownerOp [d, a, b] 2 (fun s => !s.hostPort) s (fun h =>
    let x := (s.hart h).reg a.toNat
    let y := (s.hart h).reg b.toNat
    if shapeRefused y then s.trap h 0x0B
    else if s.queueRoom = 0 then .next s
    else
      let sh := s.shaped x y
      let w : ArrWord := { op := .ashape, d := d, a := a, b := b, k1 := false, k2 := false, p := 0 }
      let q := { s.newEntry h w none s.core.shape 0 x y d.toNat with value := word (shVl sh) }
      .next ((((s.enqueue q).setShape sh).setPending h d.toNat).retire h))

/-! ### AWAIT, AFLUSH, ACLR, AINVAL (R177 to R180) -/

/-- AWAIT (R177): sleeps until every queued array, tile and broadcast instruction has completed. -/
def execAwait (s : State) : Result :=
  ownerOp [] 2 (fun s => !s.hostPort) s (fun h =>
    if s.core.queue.isEmpty && s.core.mqueue.isEmpty then .next (s.retire h) else .next (s.sleepIn h .retry))

/-- First byte past a range of virtual addresses, cut off at the end of the canonical space (R178). -/
def rangeEnd (a b : Word) : Nat :=
  let e := a.toNat + b.toNat
  if a.toNat < 2 ^ 47 then min e (2 ^ 47) else min e (2 ^ 64)

/-- Whether a line of the running context lies in a .. a + b − 1. -/
def State.lineIn (s : State) (a b : Word) (l : Line) : Bool :=
  canonical a && l.cid == s.cid16 && decide (l.va < rangeEnd a b) && decide (a.toNat < l.va + 256)

/-- AFLUSH (R178). -/
def execAflush (a b : BitVec 7) (s : State) : Result :=
  ownerOp [a, b] 2 (fun _ => true) s (fun h =>
    let x := (s.hart h).reg a.toNat
    let y := (s.hart h).reg b.toNat
    if y = 0 then .next (s.retire h)
    else if s.core.queue.any (fun q => q.stage == .waiting && q.w.op.stores) then .next s
    else (s.overMapped (some h) (s.lineIn x y) State.cleanLine).andThen (fun s1 => .next (s1.retire h)))

/-- ACLR (R179): queued, with no sources. -/
def execAclr (s : State) : Result :=
  ownerOp [] 2 (fun s => !s.hostPort) s (fun h =>
    if s.queueRoom = 0 then .next s
    else
      let w : ArrWord := { op := .aclr, d := 0, a := 0, b := 0, k1 := false, k2 := false, p := 0 }
      .next ((s.enqueue (s.newEntry h w none s.core.shape 0xFFFFFFFF 0 0 0)).retire h))

/-- Gives array ownership to a hart (R94, R95). -/
def State.giveArray (s : State) (h : BitVec 1) : State := (s.setStatus (other h) 7 1 0).setStatus h 7 1 1

/-- AINVAL (R180). -/
def execAinval (a b : BitVec 7) (s : State) : Result :=
  ownerOp [a, b] 1 (fun _ => true) s (fun h =>
    let x := (s.hart h).reg a.toNat
    let y := (s.hart h).reg b.toNat
    if !s.core.queue.isEmpty || !s.core.mqueue.isEmpty then .next s
    else
      let gone (l : Line) : Bool := y == 0 || s.lineIn x y l
      .next ((({ s with cache := s.cache.filter (fun l => !gone l) }).retire h).giveArray 0))

end Sys2Proof.Machine
end

