-- ==== Sys2Proof/Machine/ArrayFloat.lean ====
section
/-! DEFINITION. Meanings of the floating-point and conversion array words (chapter 09):
each names its operation and its fields, and `arrayOp` does the rest. -/

namespace Sys2Proof.Machine

/-- VFADD (R209): Floating-point add element-wise, rounded once. -/
def execVfadd (d a b : BitVec 7) (k j : BitVec 1) (p : BitVec 2) (s : State) : Result :=
  arrayOp { op := .vfadd, d := d, a := a, b := b, k1 := k == 1, k2 := j == 1, p := p } s

/-- VFSUB (R209): Floating-point subtract element-wise. -/
def execVfsub (d a b : BitVec 7) (k j : BitVec 1) (p : BitVec 2) (s : State) : Result :=
  arrayOp { op := .vfsub, d := d, a := a, b := b, k1 := k == 1, k2 := j == 1, p := p } s

/-- VFMUL (R209): Floating-point multiply element-wise. -/
def execVfmul (d a b : BitVec 7) (k j : BitVec 1) (p : BitVec 2) (s : State) : Result :=
  arrayOp { op := .vfmul, d := d, a := a, b := b, k1 := k == 1, k2 := j == 1, p := p } s

/-- VFMA (R209): Fused multiply-add into the destination accumulator. -/
def execVfma (d a b : BitVec 7) (k j : BitVec 1) (p : BitVec 2) (s : State) : Result :=
  arrayOp { op := .vfma, d := d, a := a, b := b, k1 := k == 1, k2 := j == 1, p := p } s

/-- VFMIN (R210): Copies the smaller floating-point operand pattern. -/
def execVfmin (d a b : BitVec 7) (k j : BitVec 1) (p : BitVec 2) (s : State) : Result :=
  arrayOp { op := .vfmin, d := d, a := a, b := b, k1 := k == 1, k2 := j == 1, p := p } s

/-- VFMAX (R210): Copies the larger floating-point operand pattern. -/
def execVfmax (d a b : BitVec 7) (k j : BitVec 1) (p : BitVec 2) (s : State) : Result :=
  arrayOp { op := .vfmax, d := d, a := a, b := b, k1 := k == 1, k2 := j == 1, p := p } s

/-- VFDIV (R209): Floating-point divide element-wise. -/
def execVfdiv (d a b : BitVec 7) (k j : BitVec 1) (p : BitVec 2) (s : State) : Result :=
  arrayOp { op := .vfdiv, d := d, a := a, b := b, k1 := k == 1, k2 := j == 1, p := p } s

/-- VFMS (R209): Fused multiply-subtract from the destination accumulator. -/
def execVfms (d a b : BitVec 7) (k j : BitVec 1) (p : BitVec 2) (s : State) : Result :=
  arrayOp { op := .vfms, d := d, a := a, b := b, k1 := k == 1, k2 := j == 1, p := p } s

/-- VCFLE (R211): Floating-point less-or-equal compare into a mask register. -/
def execVcfle (d a b : BitVec 7) (k j : BitVec 1) (p : BitVec 2) (s : State) : Result :=
  arrayOp { op := .vcfle, d := d, a := a, b := b, k1 := k == 1, k2 := j == 1, p := p } s

/-- VCFUN (R211): Floating-point unordered compare into a mask register. -/
def execVcfun (d a b : BitVec 7) (k j : BitVec 1) (p : BitVec 2) (s : State) : Result :=
  arrayOp { op := .vcfun, d := d, a := a, b := b, k1 := k == 1, k2 := j == 1, p := p } s

/-- VCFEQ (R211): Floating-point equality compare into a mask register. -/
def execVcfeq (d a b : BitVec 7) (k j : BitVec 1) (p : BitVec 2) (s : State) : Result :=
  arrayOp { op := .vcfeq, d := d, a := a, b := b, k1 := k == 1, k2 := j == 1, p := p } s

/-- VCFLT (R211): Floating-point less-than compare into a mask register. -/
def execVcflt (d a b : BitVec 7) (k j : BitVec 1) (p : BitVec 2) (s : State) : Result :=
  arrayOp { op := .vcflt, d := d, a := a, b := b, k1 := k == 1, k2 := j == 1, p := p } s

/-- VFNEG (R210): Inverts the sign bit of each floating-point pattern. -/
def execVfneg (d a : BitVec 7) (k : BitVec 1) (p : BitVec 2) (s : State) : Result :=
  arrayOp { op := .vfneg, d := d, a := a, b := 0, k1 := k == 1, k2 := false, p := p } s

/-- VFABS (R210): Clears the sign bit of each floating-point pattern. -/
def execVfabs (d a : BitVec 7) (k : BitVec 1) (p : BitVec 2) (s : State) : Result :=
  arrayOp { op := .vfabs, d := d, a := a, b := 0, k1 := k == 1, k2 := false, p := p } s

/-- VFSQRT (R212): Rounded floating-point square root element-wise. -/
def execVfsqrt (d a : BitVec 7) (k : BitVec 1) (p : BitVec 2) (s : State) : Result :=
  arrayOp { op := .vfsqrt, d := d, a := a, b := 0, k1 := k == 1, k2 := false, p := p } s

/-- VEXP2 (R212): Base-2 exponential element-wise with fixed results. -/
def execVexp2 (d a : BitVec 7) (k : BitVec 1) (p : BitVec 2) (s : State) : Result :=
  arrayOp { op := .vexp2, d := d, a := a, b := 0, k1 := k == 1, k2 := false, p := p } s

/-- VLOG2 (R212): Base-2 logarithm element-wise. -/
def execVlog2 (d a : BitVec 7) (k : BitVec 1) (p : BitVec 2) (s : State) : Result :=
  arrayOp { op := .vlog2, d := d, a := a, b := 0, k1 := k == 1, k2 := false, p := p } s

/-- VRCP (R212): Reciprocal element-wise. -/
def execVrcp (d a : BitVec 7) (k : BitVec 1) (p : BitVec 2) (s : State) : Result :=
  arrayOp { op := .vrcp, d := d, a := a, b := 0, k1 := k == 1, k2 := false, p := p } s

/-- VRSQRT (R212): Reciprocal square root element-wise. -/
def execVrsqrt (d a : BitVec 7) (k : BitVec 1) (p : BitVec 2) (s : State) : Result :=
  arrayOp { op := .vrsqrt, d := d, a := a, b := 0, k1 := k == 1, k2 := false, p := p } s

/-- VCVT (R213): Converts each element between types, optionally block-scaled, with one rounding. -/
def execVcvt (d a : BitVec 7) (k : BitVec 1) (p : BitVec 2) (s : State) : Result :=
  arrayOp { op := .vcvt, d := d, a := a, b := 0, k1 := k == 1, k2 := false, p := p } s

end Sys2Proof.Machine
end

