-- ==== Sys2Proof/Machine/ArrayInteger.lean ====
section
/-! DEFINITION. Meanings of the integer, logical and associative array words (chapter 08):
each names its operation and its fields, and `arrayOp` does the rest. -/

namespace Sys2Proof.Machine

/-- VADD (R186): Adds two integer array groups element-wise with wrap. -/
def execVadd (d a b : BitVec 7) (k j : BitVec 1) (p : BitVec 2) (s : State) : Result :=
  arrayOp { op := .vadd, d := d, a := a, b := b, k1 := k == 1, k2 := j == 1, p := p } s

/-- VSUB (R186): Subtracts two integer array groups element-wise with wrap. -/
def execVsub (d a b : BitVec 7) (k j : BitVec 1) (p : BitVec 2) (s : State) : Result :=
  arrayOp { op := .vsub, d := d, a := a, b := b, k1 := k == 1, k2 := j == 1, p := p } s

/-- VADDS (R187): Adds element-wise with saturation, raising SAT on a clamp. -/
def execVadds (d a b : BitVec 7) (k j : BitVec 1) (p : BitVec 2) (s : State) : Result :=
  arrayOp { op := .vadds, d := d, a := a, b := b, k1 := k == 1, k2 := j == 1, p := p } s

/-- VSUBS (R187): Subtracts element-wise with saturation. -/
def execVsubs (d a b : BitVec 7) (k j : BitVec 1) (p : BitVec 2) (s : State) : Result :=
  arrayOp { op := .vsubs, d := d, a := a, b := b, k1 := k == 1, k2 := j == 1, p := p } s

/-- VMUL (R188): Multiplies element-wise keeping the low n bits. -/
def execVmul (d a b : BitVec 7) (k j : BitVec 1) (p : BitVec 2) (s : State) : Result :=
  arrayOp { op := .vmul, d := d, a := a, b := b, k1 := k == 1, k2 := j == 1, p := p } s

/-- VMULH (R188): Multiplies element-wise keeping the high n bits. -/
def execVmulh (d a b : BitVec 7) (k j : BitVec 1) (p : BitVec 2) (s : State) : Result :=
  arrayOp { op := .vmulh, d := d, a := a, b := b, k1 := k == 1, k2 := j == 1, p := p } s

/-- VMIN (R191): Writes the signed minimum element-wise. -/
def execVmin (d a b : BitVec 7) (k j : BitVec 1) (p : BitVec 2) (s : State) : Result :=
  arrayOp { op := .vmin, d := d, a := a, b := b, k1 := k == 1, k2 := j == 1, p := p } s

/-- VMAX (R191): Writes the signed maximum element-wise. -/
def execVmax (d a b : BitVec 7) (k j : BitVec 1) (p : BitVec 2) (s : State) : Result :=
  arrayOp { op := .vmax, d := d, a := a, b := b, k1 := k == 1, k2 := j == 1, p := p } s

/-- VMINN (R191): Writes the unsigned minimum element-wise. -/
def execVminn (d a b : BitVec 7) (k j : BitVec 1) (p : BitVec 2) (s : State) : Result :=
  arrayOp { op := .vminn, d := d, a := a, b := b, k1 := k == 1, k2 := j == 1, p := p } s

/-- VMAXN (R191): Writes the unsigned maximum element-wise. -/
def execVmaxn (d a b : BitVec 7) (k j : BitVec 1) (p : BitVec 2) (s : State) : Result :=
  arrayOp { op := .vmaxn, d := d, a := a, b := b, k1 := k == 1, k2 := j == 1, p := p } s

/-- VAND (R192): Bitwise AND of two array groups. -/
def execVand (d a b : BitVec 7) (k j : BitVec 1) (p : BitVec 2) (s : State) : Result :=
  arrayOp { op := .vand, d := d, a := a, b := b, k1 := k == 1, k2 := j == 1, p := p } s

/-- VOR (R192): Bitwise OR of two array groups. -/
def execVor (d a b : BitVec 7) (k j : BitVec 1) (p : BitVec 2) (s : State) : Result :=
  arrayOp { op := .vor, d := d, a := a, b := b, k1 := k == 1, k2 := j == 1, p := p } s

/-- VXOR (R192): Bitwise XOR of two array groups. -/
def execVxor (d a b : BitVec 7) (k j : BitVec 1) (p : BitVec 2) (s : State) : Result :=
  arrayOp { op := .vxor, d := d, a := a, b := b, k1 := k == 1, k2 := j == 1, p := p } s

/-- VBOOL (R194): Applies the BOOLT truth table to one register of ad, as1 and as2. -/
def execVbool (d a b : BitVec 7) (k j : BitVec 1) (p : BitVec 2) (s : State) : Result :=
  arrayOp { op := .vbool, d := d, a := a, b := b, k1 := k == 1, k2 := j == 1, p := p } s

/-- VSLL (R196): Shifts each element left by the amount in as2. -/
def execVsll (d a b : BitVec 7) (k j : BitVec 1) (p : BitVec 2) (s : State) : Result :=
  arrayOp { op := .vsll, d := d, a := a, b := b, k1 := k == 1, k2 := j == 1, p := p } s

/-- VSRL (R196): Shifts each element right logically by the amount in as2. -/
def execVsrl (d a b : BitVec 7) (k j : BitVec 1) (p : BitVec 2) (s : State) : Result :=
  arrayOp { op := .vsrl, d := d, a := a, b := b, k1 := k == 1, k2 := j == 1, p := p } s

/-- VSRA (R196): Shifts each element right arithmetically by the amount in as2. -/
def execVsra (d a b : BitVec 7) (k j : BitVec 1) (p : BitVec 2) (s : State) : Result :=
  arrayOp { op := .vsra, d := d, a := a, b := b, k1 := k == 1, k2 := j == 1, p := p } s

/-- VMERGE (R195): Chooses as1 or as2 per element by row 0 of a0. -/
def execVmerge (d a b : BitVec 7) (k j : BitVec 1) (s : State) : Result :=
  arrayOp { op := .vmerge, d := d, a := a, b := b, k1 := k == 1, k2 := j == 1, p := 0 } s

/-- VMAC (R189): Multiply-accumulates into the destination with wrap. -/
def execVmac (d a b : BitVec 7) (k j : BitVec 1) (p : BitVec 2) (s : State) : Result :=
  arrayOp { op := .vmac, d := d, a := a, b := b, k1 := k == 1, k2 := j == 1, p := p } s

/-- VWMAC (R189): Widening multiply-accumulate into a double-width destination. -/
def execVwmac (d a b : BitVec 7) (k j : BitVec 1) (p : BitVec 2) (s : State) : Result :=
  arrayOp { op := .vwmac, d := d, a := a, b := b, k1 := k == 1, k2 := j == 1, p := p } s

/-- VDOT (R190): Adds four-element dot products into every fourth destination element with wrap. -/
def execVdot (d a b : BitVec 7) (k j : BitVec 1) (p : BitVec 2) (s : State) : Result :=
  arrayOp { op := .vdot, d := d, a := a, b := b, k1 := k == 1, k2 := j == 1, p := p } s

/-- VDOTS (R190): Adds four-element dot products with one final saturation. -/
def execVdots (d a b : BitVec 7) (k j : BitVec 1) (p : BitVec 2) (s : State) : Result :=
  arrayOp { op := .vdots, d := d, a := a, b := b, k1 := k == 1, k2 := j == 1, p := p } s

/-- VCEQ (R191): Integer equality compare into a mask register. -/
def execVceq (d a b : BitVec 7) (k j : BitVec 1) (p : BitVec 2) (s : State) : Result :=
  arrayOp { op := .vceq, d := d, a := a, b := b, k1 := k == 1, k2 := j == 1, p := p } s

/-- VCNE (R191): Integer inequality compare into a mask register. -/
def execVcne (d a b : BitVec 7) (k j : BitVec 1) (p : BitVec 2) (s : State) : Result :=
  arrayOp { op := .vcne, d := d, a := a, b := b, k1 := k == 1, k2 := j == 1, p := p } s

/-- VCLT (R191): Signed less-than compare into a mask register. -/
def execVclt (d a b : BitVec 7) (k j : BitVec 1) (p : BitVec 2) (s : State) : Result :=
  arrayOp { op := .vclt, d := d, a := a, b := b, k1 := k == 1, k2 := j == 1, p := p } s

/-- VCGE (R191): Signed greater-or-equal compare into a mask register. -/
def execVcge (d a b : BitVec 7) (k j : BitVec 1) (p : BitVec 2) (s : State) : Result :=
  arrayOp { op := .vcge, d := d, a := a, b := b, k1 := k == 1, k2 := j == 1, p := p } s

/-- VCLTN (R191): Unsigned less-than compare into a mask register. -/
def execVcltn (d a b : BitVec 7) (k j : BitVec 1) (p : BitVec 2) (s : State) : Result :=
  arrayOp { op := .vcltn, d := d, a := a, b := b, k1 := k == 1, k2 := j == 1, p := p } s

/-- VCGEN (R191): Unsigned greater-or-equal compare into a mask register. -/
def execVcgen (d a b : BitVec 7) (k j : BitVec 1) (p : BitVec 2) (s : State) : Result :=
  arrayOp { op := .vcgen, d := d, a := a, b := b, k1 := k == 1, k2 := j == 1, p := p } s

/-- VMOV (R192): Copies an array group element-wise. -/
def execVmov (d a : BitVec 7) (k : BitVec 1) (p : BitVec 2) (s : State) : Result :=
  arrayOp { op := .vmov, d := d, a := a, b := 0, k1 := k == 1, k2 := false, p := p } s

/-- VNOT (R192): Bitwise NOT of an array group. -/
def execVnot (d a : BitVec 7) (k : BitVec 1) (p : BitVec 2) (s : State) : Result :=
  arrayOp { op := .vnot, d := d, a := a, b := 0, k1 := k == 1, k2 := false, p := p } s

/-- VNEG (R198): Integer negation with wrap. -/
def execVneg (d a : BitVec 7) (k : BitVec 1) (p : BitVec 2) (s : State) : Result :=
  arrayOp { op := .vneg, d := d, a := a, b := 0, k1 := k == 1, k2 := false, p := p } s

/-- VABS (R198): Integer absolute value with wrap. -/
def execVabs (d a : BitVec 7) (k : BitVec 1) (p : BitVec 2) (s : State) : Result :=
  arrayOp { op := .vabs, d := d, a := a, b := 0, k1 := k == 1, k2 := false, p := p } s

/-- VCLZ (R199): Counts leading zeros of each element. -/
def execVclz (d a : BitVec 7) (k : BitVec 1) (p : BitVec 2) (s : State) : Result :=
  arrayOp { op := .vclz, d := d, a := a, b := 0, k1 := k == 1, k2 := false, p := p } s

/-- VPOPC (R199): Counts set bits of each element. -/
def execVpopc (d a : BitVec 7) (k : BitVec 1) (p : BitVec 2) (s : State) : Result :=
  arrayOp { op := .vpopc, d := d, a := a, b := 0, k1 := k == 1, k2 := false, p := p } s

/-- VSEARCH (R201): Compares each element with AKEY under AKMASK into a mask register. -/
def execVsearch (d a : BitVec 7) (k : BitVec 1) (p : BitVec 2) (s : State) : Result :=
  arrayOp { op := .vsearch, d := d, a := a, b := 0, k1 := k == 1, k2 := false, p := p } s

/-- VKWRITE (R202): Writes the AKEY bits selected by AKMASK into the elements that a0 marks. -/
def execVkwrite (d a : BitVec 7) (k p : BitVec 1) (s : State) : Result :=
  arrayOp { op := .vkwrite, d := d, a := a, b := 0, k1 := k == 1, k2 := false, p := p ++ (0 : BitVec 1) } s

/-- VSLLI (R197): Shifts each element left by an immediate. -/
def execVslli (d r i : BitVec 7) (s : State) : Result :=
  arrayOp { op := .vslli, d := d, a := r, b := i, k1 := false, k2 := false, p := 0 } s

/-- VSRLI (R197): Shifts each element right logically by an immediate. -/
def execVsrli (d r i : BitVec 7) (s : State) : Result :=
  arrayOp { op := .vsrli, d := d, a := r, b := i, k1 := false, k2 := false, p := 0 } s

/-- VSRAI (R197): Shifts each element right arithmetically by an immediate. -/
def execVsrai (d r i : BitVec 7) (s : State) : Result :=
  arrayOp { op := .vsrai, d := d, a := r, b := i, k1 := false, k2 := false, p := 0 } s

/-- VADDI (R186): Adds a signed 7-bit immediate to each element with wrap. -/
def execVaddi (d r i : BitVec 7) (s : State) : Result :=
  arrayOp { op := .vaddi, d := d, a := r, b := i, k1 := false, k2 := false, p := 0 } s

/-- VSLLI_MD (R197): Masked density-time form of VSLLI. -/
def execVslliMd (d r i : BitVec 7) (s : State) : Result :=
  arrayOp { op := .vslli, d := d, a := r, b := i, k1 := false, k2 := false, p := 2 } s

/-- VSRLI_MD (R197): Masked density-time form of VSRLI. -/
def execVsrliMd (d r i : BitVec 7) (s : State) : Result :=
  arrayOp { op := .vsrli, d := d, a := r, b := i, k1 := false, k2 := false, p := 2 } s

/-- VSRAI_MD (R197): Masked density-time form of VSRAI. -/
def execVsraiMd (d r i : BitVec 7) (s : State) : Result :=
  arrayOp { op := .vsrai, d := d, a := r, b := i, k1 := false, k2 := false, p := 2 } s

/-- VADDI_MD (R186): Masked density-time form of VADDI. -/
def execVaddiMd (d r i : BitVec 7) (s : State) : Result :=
  arrayOp { op := .vaddi, d := d, a := r, b := i, k1 := false, k2 := false, p := 2 } s

end Sys2Proof.Machine
end

