-- ==== Sys2Proof/Machine/ArrayLoad.lean ====
section
/-! DEFINITION. Meanings of the array loads and stores and VSTR (chapter 14):
each names its operation and its fields, and `arrayOp` does the rest. -/

namespace Sys2Proof.Machine

/-- VLD (R324): Loads a unit-stride array group from global memory in a translation and a data phase. -/
def execVld (d b : BitVec 7) (p : BitVec 2) (s : State) : Result :=
  arrayOp { op := .vld, d := d, a := b, b := 0, k1 := false, k2 := false, p := p } s

/-- VLDS (R323): Loads a strided array group from global memory. -/
def execVlds (d b r : BitVec 7) (p : BitVec 2) (s : State) : Result :=
  arrayOp { op := .vlds, d := d, a := b, b := r, k1 := false, k2 := false, p := p } s

/-- VLDX (R323): Gathers an array group from global memory by an index group. -/
def execVldx (d b x : BitVec 7) (p : BitVec 2) (s : State) : Result :=
  arrayOp { op := .vldx, d := d, a := b, b := x, k1 := false, k2 := false, p := p } s

/-- VLDL (R327): Loads an array group from local scratch. -/
def execVldl (d b : BitVec 7) (p : BitVec 2) (s : State) : Result :=
  arrayOp { op := .vldl, d := d, a := b, b := 0, k1 := false, k2 := false, p := p } s

/-- VLDY (R327): Loads an array group from layer space. -/
def execVldy (d b : BitVec 7) (p : BitVec 2) (s : State) : Result :=
  arrayOp { op := .vldy, d := d, a := b, b := 0, k1 := false, k2 := false, p := p } s

/-- VLDYS (R327): Loads a strided array group from layer space. -/
def execVldys (d b r : BitVec 7) (p : BitVec 2) (s : State) : Result :=
  arrayOp { op := .vldys, d := d, a := b, b := r, k1 := false, k2 := false, p := p } s

/-- VLDFF (R326): Fault-first load that truncates VL at a later fault instead of trapping. -/
def execVldff (d b : BitVec 7) (p : BitVec 2) (s : State) : Result :=
  arrayOp { op := .vldff, d := d, a := b, b := 0, k1 := false, k2 := false, p := p } s

/-- VST (R324): Stores a unit-stride array group to global memory. -/
def execVst (d b : BitVec 7) (p : BitVec 2) (s : State) : Result :=
  arrayOp { op := .vst, d := d, a := b, b := 0, k1 := false, k2 := false, p := p } s

/-- VSTS (R323): Stores a strided array group to global memory. -/
def execVsts (d b r : BitVec 7) (p : BitVec 2) (s : State) : Result :=
  arrayOp { op := .vsts, d := d, a := b, b := r, k1 := false, k2 := false, p := p } s

/-- VSTX (R323): Scatters an array group to global memory by an index group. -/
def execVstx (d b x : BitVec 7) (p : BitVec 2) (s : State) : Result :=
  arrayOp { op := .vstx, d := d, a := b, b := x, k1 := false, k2 := false, p := p } s

/-- VSTL (R327): Stores an array group to local scratch. -/
def execVstl (d b : BitVec 7) (p : BitVec 2) (s : State) : Result :=
  arrayOp { op := .vstl, d := d, a := b, b := 0, k1 := false, k2 := false, p := p } s

/-- VSTY (R327): Stores an array group to layer space. -/
def execVsty (d b : BitVec 7) (p : BitVec 2) (s : State) : Result :=
  arrayOp { op := .vsty, d := d, a := b, b := 0, k1 := false, k2 := false, p := p } s

/-- VSTYS (R327): Stores a strided array group to layer space. -/
def execVstys (d b r : BitVec 7) (p : BitVec 2) (s : State) : Result :=
  arrayOp { op := .vstys, d := d, a := b, b := r, k1 := false, k2 := false, p := p } s

/-- VSTR (R335): Adds active elements into memory at their homes as remote-reduce packets. -/
def execVstr (d a b : BitVec 7) (p : BitVec 2) (s : State) : Result :=
  arrayOp { op := .vstr, d := d, a := a, b := b, k1 := false, k2 := false, p := p } s

end Sys2Proof.Machine
end

