-- ==== Sys2Proof/Machine/ArrayMove.lean ====
section
/-! DEFINITION. Meanings of the reductions and the words that move elements (chapters 08 and 09):
each names its operation and its fields, and `arrayOp` does the rest. -/

namespace Sys2Proof.Machine

/-- VCOMPRESS (R224): Packs the elements that a0 marks into consecutive positions from START. -/
def execVcompress (d a : BitVec 7) (s : State) : Result :=
  arrayOp { op := .vcompress, d := d, a := a, b := 0, k1 := false, k2 := false, p := 0 } s

/-- VEXPAND (R224): Spreads consecutive source elements to the positions that a0 marks. -/
def execVexpand (d a : BitVec 7) (s : State) : Result :=
  arrayOp { op := .vexpand, d := d, a := a, b := 0, k1 := false, k2 := false, p := 0 } s

/-- VREV (R222): Reverses the element order between START and VL. -/
def execVrev (d a : BitVec 7) (p : BitVec 2) (s : State) : Result :=
  arrayOp { op := .vrev, d := d, a := a, b := 0, k1 := false, k2 := false, p := p } s

/-- VIOTA (R223): Writes to each element the count of earlier marked elements. -/
def execViota (d a : BitVec 7) (p : BitVec 2) (s : State) : Result :=
  arrayOp { op := .viota, d := d, a := a, b := 0, k1 := false, k2 := false, p := p } s

/-- VBCAST (R225): Broadcasts a scalar into every active element. -/
def execVbcast (d x : BitVec 7) (s : State) : Result :=
  arrayOp { op := .vbcast, d := d, a := 0, b := x, k1 := false, k2 := false, p := 0 } s

/-- VEXTR (R225): Extracts one element into a scalar register. -/
def execVextr (d r x : BitVec 7) (s : State) : Result :=
  arrayOp { op := .vextr, d := d, a := r, b := x, k1 := false, k2 := false, p := 0 } s

/-- VINSR (R225): Inserts a scalar into one element. -/
def execVinsr (d r x : BitVec 7) (s : State) : Result :=
  arrayOp { op := .vinsr, d := d, a := r, b := x, k1 := false, k2 := false, p := 0 } s

/-- VSLIDEUP (R221): Moves elements up by a scalar amount. -/
def execVslideup (d r x : BitVec 7) (s : State) : Result :=
  arrayOp { op := .vslideup, d := d, a := r, b := x, k1 := false, k2 := false, p := 0 } s

/-- VSLIDEDN (R221): Moves elements down by a scalar amount, filling with 0. -/
def execVslidedn (d r x : BitVec 7) (s : State) : Result :=
  arrayOp { op := .vslidedn, d := d, a := r, b := x, k1 := false, k2 := false, p := 0 } s

/-- VREDSUM (R216): Sums active integer elements exactly into a scalar. -/
def execVredsum (d r : BitVec 7) (s : State) : Result :=
  arrayOp { op := .vredsum, d := d, a := r, b := 0, k1 := false, k2 := false, p := 0 } s

/-- VREDMIN (R216): Reduces active elements to their minimum in a scalar. -/
def execVredmin (d r : BitVec 7) (s : State) : Result :=
  arrayOp { op := .vredmin, d := d, a := r, b := 0, k1 := false, k2 := false, p := 0 } s

/-- VREDMAX (R216): Reduces active elements to their maximum in a scalar. -/
def execVredmax (d r : BitVec 7) (s : State) : Result :=
  arrayOp { op := .vredmax, d := d, a := r, b := 0, k1 := false, k2 := false, p := 0 } s

/-- VREDAND (R216): Reduces active elements by bitwise AND. -/
def execVredand (d r : BitVec 7) (s : State) : Result :=
  arrayOp { op := .vredand, d := d, a := r, b := 0, k1 := false, k2 := false, p := 0 } s

/-- VREDOR (R216): Reduces active elements by bitwise OR. -/
def execVredor (d r : BitVec 7) (s : State) : Result :=
  arrayOp { op := .vredor, d := d, a := r, b := 0, k1 := false, k2 := false, p := 0 } s

/-- VREDXOR (R216): Reduces active elements by bitwise XOR. -/
def execVredxor (d r : BitVec 7) (s : State) : Result :=
  arrayOp { op := .vredxor, d := d, a := r, b := 0, k1 := false, k2 := false, p := 0 } s

/-- VFREDSUM (R52): Sums active floating-point elements in the published tree into an f32 scalar. -/
def execVfredsum (d r x : BitVec 7) (s : State) : Result :=
  arrayOp { op := .vfredsum, d := d, a := r, b := x, k1 := false, k2 := false, p := 0 } s

/-- VFREDMAX (R216): Writes the largest active floating-point element as f32. -/
def execVfredmax (d r : BitVec 7) (s : State) : Result :=
  arrayOp { op := .vfredmax, d := d, a := r, b := 0, k1 := false, k2 := false, p := 0 } s

/-- VFREDMIN (R216): Writes the smallest active floating-point element as f32. -/
def execVfredmin (d r : BitVec 7) (s : State) : Result :=
  arrayOp { op := .vfredmin, d := d, a := r, b := 0, k1 := false, k2 := false, p := 0 } s

/-- VSEGSUM (R217): Sums each 32-element block into one destination element. -/
def execVsegsum (d r x : BitVec 7) (s : State) : Result :=
  arrayOp { op := .vsegsum, d := d, a := r, b := x, k1 := false, k2 := false, p := 0 } s

/-- VMPOPC (R218): Counts marked elements into a scalar. -/
def execVmpopc (d r : BitVec 7) (s : State) : Result :=
  arrayOp { op := .vmpopc, d := d, a := r, b := 0, k1 := false, k2 := false, p := 0 } s

/-- VMFIRST (R218): Writes the index of the first marked element, or -1. -/
def execVmfirst (d r : BitVec 7) (s : State) : Result :=
  arrayOp { op := .vmfirst, d := d, a := r, b := 0, k1 := false, k2 := false, p := 0 } s

/-- VBCAST_MD (R225): Masked density-time form of VBCAST. -/
def execVbcastMd (d x : BitVec 7) (s : State) : Result :=
  arrayOp { op := .vbcast, d := d, a := 0, b := x, k1 := false, k2 := false, p := 2 } s

/-- VSLIDEUP_MD (R221): Masked form of VSLIDEUP. -/
def execVslideupMd (d r x : BitVec 7) (s : State) : Result :=
  arrayOp { op := .vslideup, d := d, a := r, b := x, k1 := false, k2 := false, p := 2 } s

/-- VSLIDEDN_MD (R221): Masked form of VSLIDEDN. -/
def execVslidednMd (d r x : BitVec 7) (s : State) : Result :=
  arrayOp { op := .vslidedn, d := d, a := r, b := x, k1 := false, k2 := false, p := 2 } s

/-- VREDSUM_MD (R216): Masked form of VREDSUM. -/
def execVredsumMd (d r : BitVec 7) (s : State) : Result :=
  arrayOp { op := .vredsum, d := d, a := r, b := 0, k1 := false, k2 := false, p := 2 } s

/-- VREDMIN_MD (R216): Masked form of VREDMIN. -/
def execVredminMd (d r : BitVec 7) (s : State) : Result :=
  arrayOp { op := .vredmin, d := d, a := r, b := 0, k1 := false, k2 := false, p := 2 } s

/-- VREDMAX_MD (R216): Masked form of VREDMAX. -/
def execVredmaxMd (d r : BitVec 7) (s : State) : Result :=
  arrayOp { op := .vredmax, d := d, a := r, b := 0, k1 := false, k2 := false, p := 2 } s

/-- VREDAND_MD (R216): Masked form of VREDAND. -/
def execVredandMd (d r : BitVec 7) (s : State) : Result :=
  arrayOp { op := .vredand, d := d, a := r, b := 0, k1 := false, k2 := false, p := 2 } s

/-- VREDOR_MD (R216): Masked form of VREDOR. -/
def execVredorMd (d r : BitVec 7) (s : State) : Result :=
  arrayOp { op := .vredor, d := d, a := r, b := 0, k1 := false, k2 := false, p := 2 } s

/-- VREDXOR_MD (R216): Masked form of VREDXOR. -/
def execVredxorMd (d r : BitVec 7) (s : State) : Result :=
  arrayOp { op := .vredxor, d := d, a := r, b := 0, k1 := false, k2 := false, p := 2 } s

/-- VFREDSUM_MD (R52): Masked form of VFREDSUM. -/
def execVfredsumMd (d r x : BitVec 7) (s : State) : Result :=
  arrayOp { op := .vfredsum, d := d, a := r, b := x, k1 := false, k2 := false, p := 2 } s

/-- VFREDMAX_MD (R216): Masked form of VFREDMAX. -/
def execVfredmaxMd (d r : BitVec 7) (s : State) : Result :=
  arrayOp { op := .vfredmax, d := d, a := r, b := 0, k1 := false, k2 := false, p := 2 } s

/-- VFREDMIN_MD (R216): Masked form of VFREDMIN. -/
def execVfredminMd (d r : BitVec 7) (s : State) : Result :=
  arrayOp { op := .vfredmin, d := d, a := r, b := 0, k1 := false, k2 := false, p := 2 } s

/-- VSEGSUM_MD (R217): Masked form of VSEGSUM. -/
def execVsegsumMd (d r x : BitVec 7) (s : State) : Result :=
  arrayOp { op := .vsegsum, d := d, a := r, b := x, k1 := false, k2 := false, p := 2 } s

/-- VMPOPC_MD (R218): Masked form of VMPOPC. -/
def execVmpopcMd (d r : BitVec 7) (s : State) : Result :=
  arrayOp { op := .vmpopc, d := d, a := r, b := 0, k1 := false, k2 := false, p := 2 } s

/-- VMFIRST_MD (R218): Masked form of VMFIRST. -/
def execVmfirstMd (d r : BitVec 7) (s : State) : Result :=
  arrayOp { op := .vmfirst, d := d, a := r, b := 0, k1 := false, k2 := false, p := 2 } s

end Sys2Proof.Machine
end

