-- ==== Sys2Proof/Machine/CopyPlan.lean ====
section
/-! DEFINITION. Command blocks of the copy engine, their ranges, and the promises of transfers (R339, R340, R343, R344,
R347, R348). -/

namespace Sys2Proof.Machine

/-! ### Command blocks (Tables 15-2 and 15-3) -/

def CopyCmd.op (c : CopyCmd) : Nat := bits c.ctl.toNat 20 4
def CopyCmd.scl (c : CopyCmd) : Bool := bit c.ctl.toNat 19
def CopyCmd.rnd (c : CopyCmd) : Nat := bits c.ctl.toNat 16 3
/-- The rounding mode that RND names: stochastic acts as RNE (R339). -/
def CopyCmd.mode (c : CopyCmd) : Nat := noStochastic c.rnd
def CopyCmd.sat (c : CopyCmd) : Bool := bit c.ctl.toNat 15
def CopyCmd.trans (c : CopyCmd) : Bool := bit c.ctl.toNat 14
def CopyCmd.dtype (c : CopyCmd) : Nat := bits c.ctl.toNat 9 5
def CopyCmd.stype (c : CopyCmd) : Nat := bits c.ctl.toNat 4 5
def CopyCmd.dspace (c : CopyCmd) : Nat := bits c.ctl.toNat 2 2
def CopyCmd.sspace (c : CopyCmd) : Nat := bits c.ctl.toNat 0 2

/-- Source rows and columns of the window that exist (R340): none under OP fill. -/
def CopyCmd.vr (c : CopyCmd) : Nat := if c.op = 2 then 0 else min c.rows c.vrows
def CopyCmd.vc (c : CopyCmd) : Nat := if c.op = 2 then 0 else min c.cols c.vcols

/-- Reads a command block from local scratch (R339). -/
def State.readCmd (s : State) (o : Nat) : CopyCmd :=
  let at_ (k n : Nat) : Nat := s.scratchLoad false (o + k) n
  { src := word (at_ 0x00 8), dst := word (at_ 0x08 8), sstride := word (at_ 0x10 8), dstride := word (at_ 0x18 8),
    rows := at_ 0x20 2, cols := at_ 0x22 2, vrows := at_ 0x24 2, vcols := at_ 0x26 2, ctl := BitVec.ofNat 32 (at_ 0x28 4),
    scale := BitVec.ofNat 32 (at_ 0x2C 4), fill := word (at_ 0x30 8),
    result := word (at_ 0x38 8) }

/-- Bytes of `n` packed elements of `w` bits. -/
def rowBytes (n w : Nat) : Nat := (n * w + 7) / 8

/-- The interval of n rows of b bytes from `base` at `stride` (R344). -/
def rowsRange (space : Nat) (dst : Bool) (base : Nat) (stride : Int) (n b : Nat) : Range :=
  let last : Int := base + stride * ((n : Int) - 1)
  { space := space, dst := dst, lo := min (base : Int) last, hi := max (base : Int) last + b }

/-- The source range, over the valid positions (R344). -/
def CopyCmd.srcRange (c : CopyCmd) : Option Range :=
  if c.vr = 0 ∨ c.vc = 0 then none
  else some (rowsRange c.sspace false c.src.toNat c.sstride.toInt c.vr (rowBytes c.vc (width c.stype)))

/-- The destination range, over every window position (R344). -/
def CopyCmd.dstRange (c : CopyCmd) : Range :=
  let w := width c.dtype
  if c.trans then rowsRange c.dspace true c.dst.toNat c.dstride.toInt c.cols (rowBytes c.rows w)
  else rowsRange c.dspace true c.dst.toNat c.dstride.toInt c.rows (rowBytes c.cols w)

/-- The interlock entry of a transfer: its ranges. -/
def CopyCmd.ranges (c : CopyCmd) : List Range := c.srcRange.toList ++ [c.dstRange]

/-! ### The checks of Table 15-4 -/

/-- Whether an element address of 8 bits or more is misaligned at some window position (check 7). -/
def CopyCmd.misaligned (c : CopyCmd) : Bool :=
  let off (base stride : Word) (n w : Nat) : Bool :=
    decide (8 ≤ w) && (base.toNat % (w / 8) != 0 || (decide (1 < n) && stride.toNat % (w / 8) != 0))
  (c.op != 2 && off c.src c.sstride c.rows (width c.stype)) ||
    off c.dst c.dstride (if c.trans then c.cols else c.rows) (width c.dtype)

/-- Whether the conditions of R342 are broken (check 6). -/
def CopyCmd.recodeBad (c : CopyCmd) : Bool :=
  c.sspace != 0 || c.dspace != 0 || c.src.toNat % 4096 != 0 || c.dst.toNat % 4096 != 0 || c.cols != 4096 ||
    c.stype != 5 || c.dtype != 5 || c.trans || c.scl || c.sstride != 4096 || c.dstride != 4096 ||
    decide (c.vrows < c.rows) || c.vcols != 4096

/-- Checks 4 to 7: the detail of shape trap 0x0B, none when all pass. -/
def CopyCmd.shapeDetail (c : CopyCmd) : Option Nat :=
  if 4 ≤ c.op ∨ c.rnd = 7 ∨ c.dspace = 3 ∨ (c.op ≠ 2 ∧ c.sspace = 3) ∨ bits c.ctl.toNat 24 8 ≠ 0 then some 1
  else if !typeOk c.dtype || (c.op != 2 && !typeOk c.stype) || (c.op == 0 && c.stype != c.dtype) ||
      (c.trans && (decide (width c.dtype < 8) || (c.op != 2 && decide (width c.stype < 8)))) ||
      (c.scl && c.op != 1) then some 2
  else if c.rows = 0 ∨ c.cols = 0 ∨ (c.op = 3 ∧ c.recodeBad = true) then some 3
  else if c.misaligned then some 4
  else none

/-- The lowest offset of a local or layer range outside its space (check 8). -/
def State.rangeOutside (s : State) (r : Range) : Option Int :=
  let ext : Int := s.extent (r.space == 2)
  if r.space = 0 then none
  else if r.lo < 0 then some r.lo
  else if ext < r.hi then some (max r.lo ext)
  else none

/-- Whether the two ranges share a byte within one space (check 9). -/
def CopyCmd.overlaps (c : CopyCmd) : Bool :=
  match c.srcRange with
  | some r => r.space == c.dstRange.space && decide (r.lo < c.dstRange.hi) && decide (c.dstRange.lo < r.hi)
  | none => false

/-! ### Promises (R347, R348) -/

/-- Bytes of destination and valid source from position `p` on: the larger of the two (R347). -/
def CopyCmd.bytesFrom (c : CopyCmd) (p : Nat) : Nat :=
  let r0 := p / c.cols
  let c0 := p % c.cols
  let valid := (c.vr - (r0 + 1)) * c.vc + (if r0 < c.vr then c.vc - c0 else 0)
  max (rowBytes valid (width c.stype)) (rowBytes (c.rows * c.cols - p) (width c.dtype))

/-- Positions that one chunk writes: 4,096 destination bytes (R345). -/
def CopyCmd.perChunk (c : CopyCmd) : Nat := 32768 / max 1 (width c.dtype)

/-- Chunks of a transfer. -/
def CopyCmd.chunks (c : CopyCmd) : Nat := (c.rows * c.cols + c.perChunk - 1) / c.perChunk

/-- The planning rate at XRATIO `x`, as bytes and ticks (Table 15-6): a path with a layer endpoint is scaled by the lower
of the island clock and 1.75 GHz, any other with a local endpoint by the island clock. -/
def CopyCmd.rate (c : CopyCmd) (x : Nat) : Nat × Nat :=
  let ss := if c.op = 2 then c.dspace else c.sspace
  let base :=
    if c.op = 2 then (if c.dspace = 0 then 64 else if c.dspace = 1 then 448 else 224)
    else if ss = 0 ∧ c.dspace = 0 then 32
    else if ss = 0 ∨ c.dspace = 0 then 64
    else if ss = 2 ∨ c.dspace = 2 then 224
    else 448
  let k := if ss = 2 ∨ c.dspace = 2 then min x 70 else if ss = 1 ∨ c.dspace = 1 then x else 70
  (base * k, if c.op = 1 ∨ c.trans = true then 140 else 70)

/-- Planned end and promise for `b` bytes, from tick `t` and planned end `prev` (R347). -/
def CopyCmd.promise (c : CopyCmd) (x t prev b : Nat) : Nat × Nat :=
  let (bytes, ticks) := c.rate x
  let plan := max t prev + 200 + (b * ticks + bytes - 1) / max 1 bytes
  (plan, plan + 500 + (plan - t + 7) / 8)

/-- The XRATIO of a core island: 0 in the store is the reset value 70 (R141). -/
def State.xratio (s : State) (island : Nat) : Nat :=
  let x := (Store.get s.mgmt.islands island).toNat
  if x = 0 then 70 else x

/-- XRATIO as the core reads it (R141). -/
def State.ownXratio (s : State) : Nat := if s.hostPort then 70 else s.xratio s.ownIsland

/-- P_new of R348 for a transfer at the present tick. -/
def State.newPromise (s : State) (c : CopySlot) : Nat :=
  (c.cmd.promise s.ownXratio s.ctr.cycle.toNat 0 (c.cmd.bytesFrom (c.progress * c.cmd.perChunk))).2

/-- A transfer with its promise revised (R348). -/
def State.revised (s : State) (c : CopySlot) : CopySlot := { c with promise := max c.promise (s.newPromise c) }

/-- The transfers that `p` selects are revised (Table 15-7). -/
def State.revise (s : State) (p : CopySlot → Bool) : State :=
  { s with copy := { s.copy with
      slots := s.copy.slots.map (fun e => (e.1, e.2.map (fun c => if p c then s.revised c else c))) } }

/-- Sets the XRATIO of an island: its layer buses stall (R20, R277), and transfers of the core are revised when its clock
is lowered (R141, R348). -/
def State.setXratio (s : State) (island v : Nat) : State :=
  let lower := decide (v < s.xratio island) && island == s.ownIsland && !s.hostPort
  let s := { s with mgmt := { s.mgmt with
    islands := Store.set s.mgmt.islands island (BitVec.ofNat 7 (if v = 70 then 0 else v))
    stalled := s.mgmt.stalled.filter (· != island) ++ [island] } }
  if lower then s.revise (fun _ => true) else s

end Sys2Proof.Machine
end

