-- ==== Sys2Proof/Machine/Tile.lean ====
section
/-! DEFINITION. The tile unit, the matrix queue and the words of major 3A, TILE (chapter 11). -/

namespace Sys2Proof.Machine

/-! ### Grants (R247 to R250) -/

/-- TGRANT.FIRST and TGRANT.COUNT (Table 11-1). -/
def State.grantFirst (s : State) : Nat := wf s.core.tgrant 8 7
def State.grantCount (s : State) : Nat := wf s.core.tgrant 0 8

/-- Whether band `b` may be granted (R249, R250). -/
def TileUnit.free (t : TileUnit) (b : Nat) : Bool :=
  Store.get t.owner b == 0 && !bit t.marked.toNat b && !bit t.out.toNat b

/-- The first block of `c` rows, aligned to `c`, whose bands are all free (R249). -/
def TileUnit.block (t : TileUnit) (c : Nat) : Option Nat :=
  ((List.range (128 / c)).map (· * c)).find? (fun f =>
    (List.range 8).all (fun b => !(decide (f ≤ 16 * b) && decide (16 * b < f + c)) || t.free b))

/-- The grant for a request: the largest of q, q / 2, … rows, 16 or more, for which a block is free; (first, rows). -/
def TileUnit.grant (t : TileUnit) (q : Nat) : Option (Nat × Nat) :=
  [q, q / 2, q / 4, q / 8].findSome? (fun c => if 16 ≤ c then (t.block c).map (fun f => (f, c)) else none)

/-- Key of an accumulator (R247). -/
def accKey (tile row col : Nat) : Nat := (tile * 128 + row) * 256 + col

/-- The accumulators with rows f .. f + c − 1 of both tiles 0. -/
def clearRows (acc : Store 32) (f c : Nat) : Store 32 :=
  Map.clear (Map.clear acc (accKey 0 f 0) (256 * c)) (accKey 1 f 0) (256 * c)

/-- The unit with the bands of rows f .. f + c − 1 given to a cluster position, or freed with `p` 0; a band marked for
retirement that is freed goes out of service (R250). -/
def TileUnit.assign (t : TileUnit) (f c p : Nat) : TileUnit :=
  (List.range 8).foldl (fun t b =>
    if f ≤ 16 * b ∧ 16 * b < f + c then
      let t := { t with owner := Store.set t.owner b (BitVec.ofNat 3 p) }
      if p = 0 ∧ bit t.marked.toNat b then
        { t with out := BitVec.ofNat 8 (setBits t.out.toNat b 1 1), marked := BitVec.ofNat 8 (setBits t.marked.toNat b 1 0) }
      else t
    else t) t

/-- Frees every band of a cluster position (R266). -/
def TileUnit.release (t : TileUnit) (p : Nat) : TileUnit :=
  (List.range 8).foldl (fun t b => if (Store.get t.owner b).toNat = p then t.assign (16 * b) 16 0 else t) t

/-- TATTACH at the unit for a cluster position: the unit, and the grant (R249). -/
def TileUnit.attach (t : TileUnit) (pos q : Nat) : TileUnit × Option (Nat × Nat) :=
  match t.grant q with
  | some (f, c) => ({ t.assign f c (pos + 1) with acc := clearRows t.acc f c }, some (f, c))
  | none => (t, none)

/-! ### TMMA (R39, R54, R255) -/

/-- The eight products of row i and column j, as operands: A[8i + k] and Bk[j]. -/
def tmmaPairs (c : ArrCtx) (m : Memory) (tshape : Word) (i j : Nat) : List (Nat × Nat) :=
  let g := regsOf c.r.t2
  (List.range 8).map (fun k =>
    (c.get m c.w.a.toNat (width c.r.t1) (wf tshape 0 18 + 8 * i + k),
     c.get m (c.w.b.toNat + k * g) (width c.r.t2) (wf tshape 32 18 + j)))

/-- A product with a further factor, with the flags so far. -/
def mulWith (rdn : Bool) (p : Num × BitVec 6) (x : Num) : Num × BitVec 6 :=
  let r := Num.mul rdn p.1 x
  (r.1, r.2 ||| p.2)

/-- The exact sum p of R54, scaled.  DESIGN CHOICE (log entry 157): a product of 0 and infinity raises NV though a NaN term
stands beside it. -/
def tmmaSum (c : ArrCtx) (m : Memory) (tshape bandsc : Word) (i j : Nat) : Num × BitVec 6 :=
  let rdn := rdnOf c.r.mode
  let prods := (tmmaPairs c m tshape i j).map (fun x => Num.mul rdn (val c.r.t1 x.1) (val c.r.t2 x.2))
  let p := Num.sum rdn (prods.map (·.1))
  let p : Num × BitVec 6 := (p.1, prods.foldl (fun f x => f ||| x.2) p.2)
  let p := if c.r.scale = 0 then p
    else mulWith rdn p (valScale (bits (c.get m c.scaleg 32 (i / 4)) (i % 4 * 8) 8))
  if c.r.scale = 2 then mulWith rdn p (val 0x14 (wf bandsc (16 * (i / 64)) 16)) else p

/-- One accumulator after TMMA: its pattern and the flags raised (R54). -/
def tmmaCell (c : ArrCtx) (m : Memory) (tshape bandsc : Word) (i j gen old : Nat) : Nat × BitVec 6 :=
  if isFloat c.r.t1 then
    let p := tmmaSum c m tshape bandsc i j
    let x := Num.add (rdnOf c.r.mode) (val 0x16 old) p.1
    let q := roundF 0x16 c.r.mode gen c.r.sat x.1
    (q.1, q.2 ||| x.2 ||| p.2)
  else
    let p : Int := (tmmaPairs c m tshape i j).foldl (fun a x => a + intOf c.r.t1 x.1 * intOf c.r.t2 x.2) (intOf 8 old)
    (wrapBits 32 p, 0)

/-- TMMA over the granted rows: accumulators, generators, flags (R42, R255).  DESIGN CHOICE (log entry 161): under mode 101
the rows of a column draw from its generator in ascending order, a whole TMMA at once. -/
def tmmaRun (c : ArrCtx) (m : Memory) (tshape bandsc : Word) (tile first count : Nat)
    (acc : Store 32) (gens : Store 16) : Store 32 × Store 16 × BitVec 6 :=
  loop (fun i a => loop (fun j (a : Store 32 × Store 16 × BitVec 6) =>
      let k := accKey tile i j
      let v := tmmaCell c m tshape bandsc i j (genValue a.2.1 j) (Store.get a.1 k).toNat
      (Store.set a.1 k (BitVec.ofNat 32 v.1),
       if isFloat c.r.t1 && c.r.mode == mSTO then genStep a.2.1 j else a.2.1,
       a.2.2 ||| v.2)) 0 256 a) first count (acc, gens, 0)

/-! ### TREAD and TLOAD (R260 to R263) -/

/-- The accumulator row of an element: none beyond the grant (R260). -/
def rowOf (first count r e : Nat) : Option Nat :=
  let row := first + r + e / 256
  if row < first + count then some row else none

/-- TREAD (R261): every active element from its accumulator, converted; pad positions become 0. -/
def treadRun (c : ArrCtx) (tile first count r : Nat) (acc : Store 32) (a : ArrAcc) : ArrAcc :=
  c.over (fun e a =>
    if !c.inRange e then a
    else match rowOf first count r e with
      | none => c.write c.dst false e (fun _ => (0, 0)) a
      | some row =>
        c.write c.dst (convertRounds c.r.t1 c.r.td false) e (fun gen =>
          convert c.r.t1 c.r.td c.r.mode gen c.r.sat none (Store.get acc (accKey tile row (e % 256))).toNat) a) a

/-- TREAD of rows that a pending word is changing (R263): free patterns, and flags among those TREAD can raise, from
draw `n`.  Each such element is still rounded once, so under mode 101 its column's generator advances (R42). -/
def treadFree (c : ArrCtx) (first count r n : Nat) (a : ArrAcc) : ArrAcc :=
  c.over (fun e a =>
    if !c.inRange e then a
    else match rowOf first count r e with
      | none => c.write c.dst false e (fun _ => (0, 0)) a
      | some _ =>
        c.write c.dst (convertRounds c.r.t1 c.r.td false) e
          (fun _ => ((Config.treadValue (n + e)).toNat % 2 ^ width c.r.td,
            Config.treadFlags (n + e) &&& flagMask .tread)) a) a

/-- TLOAD (R262): patterns of an eight-register group into the granted rows. -/
def tloadRun (c : ArrCtx) (m : Memory) (tile first count r : Nat) (acc : Store 32) : Store 32 :=
  c.over (fun e acc =>
    if !c.inRange e then acc
    else match rowOf first count r e with
      | none => acc
      | some row =>
        Store.set acc (accKey tile row (e % 256)) (BitVec.ofNat 32 (c.get m c.w.a.toNat 32 e))) acc

/-! ### The matrix queue (R256 to R258) -/

/-- The tile that a word names, if any. -/
def QEntry.tile (q : QEntry) : Option Nat :=
  match q.w.op with
  | .tmma | .tzero | .tload => some (q.w.d.toNat % 2)
  | .tread => some (q.w.a.toNat % 2)
  | _ => none

/-- TGRANT.COUNT after every word of the matrix queue; none while a TATTACH is pending (R265). -/
def State.grantAfter (s : State) : Option Nat :=
  match (s.core.mqueue.filter (fun q => q.w.op == .tattach || q.w.op == .tdetach)).getLast? with
  | none => some s.grantCount
  | some q => if q.w.op = .tdetach then some 0 else none

/-- Places an entry at the tail of the matrix queue. -/
def State.enqueueTile (s : State) (q : QEntry) : State :=
  { s with core := { s.core with
      mqueue := s.core.mqueue ++ [{ q with seq := s.core.nextSeq }], nextSeq := s.core.nextSeq + 1 } }

/-- The checks shared by the words that use a grant, and their place in the matrix queue (R254, R256, R260): `fits` is
told the grant's row count. -/
def tileOp (w : ArrWord) (regs : List (BitVec 7)) (fits : State → BitVec 1 → Nat → Bool) (s : State) : Result :=
  ownerOp regs 2 (fun s => !s.hostPort) s (fun h =>
    let x := s.hart h
    let pref := x.fmt.map (·.bits)
    let r := resolve w.op pref s.core.shape (x.csr.rmode.toNat % 8)
    match w.check pref.isSome r s.core.scaleg with
    | some t => s.trap h t
    | none =>
      match s.grantAfter with
      | none => .next s
      | some n =>
        if n = 0 || !fits s h n then s.trap h 0x0B
        else if Config.matrixQueueEntries ≤ s.core.mqueue.length then .next s
        else
          let x0 := x.reg ((regs.getD 0 0).toNat)
          .next ((s.enqueueTile (s.newEntry h w pref s.core.shape 0xFFFFFFFF x0 0 0)).retire h))

/-- TATTACH (R249, R265). -/
def execTattach (d a : BitVec 7) (s : State) : Result :=
  ownerOp [d, a] 2 (fun s => !s.hostPort) s (fun h =>
    let q := (s.hart h).reg a.toNat
    if q ≠ 16 ∧ q ≠ 32 ∧ q ≠ 64 ∧ q ≠ 128 then s.trap h 0x0B
    else match s.grantAfter with
      | none => .next s
      | some n =>
        if n ≠ 0 then s.trap h 0x0B
        else if Config.matrixQueueEntries ≤ s.core.mqueue.length then .next s
        else
          let w : ArrWord := { op := .tattach, d := d, a := a, b := 0, k1 := false, k2 := false, p := 0 }
          .next (((s.enqueueTile (s.newEntry h w none s.core.shape 0 q 0 d.toNat)).setPending h d.toNat).retire h))

/-- TDETACH (R266). -/
def execTdetach (s : State) : Result :=
  ownerOp [] 2 (fun s => !s.hostPort) s (fun h =>
    if Config.matrixQueueEntries ≤ s.core.mqueue.length then .next s
    else
      let w : ArrWord := { op := .tdetach, d := 0, a := 0, b := 0, k1 := false, k2 := false, p := 0 }
      .next ((s.enqueueTile (s.newEntry h w none s.core.shape 0 0 0 0)).retire h))

/-- TMMA (R253, R254): AOFF + 8 × (FIRST + COUNT) and BOFF + 256 lie within VLMAX. -/
def execTmma (t : BitVec 1) (a b : BitVec 7) (s : State) : Result :=
  tileOp { op := .tmma, d := t.zeroExtend 7, a := a, b := b, k1 := false, k2 := false, p := 0 } []
    (fun s _ n =>
      let v := s.vlmax (shLsel s.core.shape)
      decide (wf s.core.tshape 0 18 + 8 * (s.grantFirst + n) ≤ v) && decide (wf s.core.tshape 32 18 + 256 ≤ v)) s

/-- TZERO (R259). -/
def execTzero (t : BitVec 1) (s : State) : Result :=
  tileOp { op := .tzero, d := t.zeroExtend 7, a := 0, b := 0, k1 := false, k2 := false, p := 0 } [] (fun _ _ _ => true) s

/-- TREAD (R260, R261). -/
def execTread (d : BitVec 7) (t : BitVec 1) (b : BitVec 7) (s : State) : Result :=
  tileOp { op := .tread, d := d, a := t.zeroExtend 7, b := b, k1 := false, k2 := false, p := 0 } [b]
    (fun s h n => decide (((s.hart h).reg b.toNat).toNat < n)) s

/-- TLOAD (R260, R262). -/
def execTload (t : BitVec 1) (a b : BitVec 7) (s : State) : Result :=
  tileOp { op := .tload, d := t.zeroExtend 7, a := a, b := b, k1 := false, k2 := false, p := 0 } [b]
    (fun s h n => decide (((s.hart h).reg b.toNat).toNat < n)) s

/-- TWAIT (R264): sleeps until every earlier word on the tile, and every TATTACH and TDETACH, has completed. -/
def execTwait (t : BitVec 1) (s : State) : Result :=
  ownerOp [] 2 (fun s => !s.hostPort) s (fun h =>
    if s.core.mqueue.any (fun q => q.tile == some t.toNat || q.w.op == .tattach || q.w.op == .tdetach) then
      .next (s.sleepIn h .retry)
    else .next (s.retire h))

/-! ### Steps of the unit (R257, R258, R263) -/

/-- The first entry that the unit has not accepted. -/
def State.tileHead (s : State) : Option Nat := s.core.mqueue.findIdx? (fun q => q.stage == .waiting)

/-- Whether the array issue queue holds back tile word `q` (Table 11-5). -/
def State.arrayHolds (s : State) (q : QEntry) : Bool :=
  s.core.queue.any (fun e => e.stage == .waiting && decide (e.seq < q.seq) &&
    (match q.w.op with
     | .tread =>
       (q.destGroup.toList).any (fun g =>
         (e.destGroup.toList ++ e.readGroups.map (·.1)).any (fun x => g.meets x)) || e.w.op == .aclr
     | _ =>
       q.readGroups.any (fun g => (e.destGroup.toList).any (fun x => Group.meets g.1 x)) ||
       (e.w.op == .aclr && !q.readGroups.isEmpty)))

/-- Whether entry `k` of the matrix queue, the first not accepted, can start (Table 11-5, R265, R266). -/
def State.canStart (s : State) (k : Nat) (q : QEntry) : Bool :=
  let earlier := s.core.mqueue.take k
  match q.w.op with
  | .tattach | .tdetach => k == 0
  | .tzero | .tload => !s.arrayHolds q && !earlier.any (fun e => e.tile == q.tile && e.w.op != .tread)
  | .tmma =>
    !s.arrayHolds q && !earlier.any (fun e => e.tile == q.tile && (e.w.op == .tzero || e.w.op == .tload))
  | _ => !s.arrayHolds q

/-- What a tile word works on: every element of its array ways (R254). -/
def State.tileCtx (s : State) (q : QEntry) : ArrCtx :=
  let c := s.ctx q
  { c with sel := c.ways.map (fun _ => true) }

/-- The effect of an accepted word of this core; its flags and scalar result wait for its completion.  DESIGN CHOICE (log
entry 161): a TREAD races with the pending words before it in the queue, and reads before those behind it. -/
def State.tileEffect (s : State) (k : Nat) (q : QEntry) : QEntry × State :=
  let c := s.tileCtx q
  let f := s.grantFirst
  let n := s.grantCount
  match q.w.op with
  | .tattach =>
    let (t, g) := s.tile.attach s.position q.x0.toNat
    match g with
    | some (f, c) =>
      ({ q with value := word c }, { s with tile := t, core := { s.core with tgrant := word (c + f * 256) } })
    | none => ({ q with value := 0 }, { s with core := { s.core with tgrant := 0 } })
  | .tdetach => (q, { s with tile := s.tile.release (s.position + 1), core := { s.core with tgrant := 0 } })
  | .tzero =>
    let t := q.w.d.toNat % 2
    (q, { s with tile := { s.tile with acc := Map.clear s.tile.acc (accKey t f 0) (256 * n) } })
  | .tmma =>
    let (acc, gens, fl) :=
      tmmaRun c s.core.sram q.tshape q.bandsc (q.w.d.toNat % 2) f n s.tile.acc s.tile.gens
    ({ q with flags := fl }, { s with tile := { s.tile with acc := acc, gens := gens } })
  | .tload =>
    (q, { s with tile := { s.tile with
        acc := tloadRun c s.core.sram (q.w.d.toNat % 2) f n q.x0.toNat s.tile.acc } })
  | .tread =>
    let a : ArrAcc := { m := s.core.sram, gens := s.core.gens, fl := 0 }
    let racing := (s.core.mqueue.take k).any (fun e => e.tile == q.tile && e.w.op != .tread)
    let a := if racing then treadFree c f n q.x0.toNat s.free a
      else treadRun c (q.w.a.toNat % 2) f n q.x0.toNat s.tile.acc a
    ({ q with flags := a.fl },
      { s with
        core := { s.core with sram := a.m, gens := a.gens }
        free := if racing then s.free + c.vl else s.free })
  | _ => (q, s)

/-- How far a cluster position stands behind the one accepted last in the round-robin: 0 for the next (R258). -/
def State.turnOf (s : State) (p : Nat) : Nat := (p + 7 - s.tile.lastPos.toNat) % 4

/-- Whether the head of this core's matrix queue can start. -/
def State.headStarts (s : State) : Bool :=
  match s.tileHead with
  | none => false
  | some k =>
    match s.core.mqueue[k]? with
    | some q => s.canStart k q
    | none => false

/-- The column generators after a TMMA of another position under mode 101: each column advances once for each row that
the position holds (R42, R253). -/
def TileUnit.stepColumns (t : TileUnit) (pos : Nat) : TileUnit :=
  let rows := 16 * ((List.range 8).filter (fun b => (Store.get t.owner b).toNat == pos + 1)).length
  { t with gens := loop (fun j g => loop (fun _ g => genStep g j) 0 rows g) 0 256 t.gens }

/-- TILE_ACCEPT (R249, R258): the unit accepts the head of the matrix queue of a cluster position, in round-robin order: a
position before which this core's head can start must wait.  For another core's position the word is a request for `rows`
rows, with 0 rows its release, and with 1 a TMMA under stochastic rounding; what its other words do is seen by that core
alone. -/
def execTileAccept (pos : BitVec 2) (rows : BitVec 8) (s : State) : Result :=
  let s1 := { s with tile := { s.tile with lastPos := pos } }
  if pos.toNat ≠ s.position && s.headStarts && decide (s.turnOf s.position < s.turnOf pos.toNat) then .next s
  else if pos.toNat = s.position then
    match s.tileHead with
    | none => .next s
    | some k =>
      match s.core.mqueue[k]? with
      | none => .next s
      | some q =>
        if !s.canStart k q then .next s
        else
          let (q, s2) := s1.tileEffect k q
          .next { s2 with core := { s2.core with mqueue := s2.core.mqueue.set k { q with stage := .begun } } }
  else
    let held := (List.range 8).any (fun b => (Store.get s.tile.owner b).toNat == pos.toNat + 1)
    if rows = 0 then .next { s1 with tile := s1.tile.release (pos.toNat + 1) }
    else if rows = 1 then .next { s1 with tile := s1.tile.stepColumns pos.toNat }
    else if held then .next s1
    else if rows = 16 ∨ rows = 32 ∨ rows = 64 ∨ rows = 128 then
      .next { s1 with tile := (s1.tile.attach pos.toNat rows.toNat).1 }
    else .next s

/-- Whether an accepted word completes only behind an earlier one: both act on one tile, and neither is a TREAD, whose
clocks are its own (R255, R259 to R263; log entry 161). -/
def completesAfter (q e : QEntry) : Bool :=
  q.tile.isSome && e.tile == q.tile && e.w.op != .tread && q.w.op != .tread

/-- The accepted tile words that may complete now, by their place in the matrix queue. -/
def State.tileEnds (s : State) : List Nat :=
  s.core.mqueue.zipIdx.filterMap (fun e =>
    if e.1.stage = .begun ∧ !(s.core.mqueue.take e.2).any (completesAfter e.1) then some e.2 else none)

/-- Entry `k` of the matrix queue completes: its flags are merged and its value arrives. -/
def State.endTile (s : State) (k : Nat) : State :=
  match s.core.mqueue[k]? with
  | none => s
  | some q =>
    let s := { s with core := { s.core with mqueue := s.core.mqueue.eraseIdx k } }
    let s := s.mergeFlags q.hart q.flags
    let s := if q.dest = 0 then s else s.arrive q.hart q.dest.toNat q.value
    if q.w.op = .tmma then s.count q.hart 0x0C 1 else s

/-- TILE_WORD_COMPLETE (R255, R259, R261 to R264): an accepted word completes; of several that may, a free value says which. -/
def execTileWordComplete (s : State) : Result :=
  match s.tileEnds with
  | [] => .next s
  | [k] => .next (s.endTile k)
  | k :: ks =>
    let (n, s1) := s.draw
    .next (s1.endTile ((k :: ks).getD (Config.tileTurn n % (ks.length + 1)) k))

end Sys2Proof.Machine
end

