-- ==== Sys2Proof/Machine/ArrayDecode.lean ====
section
/-! DEFINITION. Words of the array and tile profiles read as the micro-sequencers and the prefix check need them
(Tables 03-1 and 03-4 to 03-7): the table rows are mask, match and operation. -/

namespace Sys2Proof.Machine

/-- The fields of a format that an array word is read into (Table 03-1). -/
inductive ArrForm where
  | v3 | v2 | vx | vxm | vm | waitv | vstr | tmma | tread
deriving DecidableEq, Repr

/-- A row of the opcode table: the bits that are fixed, their values, the operation. -/
structure ArrRow where
  mask : Nat
  value : Nat
  op : ArrOp
  form : ArrForm
deriving DecidableEq, Repr

/-- Rows of the V3 form. -/
def rowsV30 : List ArrRow :=
  [⟨0xFC000001, 0x80000000, .vadd, .v3⟩, ⟨0xFC000001, 0x80000001, .vsub, .v3⟩,
   ⟨0xFC000001, 0x84000000, .vadds, .v3⟩, ⟨0xFC000001, 0x84000001, .vsubs, .v3⟩,
   ⟨0xFC000001, 0x88000000, .vmul, .v3⟩, ⟨0xFC000001, 0x88000001, .vmulh, .v3⟩,
   ⟨0xFC000001, 0x8C000000, .vmin, .v3⟩, ⟨0xFC000001, 0x8C000001, .vmax, .v3⟩,
   ⟨0xFC000001, 0x90000000, .vminn, .v3⟩, ⟨0xFC000001, 0x90000001, .vmaxn, .v3⟩,
   ⟨0xFC000001, 0x94000000, .vand, .v3⟩, ⟨0xFC000001, 0x94000001, .vor, .v3⟩,
   ⟨0xFC000001, 0x98000000, .vxor, .v3⟩, ⟨0xFC000001, 0x98000001, .vbool, .v3⟩,
   ⟨0xFC000001, 0x9C000000, .vsll, .v3⟩, ⟨0xFC000001, 0x9C000001, .vsrl, .v3⟩,
   ⟨0xFC000001, 0xA0000000, .vsra, .v3⟩, ⟨0xFC000007, 0xA0000001, .vmerge, .v3⟩,
   ⟨0xFC000001, 0xA4000000, .vmac, .v3⟩, ⟨0xFC000001, 0xA4000001, .vwmac, .v3⟩,
   ⟨0xFC000001, 0xA8000000, .vdot, .v3⟩, ⟨0xFC000001, 0xA8000001, .vdots, .v3⟩,
   ⟨0xFC000001, 0xAC000000, .vfadd, .v3⟩, ⟨0xFC000001, 0xAC000001, .vfsub, .v3⟩]

/-- Rows of the V3 form. -/
def rowsV31 : List ArrRow :=
  [⟨0xFC000001, 0xB0000000, .vfmul, .v3⟩, ⟨0xFC000001, 0xB0000001, .vfma, .v3⟩,
   ⟨0xFC000001, 0xB4000000, .vfmin, .v3⟩, ⟨0xFC000001, 0xB4000001, .vfmax, .v3⟩,
   ⟨0xFC000001, 0xB8000000, .vfdiv, .v3⟩, ⟨0xFC000001, 0xB8000001, .vfms, .v3⟩,
   ⟨0xFC000001, 0xBC000000, .vcfle, .v3⟩, ⟨0xFC000001, 0xBC000001, .vcfun, .v3⟩,
   ⟨0xFC000001, 0xC0000000, .vceq, .v3⟩, ⟨0xFC000001, 0xC0000001, .vcne, .v3⟩,
   ⟨0xFC000001, 0xC4000000, .vclt, .v3⟩, ⟨0xFC000001, 0xC4000001, .vcge, .v3⟩,
   ⟨0xFC000001, 0xC8000000, .vcltn, .v3⟩, ⟨0xFC000001, 0xC8000001, .vcgen, .v3⟩,
   ⟨0xFC000001, 0xCC000000, .vcfeq, .v3⟩, ⟨0xFC000001, 0xCC000001, .vcflt, .v3⟩]

/-- Rows of the V2 form. -/
def rowsV2 : List ArrRow :=
  [⟨0xFC000FE9, 0xD0000000, .vmov, .v2⟩, ⟨0xFC000FE9, 0xD0000020, .vnot, .v2⟩,
   ⟨0xFC000FE9, 0xD0000040, .vneg, .v2⟩, ⟨0xFC000FE9, 0xD0000060, .vabs, .v2⟩,
   ⟨0xFC000FE9, 0xD0000080, .vfneg, .v2⟩, ⟨0xFC000FE9, 0xD00000A0, .vfabs, .v2⟩,
   ⟨0xFC000FE9, 0xD00000C0, .vfsqrt, .v2⟩, ⟨0xFC000FE9, 0xD00000E0, .vexp2, .v2⟩,
   ⟨0xFC000FE9, 0xD0000100, .vlog2, .v2⟩, ⟨0xFC000FE9, 0xD0000120, .vrcp, .v2⟩,
   ⟨0xFC000FE9, 0xD0000140, .vrsqrt, .v2⟩, ⟨0xFC000FE9, 0xD0000160, .vcvt, .v2⟩,
   ⟨0xFC000FE9, 0xD0000180, .vclz, .v2⟩, ⟨0xFC000FE9, 0xD00001A0, .vpopc, .v2⟩,
   ⟨0xFC000FE9, 0xD00001C0, .vsearch, .v2⟩, ⟨0xFC000FEB, 0xD00001E0, .vkwrite, .v2⟩,
   ⟨0xFC000FFF, 0xD0000200, .vcompress, .v2⟩, ⟨0xFC000FFF, 0xD0000220, .vexpand, .v2⟩,
   ⟨0xFC000FF9, 0xD0000240, .vrev, .v2⟩, ⟨0xFC000FF9, 0xD0000260, .viota, .v2⟩]

/-- Rows of the VX form. -/
def rowsVX : List ArrRow :=
  [⟨0xFC07F01F, 0xD4000000, .vbcast, .vx⟩, ⟨0xFC00001F, 0xD4000001, .vextr, .vx⟩,
   ⟨0xFC00001F, 0xD4000002, .vinsr, .vx⟩, ⟨0xFC00001F, 0xD4000003, .vslli, .vx⟩,
   ⟨0xFC00001F, 0xD4000004, .vsrli, .vx⟩, ⟨0xFC00001F, 0xD4000005, .vsrai, .vx⟩,
   ⟨0xFC00001F, 0xD4000006, .vaddi, .vx⟩, ⟨0xFC00001F, 0xD4000007, .vslideup, .vx⟩,
   ⟨0xFC00001F, 0xD4000008, .vslidedn, .vx⟩, ⟨0xFC000FFF, 0xD4000009, .vredsum, .vx⟩,
   ⟨0xFC000FFF, 0xD400000A, .vredmin, .vx⟩, ⟨0xFC000FFF, 0xD400000B, .vredmax, .vx⟩,
   ⟨0xFC000FFF, 0xD400000C, .vredand, .vx⟩, ⟨0xFC000FFF, 0xD400000D, .vredor, .vx⟩,
   ⟨0xFC000FFF, 0xD400000E, .vredxor, .vx⟩, ⟨0xFC00001F, 0xD400000F, .vfredsum, .vx⟩,
   ⟨0xFC000FFF, 0xD4000010, .vfredmax, .vx⟩, ⟨0xFC000FFF, 0xD4000011, .vfredmin, .vx⟩,
   ⟨0xFC00001F, 0xD4000012, .vsegsum, .vx⟩, ⟨0xFC000FFF, 0xD4000013, .vmpopc, .vx⟩,
   ⟨0xFC000FFF, 0xD4000014, .vmfirst, .vx⟩]

/-- Rows of the VXM form. -/
def rowsVXM : List ArrRow :=
  [⟨0xFC07F01F, 0xF4000000, .vbcast, .vxm⟩, ⟨0xFC00001F, 0xF4000003, .vslli, .vxm⟩,
   ⟨0xFC00001F, 0xF4000004, .vsrli, .vxm⟩, ⟨0xFC00001F, 0xF4000005, .vsrai, .vxm⟩,
   ⟨0xFC00001F, 0xF4000006, .vaddi, .vxm⟩, ⟨0xFC00001F, 0xF4000007, .vslideup, .vxm⟩,
   ⟨0xFC00001F, 0xF4000008, .vslidedn, .vxm⟩, ⟨0xFC000FFF, 0xF4000009, .vredsum, .vxm⟩,
   ⟨0xFC000FFF, 0xF400000A, .vredmin, .vxm⟩, ⟨0xFC000FFF, 0xF400000B, .vredmax, .vxm⟩,
   ⟨0xFC000FFF, 0xF400000C, .vredand, .vxm⟩, ⟨0xFC000FFF, 0xF400000D, .vredor, .vxm⟩,
   ⟨0xFC000FFF, 0xF400000E, .vredxor, .vxm⟩, ⟨0xFC00001F, 0xF400000F, .vfredsum, .vxm⟩,
   ⟨0xFC000FFF, 0xF4000010, .vfredmax, .vxm⟩, ⟨0xFC000FFF, 0xF4000011, .vfredmin, .vxm⟩,
   ⟨0xFC00001F, 0xF4000012, .vsegsum, .vxm⟩, ⟨0xFC000FFF, 0xF4000013, .vmpopc, .vxm⟩,
   ⟨0xFC000FFF, 0xF4000014, .vmfirst, .vxm⟩]

/-- Rows of the VM form. -/
def rowsVM : List ArrRow :=
  [⟨0xFC000FFC, 0xD8000000, .vld, .vm⟩, ⟨0xFC00001C, 0xD8000004, .vlds, .vm⟩,
   ⟨0xFC00001C, 0xD8000008, .vldx, .vm⟩, ⟨0xFC000FFC, 0xD800000C, .vldl, .vm⟩,
   ⟨0xFC000FFC, 0xD8000010, .vldy, .vm⟩, ⟨0xFC00001C, 0xD8000014, .vldys, .vm⟩,
   ⟨0xFC000FFC, 0xD8000018, .vldff, .vm⟩, ⟨0xFC000FFC, 0xDC000000, .vst, .vm⟩,
   ⟨0xFC00001C, 0xDC000004, .vsts, .vm⟩, ⟨0xFC00001C, 0xDC000008, .vstx, .vm⟩,
   ⟨0xFC000FFC, 0xDC00000C, .vstl, .vm⟩, ⟨0xFC000FFC, 0xDC000010, .vsty, .vm⟩,
   ⟨0xFC00001C, 0xDC000014, .vstys, .vm⟩]

/-- Rows of the WAITV form. -/
def rowsWAITV : List ArrRow :=
  [⟨0xFC00000F, 0xF0000000, .waitv, .waitv⟩]

/-- Rows of the VSTR form. -/
def rowsVSTR : List ArrRow :=
  [⟨0xFC000019, 0xF0000001, .vstr, .vstr⟩]

/-- Rows of the TMMA form. -/
def rowsTMMA : List ArrRow :=
  [⟨0xFFF0001F, 0xE8000002, .tmma, .tmma⟩]

/-- Rows of the TREAD form. -/
def rowsTREAD : List ArrRow :=
  [⟨0xFC07E01F, 0xE8000004, .tread, .tread⟩]

/-- Every row. -/
def arrayRows : List ArrRow :=
  rowsV30 ++ rowsV31 ++ rowsV2 ++ rowsVX ++ rowsVXM ++ rowsVM ++ rowsWAITV ++ rowsVSTR ++ rowsTMMA ++ rowsTREAD

/-- A row's word with its fields (Table 03-1). -/
def ArrRow.word (r : ArrRow) (w : IWord) : ArrWord :=
  let x := w.toNat
  let d : BitVec 7 := BitVec.ofNat 7 (bits x 19 7)
  let a : BitVec 7 := BitVec.ofNat 7 (bits x 12 7)
  let b : BitVec 7 := BitVec.ofNat 7 (bits x 5 7)
  let p : BitVec 2 := BitVec.ofNat 2 (bits x 1 2)
  match r.form with
  | .v3 => { op := r.op, d := d, a := a, b := b, k1 := bit x 4, k2 := bit x 3, p := if r.op = .vmerge then 0 else p }
  | .v2 => { op := r.op, d := d, a := a, b := 0, k1 := bit x 4, k2 := false, p := p }
  | .vx => { op := r.op, d := d, a := a, b := b, k1 := false, k2 := false, p := 0 }
  | .vxm => { op := r.op, d := d, a := a, b := b, k1 := false, k2 := false, p := 2 }
  | .vm => { op := r.op, d := d, a := a, b := b, k1 := false, k2 := false, p := BitVec.ofNat 2 (bits x 0 2) }
  | .waitv => { op := r.op, d := d, a := a, b := b, k1 := bit x 4, k2 := false, p := 0 }
  | .vstr => { op := r.op, d := d, a := a, b := b, k1 := false, k2 := false, p := p }
  | .tmma => { op := r.op, d := d, a := a, b := b, k1 := false, k2 := false, p := 0 }
  | .tread => { op := r.op, d := d, a := a, b := b, k1 := false, k2 := false, p := 0 }

/-- The array word, TMMA or TREAD that a word is; none for any other word. -/
def arrayWord (w : IWord) : Option ArrWord :=
  match arrayRows.find? (fun r => w.toNat &&& r.mask == r.value) with
  | none => none
  | some r =>
    let x := r.word w
    if (r.form = .vm ∨ r.form = .vstr) ∧ x.p = 3 then none
    else if r.op = .vkwrite ∧ x.d ≠ x.a then none
    else some x

end Sys2Proof.Machine
end

