-- ==== Sys2Proof/Machine/MicroThreads.lean ====
section
/-! DEFINITION. Micro-threads: broadcast blocks, the words of major 39 (MT), private mode with its block images, and the
events of the micro-sequencers (chapter 10). -/

namespace Sys2Proof.Machine

/-! ### Masks (R227) -/

/-- The ways of the micro-threads that a mask selects; bits without a micro-thread are ignored. -/
def State.masked (s : State) (m : Nat) : List Nat :=
  ((arrayWays s.core.wayrole).zipIdx.filter (fun e => bit m e.2)).map (·.1)

/-- The bits of a mask that name micro-threads. -/
def State.realMask (s : State) (m : Nat) : BitVec 32 :=
  BitVec.ofNat 32 (bits m 0 (arrayWays s.core.wayrole).length)

/-! ### The checks of MT words (R94, R227, R232, R246) -/

/-- A word of major 39 of a hart, legal inside an open block where `inBlock` says so. -/
def mtOp (rs : List (BitVec 7)) (inBlock : Bool) (s : State) (k : BitVec 1 → Result) : Result :=
  hartOnly s (fun h =>
    let x := s.hart h
    if s.hostPort || (x.mb && !inBlock) then s.trap h 0x01
    else if !x.ao then s.trap h 0x0A
    else if x.ready (rs.map (·.toNat)) then k h
    else .next (s.stall h 0x08))

/-- A word that only a block image may hold: a hart traps as 0x01 (R70). -/
def imageOnly (s : State) (k : Nat → State) : Result :=
  match s.cur with
  | .hart h => s.trap h 0x01
  | .mt w => .next (k w)

/-! ### Broadcast blocks (R232, R233) -/

/-- MBEGIN (R232). -/
def execMbegin (a : BitVec 7) (s : State) : Result :=
  mtOp [a] true s (fun h =>
    let x := s.hart h
    if x.mb then s.trap h 0x0B
    else
      let s := { s with core := { s.core with blockMask := (x.reg a.toNat).truncate 32, block := [] } }
      .next ((s.setStatus h 8 1 1).retire h))

/-- The registers that MEND reads and writes: those of every collected word (R233, step 2). -/
def blockRegs (b : List Collected) : List Nat :=
  b.flatMap (fun c => c.w.scalars.map (·.toNat) ++ [c.w.scalarDest])

/-- What step 3 of R233 comes to for the words of a block. -/
inductive BlockPlan where
  /-- every word placed: its entries, and SHAPE afterwards -/
  | ok (qs : List QEntry) (shape : Word) (s : State)
  | wait (s : State)
  /-- the first faulting word, by its index -/
  | fault (k cause elem : Nat) (va : Word) (q : QEntry) (s : State)

/-- Steps 2 and 3 of R233 over the collected words, in block order: each sees SHAPE as the words before it leave it. -/
def planBlock (h : BitVec 1) (sel : BitVec 32) : Nat → List Collected → List QEntry → Word → State → BlockPlan
  | _, [], qs, sh, s => .ok qs sh s
  | k, c :: cs, qs, sh, s =>
    let x := s.hart h
    let q := s.newEntry h c.w c.fmt sh sel (x.reg ((c.w.scalars.getD 0 0).toNat))
      (x.reg ((c.w.scalars.getD 1 0).toNat)) c.w.scalarDest
    match s.prepare h q true with
    | .ok q sh s => planBlock h sel (k + 1) cs (qs ++ [q]) sh s
    | .wait s => .wait s
    | .fault cause e va q s => .fault k cause e va q s

/-- The queue with entries added, and the pending bits of their scalar destinations set. -/
def State.enqueueAll (s : State) (qs : List QEntry) : State :=
  qs.foldl (fun s q => (s.enqueue q).setPending q.hart q.dest.toNat) s

/-- MEND stalls (R232, R233): interrupts are taken at it, with the block open.  DEDUCED (log entry 160): at its stalls of
every step of R233, the one for pending registers too. -/
def State.mendStalls (s : State) (h : BitVec 1) : Result :=
  match s.asyncNext h true with
  | some a => .next (s.takeAsync h a)
  | none => .next s

/-- After MEND the hart sleeps while its block holds a WAITV (R334; log entry 131). -/
def State.afterMend (s : State) (h : BitVec 1) (b : List Collected) : State :=
  if b.any (fun c => c.w.op == .waitv) then s.sleepIn h (.waitb s.ctr.cycle.toNat none) else s

/-- MEND (R233).  MEND outside a block is illegal, which comes before ownership (R74). -/
def execMend (s : State) : Result :=
  hartOnly s (fun h =>
    let x := s.hart h
    let b := s.core.block
    if s.hostPort || !x.mb then s.trap h 0x01
    else if !x.ao then s.trap h 0x0A
    else if s.queueRoom < b.length then s.mendStalls h
    else if !x.ready (blockRegs b) then (s.stall h 0x08).mendStalls h
    else match (if b.any (·.w.op.space.any (· != 0)) then s.settleStores h else some s) with
      | none => s.mendStalls h
      | some s =>
        match planBlock h s.core.blockMask 0 b [] s.core.shape s with
        | .wait s => s.mendStalls h
        | .fault k c e va q s =>
          { s with core := { s.core with mtstat := wset s.core.mtstat 2 5 k } }.arrayFault h q c e va
        | .ok qs sh s =>
          let s := { s with core := { s.core with block := [] } }
          .next (((((s.enqueueAll qs).setShape sh).setStatus h 8 1 0).retire h).afterMend h b))

/-! ### MSPLIT, MJOIN, MRESET and the m registers (R235, R242, R243, R246) -/

/-- A word of major 39 as the array issue queue holds it. -/
def mtWord (op : ArrOp) (d a b : BitVec 7) : ArrWord :=
  { op := op, d := d, a := a, b := b, k1 := false, k2 := false, p := 0 }

/-- MSPLIT (R235), behind the hart's scalar scratch stores (R308). -/
def execMsplit (a b : BitVec 7) (s : State) : Result :=
  mtOp [a, b] false s (fun h =>
    let x := s.hart h
    let m := s.realMask (x.reg b.toNat).toNat
    if (s.masked m.toNat).any (fun w => (s.mt w).state == 1 || (s.mt w).state == 3) then s.trap h 0x0B
    else if m = 0 then .next (s.retire h)
    else if s.queueRoom = 0 then .next s
    else s.withStores h (fun s =>
      let q := s.newEntry h (mtWord .msplit 0 a b) none s.core.shape m (x.reg a.toNat) 0 0
      .next ((s.enqueue q).retire h)))

/-- The masks that MJOIN writes (R242). -/
def State.joinWord (s : State) : Nat :=
  ((arrayWays s.core.wayrole).zipIdx).foldl (fun r e =>
    let st := (s.mt e.1).state
    r + b2n (st == 2 || st == 3) * 2 ^ e.2 + b2n (st == 3) * 2 ^ (32 + e.2)) 0

/-- MJOIN (R242): sleeps while an MSPLIT is queued or a selected micro-thread is private. -/
def execMjoin (d a : BitVec 7) (s : State) : Result :=
  mtOp [d, a] false s (fun h =>
    if s.core.queue.any (fun q => q.w.op == .msplit) ||
        (s.masked ((s.hart h).reg a.toNat).toNat).any (fun w => (s.mt w).state == 1) then .next (s.sleepIn h .retry)
    else .next ((s.writeReg h d.toNat (word s.joinWord)).retire h))

/-- A micro-thread goes to the broadcast state (R243). -/
def State.mtReset (s : State) (w : Nat) : State :=
  (s.mtMerge w).modMt w (fun x => { x with state := 0, fcause := 0, widx := 0, stopReq := false })

/-- MRESET (R243): a private micro-thread stops at its next block boundary. -/
def execMreset (a : BitVec 7) (s : State) : Result :=
  mtOp [a] true s (fun h =>
    let s := (s.masked ((s.hart h).reg a.toNat).toNat).foldl (fun s w =>
      if (s.mt w).state = 0 then s
      else if (s.mt w).state = 1 then s.modMt w (fun x => { x with stopReq := true })
      else s.mtReset w) s
    .next (s.retire h))

/-- MSETM (R246): queued. -/
def execMsetm (d a : BitVec 7) (m : BitVec 3) (s : State) : Result :=
  mtOp [d, a] false s (fun h =>
    let x := s.hart h
    let sel := s.realMask (x.reg d.toNat).toNat
    if s.queueRoom = 0 then .next s
    else
      let q := s.newEntry h (mtWord .msetm d a (m.zeroExtend 7)) none s.core.shape sel (x.reg d.toNat) (x.reg a.toNat) 0
      .next ((s.enqueue q).retire h))

/-- MSTAT's layout (Table 10-8). -/
def MicroThread.status (x : MicroThread) : Word :=
  word (x.state.toNat + b2n x.pred * 2 ^ 4 + x.fcause.toNat * 2 ^ 8 + x.widx.toNat * 2 ^ 16 + x.bpc.toNat * 2 ^ 32)

/-- What a micro-sequencer answers to MGETM or MSTAT (R246). -/
def State.mtAnswer (s : State) (num : Nat) (m : Option (BitVec 3)) : Word :=
  match s.mtWay num, m with
  | some w, some r => ((s.mt w).reg r.toNat).signExtend 64
  | some w, none => (s.mt w).status
  | none, some _ => 0
  | none, none => 0xFFFFFFFFFFFFFFFF

/-- Asks a micro-sequencer: the answer comes after the way's earlier queued instructions (R246). -/
def State.ask (s : State) (h : BitVec 1) (d : Nat) (num : Word) (m : Option (BitVec 3)) : State :=
  if d = 0 then s
  else
    let a : MtAnswer := { hart := h, reg := BitVec.ofNat 6 d, num := num.truncate 5, m := m, seq := s.core.nextSeq }
    ({ s with core := { s.core with answers := s.core.answers ++ [a], nextSeq := s.core.nextSeq + 1 } }).setPending h d

/-- MGETM (R246). -/
def execMgetm (d a : BitVec 7) (m : BitVec 3) (s : State) : Result :=
  mtOp [d, a] true s (fun h => .next ((s.ask h d.toNat ((s.hart h).reg a.toNat) (some m)).retire h))

/-- MSTAT (R246). -/
def execMstat (d a : BitVec 7) (s : State) : Result :=
  mtOp [d, a] true s (fun h => .next ((s.ask h d.toNat ((s.hart h).reg a.toNat) none).retire h))

/-- Whether an answer may come: every earlier queued instruction that uses the way has finished there. -/
def State.answerReady (s : State) (a : MtAnswer) : Bool :=
  match s.mtWay a.num.toNat with
  | none => true
  | some w => !s.core.queue.any (fun q => q.stage == .waiting && decide (q.seq < a.seq) && (s.restWays q).contains w)

/-- SCALAR_RESULT_ARRIVAL (R115, R118, R135): a value on its way to a pending register arrives, with its flags. -/
def execScalarResultArrival (h : BitVec 1) (r : BitVec 6) (s : State) : Result :=
  match (s.hart h).late.findIdx? (fun e => e.reg == r) with
  | some k =>
    match (s.hart h).late[k]? with
    | none => .next s
    | some e =>
      let s := s.modHart h (fun x => { x with late := x.late.eraseIdx k })
      .next ((if r = 0 then s else s.arrive h r.toNat e.val).mergeFlags h e.flags)
  | none =>
    match s.core.answers.find? (fun a => a.hart == h && a.reg == r) with
    | none => .next s
    | some a =>
      if !s.answerReady a then .next s
      else
        let v := s.mtAnswer a.num.toNat a.m
        .next ({ s with core := { s.core with answers := s.core.answers.filter (· != a) } }.arrive h r.toNat v)

/-! ### Words of block images (R236, R238, R244) -/

/-- A block boundary: the block is left, and a micro-thread asked to stop goes to the broadcast state (R243). -/
def State.endBlock (s : State) (w : Nat) : State :=
  let s := s.modMt w (fun x => { x with image := [], pos := 0, fmt := none })
  if (s.mt w).stopReq then s.mtReset w else s

/-- BPC from an m register: bits [21:0] with [1:0] cleared. -/
def bpcOf (m : BitVec 32) : BitVec 22 := BitVec.ofNat 22 (m.toNat / 4 * 4)

/-- MSTOP (R238).  A micro-thread that MRESET has asked to stop at this boundary goes to the broadcast state (R243). -/
def execMstop (s : State) : Result :=
  imageOnly s (fun w =>
    let stop (t : State) : State := (t.mtMerge w).modMt w (fun x => { x with state := 2, image := [], pos := 0, fmt := none })
    if (s.mt w).stopReq then (stop s).mtReset w else stop s)

/-- MNEXT (R238). -/
def execMnext (a : BitVec 3) (s : State) : Result :=
  imageOnly s (fun w => (s.modMt w (fun x => { x with bpc := bpcOf (x.reg a.toNat) })).endBlock w)

/-- MBR (R238). -/
def execMbr (a b : BitVec 3) (s : State) : Result :=
  imageOnly s (fun w =>
    (s.modMt w (fun x => { x with bpc := bpcOf (x.reg (if x.pred then a.toNat else b.toNat)) })).endBlock w)

/-- MLINKR (R244): the LINK of the micro-thread below or above; 0 past the ends. -/
def execMlinkr (d : BitVec 3) (l : BitVec 1) (s : State) : Result :=
  imageOnly s (fun w =>
    let k := s.mtNumber w
    let n := if l = 1 then s.mtWay (k + 1) else if k = 0 then none else s.mtWay (k - 1)
    let v := match n with
      | some y => (s.mt y).link
      | none => 0
    s.modMt w (fun x => { x with m := Store.set x.m d.toNat v }))

/-- MLINKW (R244). -/
def execMlinkw (s : State) : Result :=
  imageOnly s (fun w => s.modMt w (fun x => { x with link := x.reg 7 }))

/-- A field of an image word. -/
def fieldOf (w : IWord) (lo n : Nat) : BitVec n := BitVec.ofNat n (bits w.toNat lo n)

/-- Whether a word ends a block (R238): MSTOP, MNEXT or MBR. -/
def endWord (w : IWord) : Bool :=
  w == 0xE4000004 || (w.toNat &&& 0xFFF80FFF == 0xE4000005 && decide (bits w.toNat 12 7 < 8)) ||
  (w.toNat &&& 0xFFF8001F == 0xE4000006 && decide (bits w.toNat 12 7 < 8) && decide (bits w.toNat 5 7 < 8))

/-- The ordinary scalar words of a block image (R236): OPR, the immediates, shift-immediate, SLTI and LIH. -/
def scalarImage (w : IWord) (s : State) : Option Result :=
  let d := fieldOf w 19 7
  let a := fieldOf w 12 7
  let b := fieldOf w 5 7
  let i := fieldOf w 0 12
  let n := fieldOf w 0 6
  match bits w.toNat 26 6 with
  | 0x01 =>
    match bits w.toNat 0 5 with
    | 0x00 => some (execAdd d a b s)
    | 0x01 => some (execSub d a b s)
    | 0x02 => some (execAnd d a b s)
    | 0x03 => some (execOr d a b s)
    | 0x04 => some (execXor d a b s)
    | 0x05 => some (execAndn d a b s)
    | 0x06 => some (execSll d a b s)
    | 0x07 => some (execSrl d a b s)
    | 0x08 => some (execSra d a b s)
    | 0x09 => some (execSlt d a b s)
    | 0x0A => some (execSltn d a b s)
    | 0x0B => some (execMin d a b s)
    | 0x0C => some (execMax d a b s)
    | 0x0D => some (execMinn d a b s)
    | 0x0E => some (execMaxn d a b s)
    | 0x0F => some (execAddw d a b s)
    | 0x10 => some (execSubw d a b s)
    | 0x11 => some (execCmov d a b s)
    | _ => none
  | 0x04 => some (execAddi d a i s)
  | 0x05 => some (execAndi d a i s)
  | 0x06 => some (execOri d a i s)
  | 0x07 => some (execXori d a i s)
  | 0x08 =>
    if bits w.toNat 6 4 ≠ 0 then none
    else match bits w.toNat 10 2 with
      | 0 => some (execSlli d a n s)
      | 1 => some (execSrli d a n s)
      | 2 => some (execSrai d a n s)
      | _ => none
  | 0x09 => some (execSlti d a i s)
  | 0x0A => some (execLih d (fieldOf w 0 19) s)
  | _ => none

/-- The micro-thread words of a block image (Table 10-7). -/
def mtImage (w : IWord) (s : State) : Option Result :=
  let d := bits w.toNat 19 7
  let a := bits w.toNat 12 7
  let b := bits w.toNat 5 7
  match bits w.toNat 26 6, bits w.toNat 0 5 with
  | 0x39, 0x04 => if d = 0 ∧ a = 0 ∧ b = 0 then some (execMstop s) else none
  | 0x39, 0x05 => if d = 0 ∧ a < 8 ∧ b = 0 then some (execMnext (BitVec.ofNat 3 a) s) else none
  | 0x39, 0x06 => if d = 0 ∧ a < 8 ∧ b < 8 then some (execMbr (BitVec.ofNat 3 a) (BitVec.ofNat 3 b) s) else none
  | 0x39, 0x07 => if d < 8 ∧ a < 2 ∧ b = 0 then some (execMlinkr (BitVec.ofNat 3 d) (BitVec.ofNat 1 a) s) else none
  | 0x39, 0x08 => if d = 0 ∧ a = 0 ∧ b = 0 then some (execMlinkw s) else none
  | _, _ => none

/-- Whether an FMT word of a block image is misused before the word that follows it (R79, R82).  DESIGN CHOICE (log entry
160): where that word is a reserved encoding, WIDX names the FMT (R82) and not its target (R79). -/
def imagePrefixBad (f : IWord) (next : Option IWord) : Bool :=
  match next.bind arrayWord with
  | some t => prefixMisuse t.op (f.truncate 26)
  | none => true

/-! ### Block fetch (R238 to R240, R464) -/

/-- What a block fetch finds: the block, or the fault with its cause, word index and failing offset. -/
inductive Fetched where
  | ok (image : List IWord)
  | fault (cause widx : Nat) (at_ : Nat)

/-- Fetches words from offset `o`: `i` is the next word's index, `n` the instructions before it, `fmtAt` the index of an
FMT that waits for its target.  At most 65 words are fetched. -/
def State.fetchWords (s : State) : Nat → Nat → Nat → Nat → Option Nat → List IWord → Fetched
  | 0, o, i, _, _, _ => .fault 1 i o
  | fuel + 1, o, i, n, fmtAt, acc =>
    if !s.within false o 4 then .fault 2 i o
    else
      let w : IWord := BitVec.ofNat 32 (s.scratchLoad false o 4)
      if endWord w then
        match fmtAt with
        | some j => .fault 1 j o
        | none => .ok (acc ++ [w])
      else if n = 32 ∧ fmtAt = none then .fault 1 i o
      else
        let isFmt := bits w.toNat 26 6 == 0x1A && fmtAt.isNone
        s.fetchWords fuel (o + 4) (i + 1) (if isFmt then n else n + 1) (if isFmt then some i else none) (acc ++ [w])

/-- A fault of block fetch or of the word at index `widx` (R240): the block is left, BPC stays at its first word or
names the failing offset.  DESIGN CHOICE (log entry 160): offset 0x40_0000, which the 22 bits of BPC do not hold, reads as
0 there. -/
def State.blockFault (s : State) (w widx : Nat) (bpc : Option Nat) : State :=
  s.modMt w (fun x => { x with
    widx := BitVec.ofNat 7 widx, bpc := (bpc.map (BitVec.ofNat 22)).getD x.bpc, image := [], pos := 0, fmt := none,
    stopReq := false })

/-- Runs the next word of a private micro-thread's block. -/
def State.runImage (s : State) (w : Nat) (x : IWord) (next : Option IWord) : State :=
  let me := s.mt w
  if bits x.toNat 26 6 = 0x1A then
    if imagePrefixBad x next then s.mtFault w 1 else s.modMt w (fun y => { y with fmt := some (x.truncate 26) })
  else
    let s1 := { s with cur := Agent.mt w }
    let r : Option Result :=
      match mtImage x s1 with
      | some r => some r
      | none =>
        match scalarImage x s1 with
        | some r => some r
        | none => (arrayWord x).map (fun a => .next (s1.privateArray w a))
    let s2 : State :=
      match r with
      | some (.next t) => { t with cur := s.cur }
      | _ => s.mtFault w 1
    let s3 := s2.modMt w (fun y => { y with fmt := none })
    if me.fmt.isNone && (arrayWord x).isNone && !endWord x && (s3.mt w).state == 1 then s3.countCore 0x0D 1 else s3

/-- BLOCK_FETCH (R238 to R240): private micro-thread `k` fetches its block, or runs the next word of the one it holds, unless
that must wait for the layer bus (Table 12-2, R277, R284). -/
def execBlockFetch (k : BitVec 5) (s : State) : Result :=
  match s.mtWay k.toNat with
  | none => .next s
  | some w =>
    let x := s.mt w
    if x.state ≠ 1 then .next s
    else match x.image[x.pos]? with
      | none =>
        if x.stopReq then .next (s.mtReset w)
        else if s.mtsHeld then .next s
        else match s.fetchWords 66 x.bpc.toNat 0 0 none [] with
          | .ok l => .next (s.modMt w (fun y => { y with image := l, pos := 0, fmt := none }))
          | .fault c i o => .next ((s.mtFault w c).blockFault w i (if c = 2 then some o else none))
      | some i =>
        if ((arrayWord i).any (fun a => s.elemHeld a.op w)) then .next s
        else
        let s1 := s.runImage w i (x.image[x.pos + 1]?)
        let y := s1.mt w
        if y.state = 3 then .next (s1.blockFault w x.pos none)
        else if endWord i then .next s1
        else .next (s1.modMt w (fun z => { z with pos := z.pos + 1 }))

/-- MICRO_THREAD_RELEASE (R235, R308): the earliest queued MSPLIT that selects micro-thread `k` releases it once its way has
finished every earlier queued instruction and the hart's earlier stores to local scratch and layer space are in their
banks. -/
def execMicroThreadRelease (k : BitVec 5) (s : State) : Result :=
  match s.mtWay k.toNat, s.core.queue.findIdx? (fun q => q.w.op == .msplit && bit q.sel.toNat k.toNat) with
  | some w, some j =>
    match s.core.queue[j]? with
    | none => .next s
    | some q =>
      let st := (s.mt w).state
      if (st ≠ 0 ∧ st ≠ 2) || (s.core.queue.take j).any (fun e => e.stage == .waiting &&
          ((s.restWays e).contains w || (e.hart == q.hart && e.w.op.stores && e.w.op.space.any (· != 0)))) then
        .next s
      else
        let s1 := s.modMt w (fun x => { x with
          state := 1, bpc := bpcOf (q.x0.truncate 32), fcause := 0, widx := 0,
          vlp := BitVec.ofNat 13 (min (shVl q.shape) 4096), type := BitVec.ofNat 5 (shType q.shape), owner := q.hart,
          stopReq := false, image := [], pos := 0, fmt := none })
        let sel := BitVec.ofNat 32 (setBits q.sel.toNat k.toNat 1 0)
        if sel = 0 then .next { s1 with core := { s1.core with queue := s1.core.queue.eraseIdx j } }
        else .next (s1.setEntry j { q with sel := sel })
  | _, _ => .next s

end Sys2Proof.Machine
end

