-- ==== Sys2Proof/Machine/Csr.lean ====
section
/-! DEFINITION. The control and status registers and the words of major 18, CSR (R137 to R143, R147, R148, R458). -/

namespace Sys2Proof.Machine

/-! ### The map (Table 06-2) -/

/-- The lowest level that may read a CSR number and the lowest that may write it, none for RO; none for a number that
Table 06-2 does not list (R137, R143, R458). -/
def csrAccess (n : Nat) : Option (Nat × Option Nat) :=
  if n ≤ 0x00A then some (1, some 1)
  else if n = 0x00B then some (1, none)
  else if n = 0x010 ∨ n = 0x011 ∨ n = 0x012 then some (2, some 2)
  else if n = 0x013 then some (2, none)
  else if 0x014 ≤ n ∧ n ≤ 0x018 then some (2, some 2)
  else if n = 0x019 then some (2, some 1)
  else if n = 0x01B then some (2, some 2)
  else if n = 0x01C then some (2, none)
  else if n = 0x01D ∨ n = 0x01E then some (2, some 2)
  else if 0x01F ≤ n ∧ n ≤ 0x022 then some (2, none)
  else if 0x023 ≤ n ∧ n ≤ 0x025 then some (1, some 1)
  else if n = 0x026 then some (1, some 0)
  else if n = 0x027 then some (1, some 1)
  else if n = 0x028 then some (2, some 2)
  else if n = 0x029 then some (2, none)
  else if n = 0x02A then some (1, none)
  else if n = 0x02B ∨ n = 0x02C then some (1, some 1)
  else if 0x040 ≤ n ∧ n ≤ 0x04F then some (2, some 1)
  else none

/-- The hart CSRs that the window 0x200 to 0x22C reaches (R143). -/
def isHartCsr (n : Nat) : Bool :=
  decide (n ≤ 0x00B) || n == 0x010 || n == 0x011 || n == 0x01F || n == 0x021 || n == 0x028 || n == 0x02C

/-- What a CSR number names: its own number, and whether it is the other hart's copy (R143). -/
def csrName (n : Nat) : Option (Nat × Bool) :=
  if 0x200 ≤ n ∧ n ≤ 0x22C then if isHartCsr (n - 0x200) then some (n - 0x200, true) else none
  else if (csrAccess n).isSome then some (n, false) else none

/-- The lowest level that may read, and that may write, what `csrName` names; none for RO. -/
def csrLevels (n : Nat) (window : Bool) : Nat × Option Nat :=
  match csrAccess n with
  | some (r, w) => if window then (1, w.map (fun _ => 1)) else (r, w)
  | none => (0, none)

/-- The CSRs whose writes need array ownership (R94). -/
def ownerCsr (n : Nat) : Bool :=
  n == 0x012 || (decide (0x014 ≤ n) && decide (n ≤ 0x019)) || n == 0x01B || n == 0x01D || n == 0x01E

/-! ### Values -/

/-- What a CSR of hart `h` reads as (Table 06-2). -/
def State.csrRead (s : State) (h : BitVec 1) (n : Nat) : Word :=
  let c := (s.hart h).csr
  match n with
  | 0x000 => c.status
  | 0x001 => c.cause
  | 0x002 => c.epc
  | 0x003 => c.faddr
  | 0x004 => c.finfo
  | 0x005 => c.fstride
  | 0x006 => c.fremain
  | 0x007 => c.tvec
  | 0x008 => c.scratch
  | 0x009 => c.pfx
  | 0x00A => c.ie
  | 0x00B => word (s.ip h)
  | 0x010 => c.flags
  | 0x011 => c.rmode
  | 0x012 => s.core.shape
  | 0x013 => word (s.vlmax (shLsel s.core.shape))
  | 0x014 => s.core.boolt
  | 0x015 => s.core.akey
  | 0x016 => s.core.akmask
  | 0x017 => s.core.scaleg
  | 0x018 => s.core.bandsc
  | 0x019 => s.wayroleRead
  | 0x01B => s.core.tshape
  | 0x01C => s.core.tgrant
  | 0x01D => s.core.mtsel
  | 0x01E => s.core.mtstat
  | 0x01F => c.cpyt
  | 0x020 => s.ctr.cycle
  | 0x021 => word (s.core.coreId.toNat * 2 + h.toNat)
  | 0x022 => s.core.coreId.zeroExtend 64
  | 0x023 => s.core.cid
  | 0x024 => s.core.ptbase
  | 0x025 => s.mgmt.fmode.zeroExtend 64
  | 0x026 => word s.ownXratio
  | 0x027 => s.core.prefcap
  | 0x028 => c.waitto
  | 0x029 => Config.caps
  | 0x02A => s.mgmt.degrade
  | 0x02B => s.ctr.heatk.zeroExtend 64
  | 0x02C => c.tickcmp
  | n =>
    if 0x040 ≤ n ∧ n < 0x044 then Store.get c.psel (n - 0x040)
    else if 0x044 ≤ n ∧ n < 0x048 then Store.get s.core.psel (n - 0x040)
    else if 0x048 ≤ n ∧ n < 0x04C then Store.get c.pcnt (n - 0x048)
    else if 0x04C ≤ n ∧ n < 0x050 then Store.get s.core.pcnt (n - 0x048)
    else 0

/-- Bits lo .. lo + n − 1 of a word, and nothing else: what a field keeps of a written value. -/
def field (x : Word) (lo n : Nat) : Word := word (wf x lo n * 2 ^ lo)

/-- STATUS after a write by a hart at level `pl` (Table 06-3). -/
def statusWrite (old v : Word) (pl : Nat) : Word :=
  let x := wset old 4 3 (wf v 4 3)
  let ppl := wf v 2 2
  if ppl = 3 ∨ (ppl = 0 ∧ pl = 1) then x else wset x 2 2 ppl

/-- SHAPE after a write (Table 07-3). -/
def State.shapeWrite (s : State) (v : Word) : Word :=
  let old := s.core.shape
  let sel := if wf v 23 2 = 3 then shLsel old else wf v 23 2
  let x := wset (wset (wset old 18 5 (wf v 18 5)) 25 18 (wf v 25 18)) 23 2 sel
  wset x 0 18 (min (wf v 0 18) (s.vlmax sel))

/-- A write of the hart CSR `n` of hart `h`, by a hart at level `pl`: reserved and RO fields keep their values (R137 to
R143). -/
def hartCsrWrite (c : HartCsr) (n : Nat) (v : Word) (pl : Nat) : HartCsr :=
  match n with
  | 0x000 => { c with status := statusWrite c.status v pl }
  | 0x001 => { c with cause := field v 0 16 }
  | 0x002 => { c with epc := field v 2 62 }
  | 0x003 => { c with faddr := v }
  | 0x004 => { c with finfo := field v 32 16 ||| field v 20 9 ||| field v 0 18 }
  | 0x005 => { c with fstride := v }
  | 0x006 => { c with fremain := v }
  | 0x007 => { c with tvec := field v 2 62 }
  | 0x008 => { c with scratch := v }
  | 0x009 => { c with pfx := field v 0 26 }
  | 0x00A => { c with ie := field v 0 7 }
  | 0x010 => { c with flags := field v 0 6 }
  | 0x011 => if 6 ≤ wf v 0 3 then c else { c with rmode := field v 0 3 }
  | 0x028 => { c with waitto := v }
  | 0x02C => { c with tickcmp := v }
  | n =>
    if 0x040 ≤ n ∧ n < 0x044 then { c with psel := Store.set c.psel (n - 0x040) (field v 0 9) }
    else if 0x048 ≤ n ∧ n < 0x04C then { c with pcnt := Store.set c.pcnt (n - 0x048) v }
    else c

/-- A write of a core CSR other than WAYROLE (R137). -/
def State.coreCsrWrite (s : State) (n : Nat) (v : Word) : CoreState :=
  let c := s.core
  match n with
  | 0x012 => { c with shape := s.shapeWrite v }
  | 0x014 => { c with boolt := field v 0 8 }
  | 0x015 => { c with akey := v }
  | 0x016 => { c with akmask := v }
  | 0x017 => { c with scaleg := field v 0 7 }
  | 0x018 => { c with bandsc := field v 0 32 }
  | 0x01B => { c with tshape := field v 32 18 ||| field v 0 18 }
  | 0x01D => { c with mtsel := field v 0 32 }
  | 0x01E => { c with mtstat := wset (wset c.mtstat 32 32 (wf v 32 32)) 0 1 (wf v 0 1) }
  | 0x023 => { c with cid := field v 0 16 }
  | 0x024 => { c with ptbase := field v 12 36 }
  | 0x027 => { c with prefcap := field v 0 16 }
  | n =>
    if 0x044 ≤ n ∧ n < 0x048 then { c with psel := Store.set c.psel (n - 0x040) (field v 0 9) }
    else if 0x04C ≤ n ∧ n < 0x050 then { c with pcnt := Store.set c.pcnt (n - 0x048) v }
    else c

/-- A CSR WRITE to the copy of hart `h` by a hart at level `pl`, other than WAYROLE. -/
def State.csrWrite (s : State) (h : BitVec 1) (n : Nat) (v : Word) (pl : Nat) : State :=
  match n with
  | 0x025 => { s with mgmt := { s.mgmt with fmode := v.truncate 6 } }
  | 0x026 =>
    if s.hostPort || decide (v.toNat % 128 < 36) || decide (84 < v.toNat % 128) then s
    else s.setXratio s.ownIsland (v.toNat % 128)
  | 0x02B => if 13 ≤ wf v 0 4 then s else { s with ctr := { s.ctr with heatk := v.truncate 4 } }
  | n => { s.modCsr h (fun c => hartCsrWrite c n v pl) with core := s.coreCsrWrite n v }

/-! ### Order (R51, R135, R148) -/

/-- Whether OPF, array or tile words of hart `h` have not completed (R51, R135). -/
def State.flagsPending (s : State) (h : BitVec 1) : Bool :=
  (s.hart h).late.any (·.opf) || s.core.queue.any (fun q => q.hart == h) ||
  s.core.mqueue.any (fun q => q.hart == h)

/-- A read by hart `h` of the other hart's FLAGS begins to wait: the words that the other hart has issued before it are
those it waits for (R143). -/
def State.markFlags (s : State) (h : BitVec 1) : State :=
  (s.modHart (other h) (fun y => { y with late := y.late.map (fun e => { e with awaited := e.opf }) })).modHart h
    (fun x => { x with waits := some (.flags s.core.nextSeq) })

/-- Whether words of the other hart that a waiting read of its FLAGS by hart `h` waits for have not completed (R143). -/
def State.awaitsFlags (s : State) (h : BitVec 1) (seq : Nat) : Bool :=
  let k := other h
  (s.hart k).late.any (fun e => e.opf && e.awaited) || s.core.queue.any (fun q => q.hart == k && decide (q.seq < seq)) ||
  s.core.mqueue.any (fun q => q.hart == k && decide (q.seq < seq))

/-- Whether an access to CSR `n` of hart `h` waits (R51, R135, R148, R248): FLAGS for the hart's earlier instructions,
TGRANT for TATTACH and TDETACH.  The other array CSRs change as words are issued, so no queued word has yet to take
them. -/
def State.csrWaits (s : State) (h : BitVec 1) (n : Nat) : Bool :=
  (n == 0x010 && s.flagsPending h) ||
  (n == 0x01C && s.core.mqueue.any (fun q => q.w.op == .tattach || q.w.op == .tdetach))

/-! ### The words of major 18 -/

/-- CSRR (R147). -/
def execCsrr (d : BitVec 7) (c : BitVec 10) (s : State) : Result :=
  hartOnly s (fun h =>
    match csrName c.toNat with
    | none => s.trap h 0x01
    | some (n, w) =>
      let k := if w then other h else h
      if (csrLevels n w).1 < (s.hart h).pl then s.trap h 0x02
      else if !(s.hart h).ready [d.toNat] then .next (s.stall h 0x08)
      else
        let read : Result := .next ((s.writeReg h d.toNat (s.csrRead k n)).retire h)
        match w && n == 0x010, (s.hart h).waits with
        | true, some (.flags seq) => if s.awaitsFlags h seq then .next s else read
        | true, _ => if s.flagsPending k then .next (s.markFlags h) else read
        | false, _ => if s.csrWaits k n then .next s else read)

/-- Whether hart `h` may write an owner CSR (R10, R94): it holds ownership; or it writes SHAPE at level 1 or 0 while the
control hart is parked or halted.  On a host-port core ownership governs WAYROLE alone. -/
def State.mayOwn (s : State) (h : BitVec 1) (n : Nat) : Bool :=
  (s.hart h).ao || (s.hostPort && n != 0x019) ||
  (n == 0x012 && decide ((s.hart h).pl ≤ 1) && (s.hart (other h)).ao && (s.hart (other h)).stopped)

/-- CSRW, CSRS and CSRC (R94, R137, R143, R147, R148, R232): `f` gives the new value from the old one and ga. -/
def csrOp (d a : BitVec 7) (c : BitVec 10) (f : Word → Word → Word) (s : State) : Result :=
  hartOnly s (fun h =>
    let x := s.hart h
    match csrName c.toNat with
    | none => s.trap h 0x01
    | some (n, w) =>
      let k := if w then other h else h
      match (csrLevels n w).2 with
      | none => s.trap h 0x01
      | some l =>
        if x.mb && ownerCsr n then s.trap h 0x01
        else if decide (l < x.pl) || (w && !(s.hart k).stopped) then s.trap h 0x02
        else if ownerCsr n && !s.mayOwn h n then s.trap h 0x0A
        else if !x.ready [d.toNat, a.toNat] then .next (s.stall h 0x08)
        else if s.csrWaits k n then .next s
        else
          let old := s.csrRead k n
          let v := f old (x.reg a.toNat)
          if n = 0x019 then
            s.arole h (bits v.toNat 0 32) (bits v.toNat 32 32) (fun _ s =>
              .next ((s.writeReg h d.toNat old).retire h))
          else .next (((s.retire h).csrWrite k n v x.pl).writeReg h d.toNat old))

/-- CSRW (R147). -/
def execCsrw (d a : BitVec 7) (c : BitVec 10) (s : State) : Result := csrOp d a c (fun _ x => x) s
/-- CSRS (R147). -/
def execCsrs (d a : BitVec 7) (c : BitVec 10) (s : State) : Result := csrOp d a c (fun old x => old ||| x) s
/-- CSRC (R147). -/
def execCsrc (d a : BitVec 7) (c : BitVec 10) (s : State) : Result := csrOp d a c (fun old x => old &&& ~~~x) s

end Sys2Proof.Machine
end

