-- ==== Sys2Proof/Machine/Engine.lean ====
section
/-! DEFINITION. Accesses of the engines: copy transfers, streams and spill writes (R287, R310, R317, R396, R401, R440). -/

namespace Sys2Proof.Machine

/-- A value read at the home, with the dirty bytes of the issuing core's sector over it (Table 13-1). -/
def State.dirtyOver (s : State) (name n v : Nat) : Nat :=
  match s.findLine (name / 256) with
  | none => v
  | some l =>
    let x := Map.get Sector.empty l.sectors (name / 64 % 4)
    (List.range n).foldl (fun v i =>
      if bit x.dirty.toNat (name % 64 + i) then setBits v (8 * i) 8 (x.load (name % 64 + i) 1) else v) v

/-- A READ OF AN ENGINE of n bytes within one sector, at its home (R287); a stream sees no dirty bytes of the core
(R426). -/
def State.engineRead (s : State) (kind cid name n : Nat) : Option Nat × State :=
  match s.homeRead kind cid name n with
  | (some v, s1) => (some (if kind = 3 then v else s.dirtyOver name n v), s1)
  | (none, s1) => (none, s1)

/-- Whether the bytes that the core holds of a sector lie behind a layer bus that stalls: in an upper way (R277). -/
def State.lineHeld (s : State) (name : Nat) : Bool :=
  (s.findLine (name / 256)).any (fun l =>
    let x := Map.get Sector.empty l.sectors (name / 64 % 4)
    s.wayHeld l.way && (x.valid || x.dirty != 0))

/-- What an engine takes from an upper cache way crosses the layer bus (Table 12-2). -/
def State.crossLine (s : State) (name : Nat) : State :=
  match s.findLine (name / 256) with
  | none => s
  | some l =>
    let x := Map.get Sector.empty l.sectors (name / 64 % 4)
    if x.valid || x.dirty != 0 then s.crossWay l.way else s

/-- A read of the copy engine through the core cache: the home value with the core's dirty bytes over it (R287).  Where the
sector is not yet valid it is filled, and its superblock allocated (R273). -/
def State.cacheFetch (s : State) (kind : Nat) (cid : BitVec 16) (name n vpn : Nat) : LoadResult × State :=
  let k := name / 64 % 4
  let x := ((s.findLine (name / 256)).map (fun l => Map.get Sector.empty l.sectors k)).getD Sector.empty
  if x.valid then
    match s.engineRead kind cid.toNat name n with
    | (some v, s) => (.ok v, s.crossLine name)
    | (none, s) => (.error, s)
  else match s.homeRead kind cid.toNat (name - name % 64) 64 (.slice true 0) with
    | (none, s) => (.error, s)
    | (some v, s1) =>
      match s1.allocate name cid vpn with
      | none => (.wait, s)
      | some (l, s2) =>
        if s.wayHeld l.way then (.wait, s)
        else
          let y := (Map.get Sector.empty l.sectors k).fill v
          (.ok (y.load (name % 64) n), (s2.crossWay l.way).putLine { l with sectors := Map.set Sector.empty l.sectors k y })

/-- What an access of an engine to an address comes to. -/
inductive EngineResult where
  | ok (v : Nat) (s : State)
  /-- an error response (R317) -/
  | error (s : State)
  /-- a translation fault or a compression overflow (R349, R440) -/
  | fault (cause : Nat) (s : State)
  /-- the access is to be made again -/
  | wait (s : State)

/-- Where an engine access is translated. -/
inductive Route where
  /-- in the core's TLB, a miss waiting for its walk (R398, R399) -/
  | core
  /-- in the TLB of a fabric (R426) -/
  | fabric (f : Nat)

/-- Who an engine access is made for: its SOURCE code, and the root, CID and level it translates with (R396, R401). -/
structure EngineId where
  kind : Nat
  ptbase : Word
  cid : BitVec 16
  level : BitVec 2
  route : Route := .core

/-- The translation of an engine access (R401). -/
def State.engineTrans (s : State) (e : EngineId) (acc : Acc) (va : Word) : TransResult × State :=
  match e.route with
  | .core => s.translateWith none e.ptbase e.cid e.level.toNat acc va
  | .fabric f => s.translateIn f e.ptbase e.cid e.level.toNat acc va

/-- The state in which a step of an engine waits, whose part that has been made is made again: only what its lookups have
done stays (R399). -/
def State.waitsAs (s s1 : State) : State :=
  let mmu := { s.mmu with tlb := s1.mmu.tlb, walker := s1.mmu.walker, misses := s1.mmu.misses }
  let s2 := { s with mmu := mmu }
  if s1.mmu.misses = s.mmu.misses then s2 else s2.countMiss none

/-- The host bus address behind an MMIO address that a copy transfer may reach (R480). -/
def EngineId.aperture (e : EngineId) (pa : Nat) : Option Nat :=
  match windowOf pa with
  | .hostAperture o => if e.kind = 2 then some o else none
  | _ => none

/-- A load of an engine: n bytes at a virtual address, within one sector. -/
def State.engineLoad (s : State) (e : EngineId) (va : Word) (n : Nat) : EngineResult :=
  match s.engineTrans e .read va with
  | (.wait, s) => .wait s
  | (.fault c _, s) => .fault c s
  | (.ok t, s) =>
    if t.mmio then
      match e.aperture t.name with
      | some o => let (k, s) := s.draw; .ok ((Config.hostWord k o).toNat % 256 ^ n) s
      | none => .error (s.mmioViolation e.kind t.name e.cid)
    else if e.kind ≠ 3 && s.lineHeld t.name then .wait s
    else if e.kind = 2 ∧ t.ms = false ∧ s.cacheWays.isEmpty = false then
      match s.cacheFetch e.kind e.cid t.name n t.vpn with
      | (.ok v, s) => .ok v s
      | (.error, s) => .error s
      | (.wait, s) => .wait s
    else match s.engineRead e.kind e.cid.toNat t.name n with
      | (some v, s) => .ok v (if e.kind = 3 then s else s.crossLine t.name)
      | (none, s) => .error s

/-- A store of an engine: n bits from bit `shift` of the byte at a virtual address, within one sector; the core first
gives up its copy of the sector (R287). -/
def State.engineStore (s : State) (e : EngineId) (va : Word) (shift n v : Nat) : EngineResult :=
  match s.engineTrans e .write va with
  | (.wait, s) => .wait s
  | (.fault c _, s) => .fault c s
  | (.ok t, s) =>
    if t.mmio then
      match e.aperture t.name with
      | some o =>
        let b := (shift + n + 7) / 8
        let w := setBits (Memory.load s.host.hostMem o b) shift n v
        .ok 0 { s with host := { s.host with hostMem := Memory.store s.host.hostMem o b w } }
      | none => .error (s.mmioViolation e.kind t.name e.cid)
    else match s.evictSector t.name with
      | none => .wait s
      | some s =>
        let b := (shift + n + 7) / 8
        let r := s.homeMerge e.kind e.cid.toNat t.name b (fun old => setBits old shift n v)
        match r.2.1 with
        | .done => .ok 0 r.2.2
        | .error => .error r.2.2
        | .overflow => .fault 0x10 r.2.2
        | .full => .wait s

/-- A load of n bytes of a space: global through translation, local scratch or layer space at an offset within its extent
(R271). -/
def State.spaceLoad (s : State) (e : EngineId) (space : Nat) (a : Word) (n : Nat) : EngineResult :=
  if space = 0 then s.engineLoad e a n
  else if !s.within (space == 2) a.toNat n then .fault 0x07 s
  else .ok (s.scratchLoad (space == 2) a.toNat n) (s.slotAccess (space == 2) a.toNat)

/-- A store of n bits from bit `shift` of a byte of a space. -/
def State.spaceStore (s : State) (e : EngineId) (space : Nat) (a : Word) (shift n v : Nat) : EngineResult :=
  if space = 0 then s.engineStore e a shift n v
  else
    let b := (shift + n + 7) / 8
    if !s.within (space == 2) a.toNat b then .fault 0x07 s
    else .ok 0 ((s.slotAccess (space == 2) a.toNat).scratchStore (space == 2) a.toNat b (setBits (s.scratchLoad (space == 2) a.toNat b) shift n v))

/-- A fold over the parts of an element (R30) that stops at the first answer that is not ok. -/
def overParts (f : Word × Nat × Nat × Nat → Nat → State → EngineResult) :
    List (Word × Nat × Nat × Nat) → Nat → State → EngineResult
  | [], v, s => .ok v s
  | p :: ps, v, s =>
    match f p v s with
    | .ok v s => overParts f ps v s
    | r => r

/-- Element `i` of type `t` of the packed elements from byte `a`: its parts as (address, bit, first bit, bits). -/
def elemParts (a : Word) (t i : Nat) : List (Word × Nat × Nat × Nat) :=
  (packed t i).map (fun p => (a + word p.1, p.2.1, p.2.2.1, p.2.2.2))

/-- Loads an element. -/
def State.loadElem (s : State) (e : EngineId) (space t : Nat) (a : Word) (i : Nat) : EngineResult :=
  overParts (fun p v s =>
    match s.spaceLoad e space p.1 ((p.2.1 + p.2.2.2 + 7) / 8) with
    | .ok x s => .ok (v + x / 2 ^ p.2.1 % 2 ^ p.2.2.2 * 2 ^ p.2.2.1) s
    | r => r) (elemParts a t i) 0 s

/-- Stores an element, whole or not at all (R350): one whose two bytes lie in one sector is one access, and of any other
the second byte is tried before the first is written. -/
def State.storeElem (s : State) (e : EngineId) (space t : Nat) (a : Word) (i x : Nat) : EngineResult :=
  match elemParts a t i with
  | [p, q] =>
    if p.1.toNat % 64 = 63 then
      match s.spaceStore e space q.1 q.2.1 q.2.2.2 (x / 2 ^ q.2.2.1) with
      | .ok _ _ =>
        match s.spaceStore e space p.1 p.2.1 p.2.2.2 (x / 2 ^ p.2.2.1) with
        | .ok _ s => s.spaceStore e space q.1 q.2.1 q.2.2.2 (x / 2 ^ q.2.2.1)
        | r => r
      | r => r
    else s.spaceStore e space p.1 p.2.1 (p.2.2.2 + q.2.2.2) (x / 2 ^ p.2.2.1)
  | ps => overParts (fun p _ s => s.spaceStore e space p.1 p.2.1 p.2.2.2 (x / 2 ^ p.2.2.1)) ps 0 s

/-! ### When a transfer or stream begins (R310, R448) -/

/-- Whether two ranges share a byte. -/
def Range.meets (a b : Range) : Bool := a.space == b.space && decide (a.lo < b.hi) && decide (b.lo < a.hi)

/-- Whether an earlier transfer or stream holds a range back: a load overlaps its destination, or a store any of it. -/
def State.earlierOver (s : State) (order : Nat) (cid : BitVec 16) (r : Range) : Bool :=
  let hit (o : Nat) (c : BitVec 16) (rs : List Range) : Bool :=
    decide (o < order) && rs.any (fun q => q.meets r && (r.space != 0 || c == cid) && (r.dst || q.dst))
  s.copy.slots.any (fun e =>
    match e.2 with
    | some c => hit c.order c.cid c.ranges
    | none => false) ||
  s.stream.slots.any (fun e =>
    match e.2 with
    | some c => hit c.order c.cid c.ranges
    | none => false)

/-- Whether an earlier access of the hart to a range is still to be performed (R310). -/
def State.accessOver (s : State) (h : BitVec 1) (order : Nat) (r : Range) : Bool :=
  let inside (a n : Nat) : Bool := decide (r.lo < a + n) && decide ((a : Int) < r.hi)
  s.core.queue.any (fun q => q.hart == h && decide (q.seq < order) && q.stage == .waiting &&
    q.w.op.space == some r.space && q.addrs.any (fun a => inside a.va.toNat 8)) ||
  (r.space == 0 && (s.home.posted.any (fun p => p.hart == h && !p.done && inside p.va.toNat p.n) ||
    s.home.vstr.any (fun v => v.hart == h && inside v.va.toNat 4)))

/-- Whether a transfer or stream must still wait to begin. -/
def State.startHeld (s : State) (h : BitVec 1) (order : Nat) (cid : BitVec 16) (rs : List Range) : Bool :=
  rs.any (fun r => s.earlierOver order cid r || s.accessOver h order r)

/-- Draws the next place in the order of issue of the core. -/
def State.nextOrder (s : State) : Nat × State :=
  (s.core.nextSeq, { s with core := { s.core with nextSeq := s.core.nextSeq + 1 } })

/-! ### Saturated positions (R341) -/

/-- Whether a result of `convert` or of a rounding to type `td` was set to a largest finite value or clamped to an end of
an integer range: `nan` tells that the value was NaN, `f` its flags. -/
def saturated (td : Nat) (nan : Bool) (r : Nat × BitVec 6) : Bool :=
  let f := r.2
  if isInt td then !nan && (f &&& (flNV ||| flSAT) != 0)
  else if td = 0x10 ∨ td = 0x11 then f &&& flOF != 0 || nan
  else if td = 0x17 then f &&& flOF != 0
  else !nan && f &&& flOF != 0 &&
    (match valF (ffmt td) r.1 with
     | .fin _ _ _ => true
     | _ => false)

end Sys2Proof.Machine
end

