-- ==== Sys2Proof/Machine/Copy.lean ====
section
/-! DEFINITION. The copy queue: the words of major 1C, and the steps of the copy engine (chapter 15). -/

namespace Sys2Proof.Machine

/-- The state with a slot of the copy engine replaced. -/
def State.setCopy (s : State) (k : Nat) (c : Option CopySlot) : State :=
  { s with copy := { s.copy with slots := Map.set none s.copy.slots k c } }

/-- A slot of the copy engine. -/
def State.copySlot (s : State) (k : Nat) : Option CopySlot := Map.get none s.copy.slots k

/-- A ticket (R337). -/
def ticketOf (seq : BitVec 26) (slot : Nat) : BitVec 32 := BitVec.ofNat 32 (seq.toNat * 64 + slot % 64)

/-- The live transfer that a ticket names, with its slot (R337). -/
def State.liveTicket (s : State) (t : Word) : Option (Nat × CopySlot) :=
  let k := t.toNat % 64
  match s.copySlot k with
  | some c => if (ticketOf c.seq k).zeroExtend 64 = t then some (k, c) else none
  | none => none

/-! ### CPY (R343, R353) -/

/-- The block with its rounding resolved: 110 takes RMODE (R339, R351). -/
def CopyCmd.resolved (c : CopyCmd) (rmode : Nat) : CopyCmd :=
  { c with ctl := BitVec.ofNat 32 (setBits c.ctl.toNat 16 3 (if c.rnd = 6 then rmode else c.rnd)) }

/-- The planned end of the latest earlier transfer still incomplete, else 0 (R347). -/
def State.latestPlan (s : State) : Nat :=
  (s.copy.slots.foldl (fun (a : Nat × Nat) e =>
    match e.2 with
    | some c => if a.1 ≤ c.order then (c.order, c.planned) else a
    | none => a) (0, 0)).2

/-- The engine accepts a transfer (R353): the lowest free slot `k`. -/
def State.acceptCopy (s : State) (h : BitVec 1) (c : CopyCmd) (block k : Nat) : Nat × State :=
  let (order, s) := s.nextOrder
  let c := c.resolved (s.hart h).csr.rmode.toNat
  let (plan, p) := c.promise s.ownXratio s.ctr.cycle.toNat s.latestPlan (c.bytesFrom 0)
  let slot : CopySlot := {
    seq := s.copy.nextSeq, cmd := c, ranges := c.ranges, block := block, cid := s.cid16,
    level := BitVec.ofNat 2 (s.hart h).pl, hart := h, stage := .waiting, cancel := false, progress := 0, nsat := 0,
    status := 0, promise := p, planned := plan, resumed := false, ended := false, paused := false, order := order }
  let t := ticketOf s.copy.nextSeq k
  let s := { s with copy := { s.copy with nextSeq := s.copy.nextSeq + 1 } }
  (p, (s.setCopy k (some slot)).modCsr h (fun x => { x with cpyt := t.zeroExtend 64 }))

/-- CPY (R343, R353): the checks of Table 15-4 in order, then a free slot, then acceptance; behind the hart's scalar scratch
stores, its command block among them (R289, R308). -/
def execCpy (d a : BitVec 7) (s : State) : Result :=
  issue [d, a] s (fun h => s.withStores h (fun s =>
    let v := (s.hart h).reg a.toNat
    let o := v.toNat
    let c := s.readCmd o
    if o % 64 ≠ 0 then s.scalarFault h 0x03 v 6 false 64
    else if !s.within false o 64 then s.scalarFault h 0x07 v 6 false 64
    else if s.interlocked 1 o (o + 64) false then .next (s.stall h 0x06)
    else if s.arrayTouches 1 o 64 then .next s
    else if c.op = 3 ∧ (s.hart h).pl = 2 then s.trap h 0x02
    else match c.shapeDetail with
      | some n => s.trapDetail h 0x0B n
      | none =>
        match c.srcRange.bind s.rangeOutside with
        | some x => s.scalarFault h 0x07 (wordOfInt x) 6 false (width c.stype / 8)
        | none =>
          match s.rangeOutside c.dstRange with
          | some x => s.scalarFault h 0x07 (wordOfInt x) 6 true (width c.dtype / 8)
          | none =>
            if c.overlaps then s.trapDetail h 0x0B 5
            else match (List.range 64).find? (fun k => (s.copySlot k).isNone) with
              | none => .next s
              | some k =>
                let (p, s) := s.acceptCopy h c o k
                .next ((s.lateReg h d.toNat (word p) 0).retire h)))

/-! ### CPYW, CPYQ, CPYX (R354 to R356) -/

/-- The tick at which a CPYW of a live transfer is missed: after a restore not before the replacement promise (R351). -/
def CopySlot.deadline (c : CopySlot) (tick : Word) : Nat := if c.resumed then max tick.toNat c.replacement else tick.toNat

/-- Whether no chunk is to come. -/
def CopySlot.over (c : CopySlot) : Bool := c.cancel || c.ended || decide (c.cmd.chunks ≤ c.progress)

/-- Whether a CPYW of a live transfer is missed: not while its context is suspended (R110), and at the tick itself not where
the transfer only has to complete (R469). -/
def State.late (s : State) (c : CopySlot) (tick : Word) : Bool :=
  let now := s.ctr.cycle.toNat
  (decide (c.deadline tick < now) || (c.deadline tick == now && !c.over)) && !c.paused

/-- Promise missed 0x0C at a CPYW of the transfer in slot `k` (R354), which completes at a later tick (R469). -/
def State.missed (s : State) (h : BitVec 1) (t : Word) (k : Nat) (c : CopySlot) : Result :=
  let s := s.setCopy k (some { c with missedAt := some s.ctr.cycle.toNat })
  ((s.modCsr h (fun c => { c with faddr := t })).count h 0x07 1).trap h 0x0C

/-- CPYW (R354). -/
def execCpyw (a b : BitVec 7) (s : State) : Result :=
  issue [a, b] s (fun h =>
    let tick := (s.hart h).reg a.toNat
    let t := (s.hart h).reg b.toNat
    match s.liveTicket t with
    | none => .next (s.retire h)
    | some (k, c) =>
      if s.late c tick then s.missed h t k c
      else .next (s.sleepIn h (.cpyw tick (t.truncate 32))))

/-- PROMISE_MISSED (R110, R354): CYCLE reaches the tick of a sleeping CPYW with the ticket incomplete. -/
def execPromiseMissed (h : BitVec 1) (s : State) : Result :=
  match (s.hart h).run with
  | .asleep (.cpyw tick t) =>
    match s.liveTicket (t.zeroExtend 64) with
    | none => .next s
    | some (k, c) => if s.late c tick then s.missed h (t.zeroExtend 64) k c else .next s
  | _ => .next s

/-- STATE of Table 15-9. -/
def CopySlot.state (c : CopySlot) : Nat :=
  if c.cancel then 4
  else match c.stage with
    | .waiting => 1
    | .running => 2
    | .stalled _ => 3

/-- CPYQ (R355). -/
def execCpyq (d a : BitVec 7) (s : State) : Result :=
  issue [d, a] s (fun h =>
    let v := match s.liveTicket ((s.hart h).reg a.toNat) with
      | some (_, c) => word (c.state * 2 ^ 60 + c.promise % 2 ^ 56)
      | none => 0
    .next ((s.lateReg h d.toNat v 0).retire h))

/-- CPYX (R356). -/
def execCpyx (a : BitVec 7) (s : State) : Result :=
  issue [a] s (fun h =>
    match s.liveTicket ((s.hart h).reg a.toNat) with
    | some (k, c) => .next ((s.setCopy k (some { c with cancel := true })).retire h)
    | none => .next (s.retire h))

/-! ### One position (R340, R341) -/

/-- A run over the positions of a chunk. -/
structure CopyRun where
  s : State
  nsat : Nat
  bus : Bool
  /-- cause, whether the destination faulted, row, column and address -/
  fault : Option (Nat × Bool × Nat × Nat × Word)
  wait : Bool

/-- The engine of a transfer as accesses know it. -/
def State.copyId (s : State) (c : CopySlot) : EngineId :=
  { kind := 2, ptbase := s.core.ptbase, cid := c.cid, level := c.level }

/-- First byte of source row r. -/
def CopyCmd.srcRow (c : CopyCmd) (r : Nat) : Word := c.src + word r * c.sstride

/-- First byte of the destination row of position (r, col), and the element's place in it. -/
def CopyCmd.dstRow (c : CopyCmd) (r col : Nat) : Word × Nat :=
  if c.trans then (c.dst + word col * c.dstride, r) else (c.dst + word r * c.dstride, col)

/-- The address of the first byte of an element. -/
def elemAddr (a : Word) (t i : Nat) : Word := ((elemParts a t i).head?.map (·.1)).getD a

/-- The destination pattern of a valid position from its source pattern, and whether it was saturated (R341). -/
def CopyCmd.value (c : CopyCmd) (b : Nat) : Nat × Bool :=
  if c.op = 0 then (b, false)
  else
    let v : Num := if c.scl then (Num.mul (rdnOf c.mode) (val c.stype b) (val 0x16 c.scale.toNat)).1
      else valSigned (rdnOf c.mode) c.stype b
    let r :=
      if !isInt c.dtype then roundTyped c.dtype c.mode 0 c.sat v
      else if !isInt c.stype || c.scl then toint c.dtype c.mode 0 v
      else if c.sat then satInt c.dtype (intOf c.stype b)
      else (wrapBits (width c.dtype) (intOf c.stype b), 0)
    (r.1, saturated c.dtype (v == .nan) r)

/-- The pattern that position (r, col) writes: zero fill, FILL, or its source element's. -/
def CopyRun.source (x : CopyRun) (e : EngineId) (c : CopyCmd) (r col : Nat) : EngineResult :=
  if c.op = 2 then .ok (c.fill.toNat % 2 ^ width c.dtype) x.s
  else if r < c.vr ∧ col < c.vc then x.s.loadElem e c.sspace c.stype (c.srcRow r) col
  else .ok 0 x.s

/-- One position. -/
def CopyRun.step (e : EngineId) (c : CopyCmd) (p : Nat) (x : CopyRun) : CopyRun :=
  if x.wait || x.fault.isSome then x
  else
    let r := p / c.cols
    let col := p % c.cols
    let valid := c.op != 2 && decide (r < c.vr) && decide (col < c.vc)
    match x.source e c r col with
    | .wait s => { x with s := s, wait := true }
    | .error s => { x with s := s, bus := true }
    | .fault k s => { x with s := s, fault := some (k, false, r, col, elemAddr (c.srcRow r) c.stype col) }
    | .ok b s =>
      let v := if valid then c.value b else (b, false)
      let (row, i) := c.dstRow r col
      match s.storeElem e c.dspace c.dtype row i v.1 with
      | .wait s => { x with s := s, wait := true }
      | .error s => { x with s := s, bus := true }
      | .fault k s => { x with s := s, fault := some (k, true, r, col, elemAddr row c.dtype i) }
      | .ok _ s => { x with s := s, nsat := x.nsat + b2n v.2 }

/-- The fault record of a position (R405). -/
def CopyCmd.deposit (c : CopyCmd) (tag cause : Nat) (dst : Bool) (r col : Nat) (a : Word) (cid : BitVec 16) : Deposit :=
  let w := if dst then width c.dtype else width c.stype
  let (row, stride, remain, n) : Word × Word × Nat × Nat :=
    if !dst then (c.srcRow r, c.sstride, c.rows - r, c.cols)
    else if c.trans then ((c.dstRow r col).1, c.dstride, c.cols - col, c.rows)
    else ((c.dstRow r col).1, c.dstride, c.rows - r, c.cols)
  { addr := a, stride := stride, remain := remain, elen := ((row + word (rowBytes n w)) - a).toNat, tag := tag,
    cause := cause, source := 2, wr := dst, cid := cid }

/-! ### OP recode (R342, R436, R437) -/

/-- The 4,096 bytes of a page at a home address, with the core's dirty bytes over them, sector by sector; none where the
home answers with an error. -/
def State.readPage (s : State) (e : EngineId) (name : Nat) : Nat → Option (List (Nat × Byte)) × State
  | 0 => (some [], s)
  | k + 1 =>
    match s.readPage e name k with
    | (none, s) => (none, s)
    | (some l, s) =>
      match s.engineRead e.kind e.cid.toNat (name + 64 * k) 64 with
      | (none, s) => (none, s)
      | (some v, s) => (some (l ++ (bytesOf v 64).map (fun b => (64 * k + b.1, b.2))), s)

/-- Gives up the core's copies of the sectors of a page. -/
def State.evictPage (s : State) (name : Nat) : Option State :=
  (List.range 64).foldl (fun a k => a.bind (fun s => s.evictSector (name + 64 * k))) (some s)

/-- The frame header of a page's bytes under CMP `cmp`, coded with the newest table of a codec (R435, R436). -/
def codedFrame (c : Codec) (base : Nat) (cmp : BitVec 2) (m : Memory) : Frame :=
  let sizes : Store 3 := (List.range 16).foldl (fun st k =>
    Store.set st k (BitVec.ofNat 3 (sizeCode c c.newest.toNat m (256 * k)))) []
  let gens : Store 2 := (List.range 16).foldl (fun st k => Store.set st k c.newest) []
  { base := base, cmp := cmp, moved := false, size := sizes, gen := gens }

/-- Takes the superblocks of a frame out of the generation counts of its codec, and its held superblocks out of the
overflow buffer (R434, R440). -/
def State.uncount (s : State) (f : Nat) : State :=
  match Map.get none s.home.frames f with
  | none => s
  | some fr =>
    if fr.moved then s
    else
      let ci := unitCodec (unitOf (f * 1024))
      let c := s.codec ci
      let counts := (List.range 16).foldl (fun (st : Store 64) k =>
        let g := (Store.get fr.gen k).toNat
        Store.set st g (Store.get st g - 1)) c.counts
      s.setCodec ci { c with counts := counts, overflow := c.overflow.filter (fun x => x.frame != f) }

/-- The superblocks of a page are written at the memory of a home address: each is an access that the heat table counts, and
that a generator may choose as a sample of its codec (R434, R454, R455). -/
def State.superblockWrites (s : State) (dst : Nat) : State :=
  let f := (frameOf dst).1
  let ci := unitCodec (unitOf (f * 1024))
  (List.range 16).foldl (fun s k =>
    let (sampled, s) := s.heat (dst + 256 * k)
    match Map.get none s.home.frames f with
    | none => s
    | some fr => s.setCodec ci (s.sawWrite (s.codec ci) (2 ^ 48 + f * 4096 + 256 * k) (Store.get fr.size k).toNat sampled)) s

/-- Whether frame `f` is one of far memory that has no entry in its port's far-frame table, and the table of 262,144 entries
is full (R436). -/
def State.farTableFull (s : State) (f : Nat) : Bool :=
  let far (g : Nat) : Bool := regionOf (g * 1024) == .far || regionOf (g * 1024) == .farPinned
  far f && (Map.get none s.home.frames f).isNone &&
    decide (262144 ≤ (s.home.frames.filter (fun e => far e.1 && unitOf (e.1 * 1024) == unitOf (f * 1024))).length)

/-- Writes a page in the stored form of CMP code `cmp` to the frame behind a home address, and marks the old frame moved;
none where the coded form does not fit (R342), or, DESIGN CHOICE (log entry 52), finds the far-frame table full. -/
def State.writePage (s : State) (src dst : Nat) (cmp : BitVec 2) (bytes : List (Nat × Byte)) : Option State :=
  let f := (frameOf dst).1
  let ci := unitCodec (unitOf (f * 1024))
  let fr := codedFrame (s.codec ci) f cmp (writeBytes [] 0 bytes)
  if cmp ≠ 0 ∧ (16 * cmp.toNat - 1 < fr.sectors 16 0 ∨ s.farTableFull f = true) then none
  else
    let old := (frameOf src).1
    let s := (s.uncount old).uncount f
    let frames := match Map.get none s.home.frames old with
      | some g => Map.set none s.home.frames old (some { g with moved := true })
      | none => s.home.frames
    let s := { s with home := { s.home with
      frames := Map.set none frames f (if cmp = 0 then none else some fr) } }
    let s := if cmp = 0 then s
      else
        let c := s.codec ci
        let g := c.newest.toNat
        s.setCodec ci { c with counts := Store.set c.counts g (Store.get c.counts g + 16) }
    let s := s.enterMem dst (writeBytes s.home.mem (s.homeKey dst) bytes) (bytes.map (·.1))
    some ((s.superblockWrites dst).afterWrite dst (List.range 4096))

/-- One page of OP recode: row r. -/
def State.recodePage (s : State) (e : EngineId) (c : CopyCmd) (r : Nat) : CopyRun × Bool :=
  let run (s : State) : CopyRun := { s := s, nsat := 0, bus := false, fault := none, wait := false }
  let a := c.srcRow r
  let b := (c.dstRow r 0).1
  match s.engineTrans e .read a with
  | (.wait, s) => ({ run s with wait := true }, true)
  | (.fault k _, s) => ({ run s with fault := some (k, false, r, 0, a) }, true)
  | (.ok t, s) =>
    match s.engineTrans e .write b with
    | (.wait, s) => ({ run s with wait := true }, true)
    | (.fault k _, s) => ({ run s with fault := some (k, true, r, 0, b) }, true)
    | (.ok u, s) =>
      if t.mmio then ({ run (s.mmioViolation e.kind t.name e.cid) with bus := true }, true)
      else if u.mmio then ({ run (s.mmioViolation e.kind u.name e.cid) with bus := true }, true)
      else if (List.range 64).any (fun k => s.lineHeld (t.name + 64 * k)) then ({ run s with wait := true }, true)
      else match s.readPage e t.name 64 with
        | (none, s) => ({ run s with bus := true }, true)
        | (some l, s) =>
          match s.homeError u.name with
          | some x => ({ run (s.logError e.kind u.name e.cid.toNat x) with bus := true }, true)
          | none =>
            match s.evictPage u.name with
            | none => ({ run s with wait := true }, true)
            | some s1 =>
              match s1.writePage t.name u.name (c.fill.truncate 2) l with
              | some s2 => (run s2, true)
              | none => (run s, false)

/-! ### Chunks and completion (R345, R346, R349, R350) -/

/-- The positions of a transfer's next chunk. -/
def State.runChunk (s : State) (c : CopySlot) : CopyRun :=
  loop (CopyRun.step (s.copyId c) c.cmd) (c.progress * c.cmd.perChunk)
    (min c.cmd.perChunk (c.cmd.rows * c.cmd.cols - c.progress * c.cmd.perChunk))
    { s := s, nsat := 0, bus := false, fault := none, wait := false }

/-- The 128-byte blocks of layer space that positions from `p` on, `n` of them, read and write: true for the destination's. -/
def CopyCmd.layerBlocks (c : CopyCmd) (p n : Nat) : List (Bool × Nat) :=
  (List.range n).flatMap (fun i =>
    let r := (p + i) / c.cols
    let col := (p + i) % c.cols
    let (row, j) := c.dstRow r col
    let block (a : Word) (t k : Nat) : List Nat := (elemParts a t k).map (fun x => x.1.toNat / 128)
    (if c.sspace = 2 ∧ r < c.vr ∧ col < c.vc then (block (c.srcRow r) c.stype col).map (fun b => (false, b)) else []) ++
    (if c.dspace = 2 then (block row c.dtype j).map (fun b => (true, b)) else []))

/-- The beats that a chunk of `n` positions from `p` on adds to its transfer's: one for each new block (R276). -/
def CopyCmd.newBeats (c : CopyCmd) (p n : Nat) : Nat :=
  if c.sspace = 2 ∨ c.dspace = 2 then
    ((c.layerBlocks p n).eraseDups.filter (fun b => !(c.layerBlocks 0 p).contains b)).length
  else 0

/-- The positions of the chunk that a transfer is at: the first, and how many. -/
def CopySlot.span (c : CopySlot) : Nat × Nat :=
  let p := c.progress * c.cmd.perChunk
  (p, min c.cmd.perChunk (c.cmd.rows * c.cmd.cols - p))

/-- COPY_CHUNK (R345, R349): the transfer in slot k does its next chunk; a fault stalls it on a record. -/
def execCopyChunk (k : BitVec 6) (s : State) : Result :=
  match s.copySlot k.toNat with
  | none => .next s
  | some c =>
    let held : Bool := match c.stage with
      | .waiting => s.startHeld c.hart c.order c.cid c.ranges
      | .running => false
      | .stalled _ => true
    if c.paused || c.over || held || s.behindRole c.order || (c.ranges.any (fun r => r.space == 2) && s.layerHeld) then .next s
    else
      let (x, fits) := if c.cmd.op = 3 then s.recodePage (s.copyId c) c.cmd c.progress else (s.runChunk c, true)
      if x.wait then .next (s.waitsAs x.s)
      else match x.fault with
        | some (cause, dst, r, col, a) =>
          if !x.s.canDeposit then .next s
          else
            let tag := (ticketOf c.seq k.toNat).toNat
            let (q, s1) := x.s.deposit (c.cmd.deposit tag cause dst r col a c.cid)
            .next (s1.setCopy k.toNat (some { c with stage := .stalled q, attempt := max c.attempt x.nsat }))
        | none =>
          let c1 := { c with stage := .running, progress := if fits then c.progress + 1 else c.progress,
                             nsat := min (c.nsat + x.nsat) (2 ^ 32 - 1), attempt := 0,
                             status := if x.bus then 2 else c.status }
          let s1 := if c.cmd.op = 3 then x.s else x.s.beats (c.cmd.newBeats c.span.1 c.span.2)
          .next (s1.setCopy k.toNat (some (if fits then c1 else { c1 with ended := true, status := 4 })))

/-- A CPYW that sleeps on a ticket finishes (R354). -/
def State.finishCpyw (s : State) (t : BitVec 32) : State :=
  ([0, 1] : List (BitVec 1)).foldl (fun (s : State) (h : BitVec 1) =>
    match (s.hart h).run with
    | .asleep (.cpyw _ u) => if u = t then s.retire h else s
    | _ => s) s

/-- COPY_COMPLETE (R346): RESULT is written, then the slot and its interlock entry are freed. -/
def execCopyComplete (k : BitVec 6) (s : State) : Result :=
  match s.copySlot k.toNat with
  | none => .next s
  | some c =>
    if c.paused || !c.over || c.missedAt == some s.ctr.cycle.toNat then .next s
    else
      let status := if c.cancel then 1 else c.status.toNat
      let s := if s.within false (c.block + 0x38) 8 then
          s.scratchStore false (c.block + 0x38) 8 (min (c.nsat + c.attempt) (2 ^ 32 - 1) * 2 ^ 16 + status)
        else s
      .next ((s.setCopy k.toNat none).finishCpyw (ticketOf c.seq k.toNat))

end Sys2Proof.Machine
end

