-- ==== Sys2Proof/Machine/Graph.lean ====
section
/-! DEFINITION. Graphs of the stream fabric: their images, the checks of SCFG, and the operations of processing elements
(R412 to R419). -/

namespace Sys2Proof.Machine

/-! ### Graph images (Tables 18-3 to 18-6) -/

/-- A PE word (Table 18-4). -/
structure Pe where
  op : Nat
  tin : Nat
  tout : Nat
  a : Nat
  b : Nat
  c : Nat
  rnd : Nat
  sat : Bool
  param : Nat
  rsv : Nat
  imm : Nat

/-- An output port (Table 18-5): source, type and placement. -/
structure Port where
  src : Nat
  ty : Nat
  mode : Nat

/-- An address-unit word (Table 18-6). -/
structure AddrUnit where
  mode : Nat
  src : Nat
  et : Nat
  sh : Nat
  depth : Nat
  base : Nat
  rsv : Nat

/-- Fields of a PE word. -/
def peOf (w : Word) : Pe :=
  { op := wf w 59 5, tin := wf w 54 5, tout := wf w 49 5, a := wf w 44 5, b := wf w 39 5, c := wf w 34 5,
    rnd := wf w 31 3, sat := bit w.toNat 30, param := wf w 24 6, rsv := wf w 16 8, imm := wf w 0 16 }

/-- Fields of an address-unit word. -/
def auOf (x : Nat) : AddrUnit :=
  { mode := bits x 29 3, src := bits x 24 5, et := bits x 19 5, sh := bits x 16 3, depth := bits x 12 4,
    base := bits x 10 2, rsv := bits x 0 10 }

/-- PE k of an image of 20 words. -/
def imgPe (g : List Word) (k : Nat) : Pe := peOf (g.getD k 0)

/-- The ROUTE word. -/
def imgRoute (g : List Word) : Word := g.getD 16 0
def imgSect (g : List Word) : Nat := wf (imgRoute g) 24 5
def imgIdxt (g : List Word) : Nat := wf (imgRoute g) 29 5

/-- Output port j. -/
def imgPort (g : List Word) (j : Nat) : Port :=
  let r := imgRoute g
  { src := wf r (12 * j) 5, ty := wf r (12 * j + 5) 5, mode := wf r (12 * j + 10) 2 }

/-- Address unit k. -/
def imgAu (g : List Word) (k : Nat) : AddrUnit := auOf (wf (g.getD (18 + k / 2) 0) (32 * (k % 2)) 32)

/-- The sources that an operation reads (Table 18-2). -/
def Pe.inputs (p : Pe) : List Nat :=
  match p.op with
  | 0 => []
  | 5 | 9 => [p.a, p.b, p.c]
  | 1 | 13 | 14 | 15 | 16 | 18 | 19 | 20 | 21 => [p.a]
  | _ => [p.a, p.b]

/-- The width that input `j` of a PE wants of its source: its TIN's, but 32 for the scale words of bscale (R419). -/
def Pe.wants (p : Pe) (j : Nat) : Nat := if p.op = 17 ∧ j = 1 then 32 else width p.tin

/-- The sixteen PEs, the ports that are on, the units that are on. -/
def imgPes (g : List Word) : List Pe := (List.range 16).map (imgPe g)
def imgPorts (g : List Word) : List Port := ([0, 1].map (imgPort g)).filter (fun p => p.mode != 0)
def imgAus (g : List Word) : List AddrUnit := ((List.range 4).map (imgAu g)).filter (fun u => u.mode != 0)

/-- Widths that the PEs which read a source want of it (R419, Table 18-11 check 4). -/
def peReaders (g : List Word) (code : Nat) : List Nat :=
  (imgPes g).flatMap (fun p => (p.inputs.zipIdx.filter (fun e => e.1 == code)).map (fun e => p.wants e.2))

/-- Widths of all readers of a source: PEs, ports and address units. -/
def readers (g : List Word) (code : Nat) : List Nat :=
  peReaders g code ++
  ((imgPorts g).filter (fun p => p.src == code)).map (fun p => width p.ty) ++
  ((imgAus g).filter (fun u => u.src == code)).map (fun _ => 32)

/-! ### The checks of Table 18-7 -/

/-- The type of a source for a reader of type `t`; none for prim, which SOPEN checks (R419). -/
def sourceType (g : List Word) (code t : Nat) : Option Nat :=
  if code = 0 ∨ code = 20 then some t
  else if code ≤ 16 then some (imgPe g (code - 1)).tout
  else if code = 17 then none
  else if code = 18 then some (imgSect g)
  else if code = 19 then some (imgIdxt g)
  else some (imgAu g (code - 21)).et

/-- Whether an operation gives its PARAM a meaning (Table 18-2). -/
def Pe.paramOk (p : Pe) : Bool :=
  match p.op with
  | 8 => decide (p.param ≤ 3)
  | 19 => decide (p.param ≤ 2)
  | 13 | 14 | 15 | 23 => decide (p.param ≤ 31)
  | _ => p.param == 0

/-- Status 1: reserved codes and fields. -/
def imgReserved (g : List Word) : Bool :=
  let ports := [imgPort g 0, imgPort g 1]
  let aus := (List.range 4).map (imgAu g)
  (imgPes g).any (fun p => decide (24 ≤ p.op) || decide (25 ≤ p.a) || decide (25 ≤ p.b) || decide (25 ≤ p.c) ||
    !typeOk p.tin || !typeOk p.tout || p.rnd == 7 || p.rsv != 0 || !p.paramOk || (p.imm != 0 && p.op != 18)) ||
  ports.any (fun p => decide (25 ≤ p.src) || !typeOk p.ty) || !typeOk (imgSect g) || !typeOk (imgIdxt g) ||
  wf (imgRoute g) 34 30 != 0 || g.getD 17 0 != 0 ||
  aus.any (fun u => decide (3 ≤ u.mode) || decide (25 ≤ u.src) || !typeOk u.et || u.rsv != 0)

/-- The PEs (codes 1 to 16) and address units (21 to 24) whose sources are all in `done`, with `done`: in a graph without
a cycle (R414) sixteen PEs and four units are ordered after twenty rounds. -/
def orderRound (g : List Word) (done : List Nat) : List Nat :=
  let known (c : Nat) : Bool := c == 0 || (decide (17 ≤ c) && decide (c ≤ 20)) || done.contains c
  let pes := (List.range 16).filter (fun k => !done.contains (k + 1) && (imgPe g k).inputs.all known)
  let aus := (List.range 4).filter (fun k =>
    !done.contains (21 + k) && ((imgAu g k).mode == 0 || known (imgAu g k).src))
  done ++ pes.map (· + 1) ++ aus.map (21 + ·)

/-- The order in which the PEs and units of a graph are evaluated. -/
def imgOrder (g : List Word) : List Nat := (List.range 20).foldl (fun d _ => orderRound g d) []

/-- Status 2: an input from a PE of an equal or higher number, or a unit whose SEL names a PE that takes input from that
unit (Table 18-7).  No other cycle through address units is refused (log entry 78). -/
def imgCycle (g : List Word) : Bool :=
  (List.range 16).any (fun k => (imgPe g k).inputs.any (fun c => decide (1 ≤ c) && decide (c ≤ 16) && decide (k < c))) ||
    (List.range 4).any (fun k =>
      let u := imgAu g k
      u.mode != 0 && decide (1 ≤ u.src) && decide (u.src ≤ 16) && (imgPe g (u.src - 1)).inputs.contains (21 + k))

/-- The codes of the PEs and units that wait for each other, and of those behind them. -/
def imgLooped (g : List Word) : List Nat :=
  let done := imgOrder g
  (((List.range 16).map (· + 1)) ++ ((List.range 4).map (21 + ·))).filter (fun c => !done.contains c)

/-- Status 3 for one PE. -/
def Pe.typesBad (g : List Word) (p : Pe) : Bool :=
  let wi := width p.tin
  let wo := width p.tout
  p.op != 0 &&
    (((wi == 6 || wi == 64) && p.op != 21) || ((wo == 6 || wo == 64) && p.op != 20) ||
     ((p.op == 1 || p.op == 10 || p.op == 11 || p.op == 12) && p.tout != p.tin) ||
     (p.op == 20 && (wi != 8 || (wo != 4 && wo != 6))) ||
     (p.op == 21 && ((wi != 4 && wi != 6) || (p.tout != 4 && p.tout != 5))) ||
     p.inputs.zipIdx.any (fun e =>
       match sourceType g e.1 p.tin with
       | some t => width t != p.wants e.2
       | none => false))

/-- Status 3: types. -/
def imgTypesBad (g : List Word) : Bool :=
  (imgPes g).any (fun p => p.typesBad g) ||
  (imgAus g).any (fun u =>
    decide (width u.et < 8) || width u.et == 64 || (u.mode == 2 && u.depth == 0) ||
    (match sourceType g u.src 9 with
     | some t => t != 8 && t != 9
     | none => false)) ||
  ((imgIdxt g != 8 && imgIdxt g != 9) && (!(peReaders g 19).isEmpty || (imgAus g).any (fun u => u.src == 19)))

/-- The codes that a filter reaches, from those in `hit` (status 4). -/
def filterRound (g : List Word) (hit : List Nat) : List Nat :=
  (List.range 16).filterMap (fun k =>
    let p := imgPe g k
    if p.op = 22 || p.inputs.any hit.contains then some (k + 1) else none) ++
  (List.range 4).filterMap (fun k =>
    let u := imgAu g k
    if u.mode ≠ 0 ∧ hit.contains u.src = true then some (21 + k) else none)

/-- Status 4: the ports. -/
def imgPortsBad (g : List Word) : Bool :=
  let hit := (List.range 20).foldl (fun h _ => filterRound g h) []
  (imgPort g 0).mode == 0 ||
    (imgPorts g).any (fun p => p.src == 0 || p.src == 20 || ((p.mode == 1 || p.mode == 3) && hit.contains p.src))

/-- The status of Table 18-7 for an image. -/
def graphStatus (g : List Word) : Nat :=
  if imgReserved g then 1 else if imgCycle g then 2 else if imgTypesBad g then 3 else if imgPortsBad g then 4 else 0

/-! ### Operations of processing elements (R415) -/

/-- The smaller or larger of two values, as VFMIN and VFMAX order them (R210, R415). -/
def numPick (wantMax : Bool) (x y : Num) : Num :=
  match x, y with
  | .nan, y => y
  | x, .nan => x
  | x, y =>
    let c := Num.cmp x y
    let c := if x.isZero && y.isZero then
        (if x.negative = y.negative then 0 else if x.negative then -1 else 1) else c
    if wantMax then (if c < 0 then y else x) else (if 0 < c then y else x)

/-- An exact result rounded once to TOUT (R415): an integer result of integers wraps, or saturates under SAT = 1 (R47); one
of floating-point values, and of an infinite or NaN product, converts as R46. -/
def Pe.finish (p : Pe) (mode : Nat) (v : Num) : Nat × Bool :=
  let r :=
    if !isInt p.tout then roundTyped p.tout mode 0 p.sat v
    else if !isInt p.tin then toint p.tout mode 0 v
    else match v with
      | .fin neg m e =>
        let x := (roundInt mode 0 neg m e).1
        if p.sat then satInt p.tout x else (wrapBits (width p.tout) x, 0)
      | _ => toint p.tout mode 0 v
  (r.1, saturated p.tout (v == .nan) r)

/-- A result that is one of the operands, chosen as its value: R44 does not act on it where it keeps its type (log entry
145). -/
def Pe.choose (p : Pe) (mode : Nat) (v : Num) : Nat × Bool :=
  (if p.tout = p.tin then { p with sat := false } else p).finish mode v

/-- The empty value of `reduce` (R415). -/
def Pe.empty (p : Pe) : Num :=
  if p.param = 0 then .fin false 0 0
  else
    let neg := p.param == 2
    if isInt p.tout then .ofInt (if neg then intMin p.tout else intMax p.tout)
    else if p.tout = 0x17 then (if neg then .fin false 0 0 else valScale 0xFF)
    else if (ffmt p.tout).hasInf then .inf neg
    else valF (ffmt p.tout) (largest (ffmt p.tout) neg)

/-- A right shift of the `w`-bit pattern of an integer, or a left shift of it that stays within it (R415). -/
def shiftOp (op w n x : Nat) : Nat :=
  match op with
  | 13 => if w ≤ n then 0 else x * 2 ^ n % 2 ^ w
  | 14 => if w ≤ n then 0 else x / 2 ^ n
  | _ => wrapBits w (sext x w / (2 ^ min n w : Nat))

/-- The exact value of a shift (R415): a left shift of an integer by less than its width is its product with a power of
two.  The sign of a 0 is that of R34. -/
def Pe.shifted (p : Pe) (rdn : Bool) (x : Nat) : Num :=
  let v := if p.op = 13 ∧ isInt p.tin = true ∧ p.param < width p.tin then .ofInt (intOf p.tin x * (2 ^ p.param : Nat))
    else val p.tin (shiftOp p.op (width p.tin) p.param x)
  if !isFloat p.tin && v.isZero then .fin rdn 0 0 else v

/-- The result of a PE for one element with beat index `i`, from its input patterns, and for `reduce` the lane's running
value (R415, Table 18-2): the pattern, none when `filter` drops the element; whether it was saturated; and the new
running value.  The 0 of `cmp` is +0 in a floating-point type (log entry 157). -/
def Pe.apply (p : Pe) (mode i : Nat) (acc : Num) (a b c : Nat) : Option Nat × Bool × Num :=
  let rdn := rdnOf mode
  let x := valSigned rdn p.tin a
  let y := valSigned rdn p.tin b
  let fin (v : Num) : Option Nat × Bool × Num :=
    let r := p.finish mode v
    (some r.1, r.2, acc)
  let pick (v : Num) : Option Nat × Bool × Num :=
    let r := p.choose mode v
    (some r.1, r.2, acc)
  let raw (n : Nat) : Option Nat × Bool × Num := (some n, false, acc)
  match p.op with
  | 0 => raw 0
  | 1 => raw a
  | 2 => fin (Num.add rdn x y).1
  | 3 => fin (Num.add rdn x y.neg).1
  | 4 => fin (Num.mul rdn x y).1
  | 5 => fin (Num.add rdn (Num.mul rdn x y).1 (valSigned rdn p.tin c)).1
  | 6 => pick (numPick false x y)
  | 7 => pick (numPick true x y)
  | 8 =>
    let yes : Bool :=
      if x = .nan ∨ y = .nan then p.param == 3
      else
        let k := Num.cmp x y
        match p.param with
        | 0 => k == 0
        | 1 => decide (k < 0)
        | 2 => decide (k ≤ 0)
        | _ => k != 0
    let r := { p with tin := 5 }.finish mode (.ofInt (if yes then 1 else 0))
    (some r.1, r.2, acc)
  | 9 => pick (if (val p.tin c).isZero then y else x)
  | 10 => raw (a &&& b)
  | 11 => raw (a ||| b)
  | 12 => raw (a ^^^ b)
  | 13 | 14 | 15 => fin (p.shifted rdn a)
  | 16 => fin x
  | 17 => fin (Num.mul rdn x (valScale (bits b (8 * (i % 32 / 8)) 8))).1
  | 18 => fin (Num.mul rdn x (val 0x14 p.imm)).1
  | 19 =>
    let w := if p.param = 0 then (Num.add rdn acc x).1 else numPick (p.param == 2) acc x
    let r := if p.param = 0 then p.finish mode w else p.choose mode w
    (some r.1, r.2, val p.tout r.1)
  | 20 => raw (a % 2 ^ width p.tout)
  | 21 => raw a
  | 22 => if y.isZero then (none, false, acc) else pick x
  | _ => raw ((a * 2 ^ p.param + b) % 2 ^ 32)

end Sys2Proof.Machine
end

