-- ==== Sys2Proof/Machine/Network.lean ====
section
/-! DEFINITION. The network interface: the words of major 1D, NET, and the steps at which packets are delivered, spilled
and redelivered (R357 to R373). -/

namespace Sys2Proof.Machine

/-! ### Destinations (R358) -/

/-- Whether a COREID names a live core of this device (R9, R10). -/
def State.liveHere (s : State) (c : Nat) : Bool :=
  if bit c 9 then bits c 0 7 == 0 else c == s.core.coreId.toNat || !s.mgmt.dead.contains (2, c)

/-- Whether a COREID names a live core of a device (R358): which cores of a peer are live is free. -/
def State.liveCore (s : State) (dev c : Nat) : Bool :=
  if s.ownDevice dev then s.liveHere c
  else (!bit c 9 || bits c 0 7 == 0) && Config.peerCore dev c s.ctr.cycle.toNat

/-- Whether a destination word names a core that a packet can reach (R358). -/
def State.destOk (s : State) (w : Word) : Bool :=
  let dev := wf w 52 12
  (s.ownDevice dev || s.reaches dev) && s.liveCore dev (wf w 42 10)

/-- The field conditions of Table 16-2 for NSEND, NPUT and NINT. -/
def sendFields (w : Word) : Bool := wf w 32 8 == 0 && decide (wf w 40 2 ≤ 1)
def putFields (w : Word) : Bool := wf w 22 16 == 0 && decide (wf w 38 4 ≤ 6)
def nintFields (w : Word) : Bool :=
  wf w 52 12 == 0 && wf w 34 7 == 0 && wf w 0 32 == 0 && decide (wf w 32 2 ≤ 1)

/-- The trap of a refused destination word (R358). -/
def State.destTrap (s : State) (h : BitVec 1) (w : Word) : Result := s.hartFault h 0x07 w 1 false 0 0 0 1

/-- Whether a packet's destination is this core. -/
def State.toMe (s : State) (w : Word) : Bool := s.ownDevice (wf w 52 12) && wf w 42 10 == s.core.coreId.toNat

/-- Whether a sender is this core. -/
def State.fromMe (s : State) (dev : BitVec 12) (core : BitVec 10) : Bool :=
  s.ownDevice dev.toNat && core == s.core.coreId

/-! ### Send queues (R359) -/

/-- The virtual network of a packet (Table 16-1). -/
def Payload.vn : Payload → BitVec 2
  | .nsend vn _ _ => vn.zeroExtend 2
  | .nput _ _ _ => 2
  | .nint _ _ _ => 3

/-- Whether a hart's send queue for a virtual network is full (R359). -/
def State.sendFull (s : State) (h : BitVec 1) (vn : BitVec 2) : Bool :=
  decide (32 ≤ (s.net.entries.filter (fun e => e.2.1 == h && e.2.2.1 == vn)).length)

/-- The trap of a full send queue (R359). -/
def State.sendQueueFull (s : State) (h : BitVec 1) : Result := (s.count h 0x0B 1).trap h 0x0D

/-- Sends the packets of an instruction, under one entry of the hart's send queue (R359). -/
def State.send (s : State) (h : BitVec 1) (vn : BitVec 2) (dest : Word) (ps : List Payload) : State :=
  let n := s.net.nextEntry
  let packet (p : Payload) : Packet :=
    { entry := n, hart := h, dest := dest, sdev := s.mgmt.devnum, score := s.core.coreId, body := p }
  { s with net := { s.net with
      nextEntry := n + 1, entries := s.net.entries ++ [(n, h, vn, ps.length)],
      flight := s.net.flight ++ ps.map packet } }

/-- A packet of an entry is delivered: the entry is freed with its last packet (R313, R359). -/
def State.delivered (s : State) (n : Nat) : State :=
  let es := s.net.entries.filterMap (fun e =>
    if e.1 = n then (if e.2.2.2 ≤ 1 then none else some (e.1, e.2.1, e.2.2.1, e.2.2.2 - 1)) else some e)
  { s with net := { s.net with entries := es } }

/-! ### NSEND, NPUT, NINT (R360 to R362, R369) -/

/-- n bytes of local scratch as a list. -/
def State.localBytes (s : State) (o n : Nat) : List Byte :=
  (List.range n).map (fun i => BitVec.ofNat 8 (s.scratchLoad false (o + i) 1))

/-- The packets of an NPUT (R362). -/
def putPackets (xform offset : Nat) (bytes : List Byte) : List Payload :=
  let x := BitVec.ofNat 4 xform
  if xform = 6 then
    let els := bytes.drop 8
    (List.range ((els.length + 247) / 248)).map (fun k =>
      .nput x (offset + 496 * k) (bytes.take 8 ++ (els.drop (248 * k)).take 248))
  else
    let share := if xform = 1 then 128 else if xform = 2 then 512 else 256
    (List.range ((bytes.length + 255) / 256)).map (fun k =>
      .nput x (offset + share * k) ((bytes.drop (256 * k)).take 256))

/-- The checks of NSEND and NPUT after the destination word, in the order of R360, and the read of the payload: `k` is
told its bytes. -/
def payloadOp (h : BitVec 1) (vn : BitVec 2) (lenOk : Nat → Bool) (align : Nat) (len gb : Word) (s : State)
    (k : List Byte → Result) : Result :=
  let n := len.toNat
  let o := gb.toNat
  if !lenOk n then s.trapDetail h 0x0B 8
  else if o % align ≠ 0 then s.scalarFault h 0x03 gb 6 false 8
  else if !s.within false o n then s.hartFault h 0x07 gb 6 false 0 0 0 1
  else if s.interlocked 1 o (o + n) false then .next (s.stall h 0x06)
  else if s.arrayTouches 1 o n then .next s
  else if s.sendFull h vn then s.sendQueueFull h
  else k (s.localBytes o n)

/-- NSEND (R360, R361): its payload is local scratch behind the hart's own scalar stores (R289, R308). -/
def execNsend (d a b : BitVec 7) (s : State) : Result :=
  issue [d, a, b] s (fun h => s.withStores h (fun s =>
    let x := s.hart h
    let w := x.reg a.toNat
    if !sendFields w || !s.destOk w then s.destTrap h w
    else
      let vn := BitVec.ofNat 1 (wf w 40 1)
      payloadOp h (vn.zeroExtend 2) (fun n => decide (1 ≤ n) && decide (n ≤ 248)) 1 (x.reg d.toNat) (x.reg b.toNat) s
        (fun bs => .next ((s.send h (vn.zeroExtend 2) w [.nsend vn (w.truncate 32) bs]).retire h))))

/-- Whether a length is one of NPUT's (R360). -/
def putLength (xform n : Nat) : Bool :=
  n % 8 == 0 && decide (8 ≤ n) && decide (n ≤ 4096) && (xform != 6 || decide (16 ≤ n))

/-- NPUT (R360, R362): its payload is local scratch behind the hart's own scalar stores (R289, R308). -/
def execNput (d a b : BitVec 7) (s : State) : Result :=
  issue [d, a, b] s (fun h => s.withStores h (fun s =>
    let x := s.hart h
    let w := x.reg a.toNat
    if !putFields w || !s.destOk w then s.destTrap h w
    else
      payloadOp h 2 (putLength (wf w 38 4)) 8 (x.reg d.toNat) (x.reg b.toNat) s
        (fun bs => .next ((s.send h 2 w (putPackets (wf w 38 4) (wf w 0 22) bs)).retire h))))

/-- NINT (R369). -/
def execNint (a b : BitVec 7) (s : State) : Result :=
  issue [a, b] s (fun h => needLevel 1 s h (
    let w := (s.hart h).reg a.toNat
    if !nintFields w || !s.destOk w then s.destTrap h w
    else if s.sendFull h 3 then s.sendQueueFull h
    else
      let p : Payload := .nint (BitVec.ofNat 1 (wf w 41 1)) (BitVec.ofNat 2 (wf w 32 2)) ((s.hart h).reg b.toNat)
      .next ((s.send h 3 w [p]).retire h)))

/-! ### Receive slots (R365 to R368) -/

/-- Whether an array instruction that has been queued has yet to touch the receive area, whose slots NRECV, NPOLL and NFREE
are ordered with (R289, R368). -/
def State.slotsBusy (s : State) : Bool :=
  decide (0 < s.extent false) && s.arrayTouches 1 (s.extent false - 32768) 32768

/-- Full slots of a virtual network, in order of arrival; none without a receive area (R365). -/
def State.fullSlots (s : State) (vn : BitVec 1) : List RxSlot :=
  if s.extent false = 0 then []
  else sortBy (fun a b => decide (a.order ≤ b.order)) (s.net.rx.filter (fun x => x.vn == vn && !x.taken))

/-- The handle of a slot (R368). -/
def State.slotHandle (s : State) (x : RxSlot) : Word :=
  word (x.handler.toNat * 2 ^ 32 + x.core.toNat * 2 ^ 22 + s.slotOffset x.vn.toNat x.idx % 2 ^ 22)

/-- The check of NRECV's and NPOLL's operand, and their order behind queued array instructions. -/
def slotOp (d a : BitVec 7) (s : State) (k : BitVec 1 → BitVec 1 → Result) : Result :=
  issue [d, a] s (fun h =>
    let v := (s.hart h).reg a.toNat
    if 1 < v.toNat then s.trapDetail h 0x0B 8
    else if s.slotsBusy then .next s
    else k h (v.truncate 1))

/-- NRECV (R368). -/
def execNrecv (d a : BitVec 7) (s : State) : Result :=
  slotOp d a s (fun h vn =>
    match s.fullSlots vn with
    | [] => .next ((s.lateReg h d.toNat 0xFFFFFFFFFFFFFFFF 0).retire h)
    | x :: _ =>
      let rx := s.net.rx.map (fun y => if y.vn = x.vn ∧ y.idx = x.idx then { y with taken := true } else y)
      let s1 := { s with net := { s.net with rx := rx } }
      .next ((s1.lateReg h d.toNat (s.slotHandle x) 0).retire h))

/-- NPOLL (R368). -/
def execNpoll (d a : BitVec 7) (s : State) : Result :=
  slotOp d a s (fun h vn => .next ((s.lateReg h d.toNat (word (s.fullSlots vn).length) 0).retire h))

/-- NFREE (R368): like a store to its slot, it waits for what has yet to read it (R289, R310). -/
def execNfree (a : BitVec 7) (s : State) : Result :=
  issue [a] s (fun h => s.withStores h (fun s =>
    let o := ((s.hart h).reg a.toNat).toNat % 32768
    let first := s.slotOffset (o / 16384) (o % 16384 / 256)
    if s.slotsBusy then .next s
    else if s.interlocked 1 first (first + 256) true then .next (s.stall h 0x06)
    else
    let rx := s.net.rx.filter (fun x => !(x.taken && x.vn.toNat == o / 16384 && x.idx == o % 16384 / 256))
    .next ({ s with net := { s.net with rx := rx } }.retire h)))

/-! ### Delivery (R313, R362 to R366) -/

/-- A list of bytes as a little-endian number. -/
def leNat (l : List Byte) : Nat := l.foldr (fun b a => b.toNat + 256 * a) 0

/-- The free slot of lowest index of a virtual network (R366); none without a receive area. -/
def State.freeSlot (s : State) (vn : BitVec 1) : Option Nat :=
  if s.extent false = 0 then none
  else (List.range 64).find? (fun i => !s.net.rx.any (fun x => x.vn == vn && x.idx == i))

/-- Delivers a channel message into slot `k` (R366, Table 16-5). -/
def State.fillSlot (s : State) (k : Nat) (vn : BitVec 1) (handler : BitVec 32) (sdev : BitVec 12) (core : BitVec 10)
    (bytes : List Byte) : State :=
  let seq := Store.get s.net.arrivals vn.toNat
  let o := s.slotOffset vn.toNat k
  let header := bytes.length % 2 ^ 9 + sdev.toNat * 2 ^ 16 + vn.toNat * 2 ^ 28 + seq.toNat * 2 ^ 32
  let s := (s.scratchStore false o 8 header).scratchStore false (o + 8) bytes.length (leNat bytes)
  let slot : RxSlot := { vn := vn, idx := k, taken := false, handler := handler, core := core, order := s.net.nextOrder }
  { s with net := { s.net with
      rx := s.net.rx ++ [slot], nextOrder := s.net.nextOrder + 1,
      arrivals := Store.set s.net.arrivals vn.toNat (seq + 1) } }

/-- Bytes of a payload element and of a landed element (Table 16-4). -/
def landWidths (xform : Nat) : Nat × Nat :=
  match xform with
  | 0 => (1, 1)
  | 1 => (4, 2)
  | 2 => (2, 4)
  | 4 => (2, 2)
  | 6 => (1, 2)
  | _ => (4, 4)

/-- The landed value of payload element `x` over `old`, with the f32 scale of XFORM 6 (Table 16-4). -/
def landValue (xform scale old x : Nat) : Nat :=
  let rne (t : Nat) (v : Num) : Nat := (roundF t mRNE 0 false v).1
  match xform with
  | 0 => x
  | 1 => rne 0x14 (val 0x16 x)
  | 2 => rne 0x16 (val 0x14 x)
  | 3 => rne 0x16 (Num.add false (val 0x16 old) (val 0x16 x)).1
  | 4 => rne 0x14 (Num.add false (val 0x14 old) (val 0x14 x)).1
  | 5 => (old + x) % 2 ^ 32
  | _ => rne 0x14 (Num.mul false (val 0x12 x) (val 0x16 scale)).1

/-- Elements of a payload, from byte `skip`, with their numbers. -/
def payloadElems (skip w : Nat) (bytes : List Byte) : List (Nat × Nat) :=
  (List.range ((bytes.length - skip) / w)).map (fun i => (i, leNat ((bytes.drop (skip + i * w)).take w)))

/-- Landed bytes of a payload (Table 16-4). -/
def landedBytes (xform n : Nat) : Nat :=
  let (sw, dw) := landWidths xform
  (if xform = 6 then n - 8 else n) / sw * dw

/-- Whether a landing lies in the local-scratch extent below the receive area (R362, R365). -/
def State.landingOk (s : State) (xform offset n : Nat) : Bool :=
  decide (offset + landedBytes xform n ≤ s.extent false - 32768)

/-- A LANDING (R363, R364): each element in turn. -/
def State.land (s : State) (xform offset : Nat) (bytes : List Byte) : State :=
  let (sw, dw) := landWidths xform
  let scale := leNat (bytes.take 4)
  (payloadElems (if xform = 6 then 8 else 0) sw bytes).foldl (fun s e =>
    let o := offset + e.1 * dw
    s.scratchStore false o dw (landValue xform scale (s.scratchLoad false o dw) e.2)) s

/-- CID for the log of a packet: packets carry none, so that of another core's is not known (R371, R451). -/
def State.packetCid (s : State) (p : Packet) : Nat × State :=
  if s.fromMe p.sdev p.score then (s.cid16.toNat, s)
  else
    let (n, s) := s.draw
    ((Config.otherCore n).toNat % 2 ^ 16, s)

/-- The error response to the sender of a packet (R317, R362): bus error 0x11 with FADDR the destination word; only a
hart of this core is in the model. -/
def State.packetError (s : State) (p : Packet) : State :=
  if !s.fromMe p.sdev p.score then s
  else if p.entry = 0 then
    let (n, s) := s.draw
    s.busError (Config.sendingHart n) p.dest (finfo 0 false 0 1 0) 0
  else s.busError p.hart p.dest (finfo 0 false 0 1 0) 0

/-- A failed landing (R362, R451). -/
def State.failLanding (s : State) (p : Packet) : State :=
  let (cid, s) := s.packetCid p
  (s.logViolation s.quadrant p.score.toNat 4 3 p.dest cid).packetError p

/-- Delivers an NSEND or NPUT packet to this core; none while it must wait in the network (R362, R365, R366). -/
def State.deliverHere (s : State) (p : Packet) : Option State :=
  match p.body with
  | .nsend vn handler bytes => (s.freeSlot vn).map (fun k => s.fillSlot k vn handler p.sdev p.score bytes)
  | .nput x offset bytes =>
    some (if s.landingOk x.toNat offset bytes.length then s.land x.toNat offset bytes else s.failLanding p)
  | .nint _ _ _ => none

/-! ### Spill areas (R370 to R372) -/

/-- The network interface as accesses know it. -/
def State.spillId (s : State) (cid : BitVec 16) : EngineId :=
  { kind := 4, ptbase := s.core.ptbase, cid := cid, level := 1 }

/-- A spill area's header: capacity, head and tail (Table 16-6). -/
def State.spillHeader (s : State) (e : EngineId) (a : Word) : EngineResult × Nat × Nat × Nat :=
  match s.engineLoad e a 8 with
  | .ok cap s =>
    match s.engineLoad e (a + 8) 8 with
    | .ok head s =>
      match s.engineLoad e (a + 16) 8 with
      | .ok tail s => (.ok 0 s, cap, head, tail)
      | r => (r, 0, 0, 0)
    | r => (r, 0, 0, 0)
  | r => (r, 0, 0, 0)

/-- Address of an entry (R370). -/
def spillEntry (a : Word) (cap i : Nat) : Word := a + word (64 + 272 * (i % cap))

/-- Stores 8-byte words one after another. -/
def State.spillWords (s : State) (e : EngineId) : Word → List Nat → EngineResult
  | _, [] => .ok 0 s
  | a, v :: vs =>
    match s.engineStore e a 0 64 v with
    | .ok _ s => s.spillWords e (a + 8) vs
    | r => r

/-- The 8-byte words of bytes padded to 256. -/
def padded (bytes : List Byte) : List Nat := (List.range 32).map (fun i => leNat ((bytes.drop (8 * i)).take 8))

/-- The entry of a packet as its 34 words (R370): the destination word with DEV and CORE of the sender; of an NPUT its
OFFSET is where this packet's landing begins. -/
def Packet.spilled (p : Packet) : List Nat :=
  let w := setBits (setBits p.dest.toNat 52 12 p.sdev.toNat) 42 10 p.score.toNat
  match p.body with
  | .nsend _ _ bytes => [w, bytes.length] ++ padded bytes
  | .nput _ offset bytes => [setBits w 0 22 (min offset (2 ^ 22 - 1)), bytes.length + 2 ^ 32] ++ padded bytes
  | .nint _ _ _ => []

/-- A record for the spill area, on which a packet or the redelivery then waits (R371, R405); none while the queue is
full.  It carries the address of the entry; where the area's header cannot be read no entry is known, and it carries the
header's (log entry 140). -/
def State.holdSpill (s : State) (cause : Nat) (wr : Bool) (a : Word) (cid : BitVec 16) (p : Option Packet) : Option State :=
  if !s.canDeposit then none
  else
    let (q, s) := s.deposit {
      addr := a, stride := 0, remain := 1, elen := 272, tag := 0, cause := cause, source := 4, wr := wr, cid := cid }
    some { s with net := { s.net with held := some (q, p) } }

/-- What a spill access that has not ended with its value comes to: a record on a fault, else a wait. -/
def EngineResult.spillFault (r : EngineResult) (s0 : State) (wr : Bool) (a : Word) (cid : BitVec 16) (p : Option Packet) :
    Sweep :=
  match r with
  | .fault c s =>
    match s.holdSpill c wr a cid p with
    | some s => .done s
    | none => .wait s0
  | .wait s => .wait s
  | _ => .wait s0

/-- SPILLING (R371): the packet is written as the entry at tail, and tail advances, unless that would fill the area.  It may
have to wait in the network; one that waits on a fault record has left it for `held`. -/
def State.spillPacket (s : State) (a : Word) (cid : BitVec 16) (p : Packet) : Sweep :=
  if a = 0 ∨ a.toNat % 64 ≠ 0 ∨ s.net.held.isSome = true then .wait s
  else
    let e := s.spillId cid
    match s.spillHeader e a with
    | (.ok _ s1, cap, head, tail) =>
      if cap = 0 ∨ (tail + 1 + 2 ^ 64 - head) % 2 ^ 64 ≥ cap then .wait s
      else
        let ea := spillEntry a cap tail
        match s1.spillWords e ea p.spilled with
        | .ok _ s2 =>
          match s2.engineStore e (a + 16) 0 64 (tail + 1) with
          | .ok _ s3 => .done (s3.delivered p.entry)
          | r => r.spillFault s true ea cid (some p)
        | r => r.spillFault s true ea cid (some p)
    | (r, _, _, _) => r.spillFault s false a cid (some p)

/-- The area that packets for the core are diverted to: from a pre-empt message until a context is restored, and while
that context's own area is still being redelivered (R109, R371). -/
def State.divert (s : State) : Option (Word × BitVec 16) :=
  if s.core.preempted then some (s.net.spill.getD (0, 0)) else s.net.redeliver

/-- Whether a role change of this core waits: landings wait behind it (R162). -/
def State.roleComes (s : State) : Bool := s.h0.roleSeq.isSome || s.h1.roleSeq.isSome

/-- A packet of VN0 to VN2 for this core arrives (R162, R313, R371): diverted or delivered, or it waits. -/
def State.packetHere (s : State) (p : Packet) : Sweep :=
  match s.divert with
  | some (a, cid) => s.spillPacket a cid p
  | none =>
    if p.body.vn == 2 && s.roleComes then .wait s
    else match s.deliverHere p with
      | some s1 => .done (s1.delivered p.entry)
      | none => .wait s

/-- A packet of this core for another core is delivered there; one for a core that has retired meanwhile, and a landing
that fails there, are answered with an error response; the landing is in the log of that core's quadrant (R358, R362,
R451). -/
def State.packetThere (s : State) (p : Packet) : State :=
  let dev := wf p.dest 52 12
  let s1 := s.delivered p.entry
  let core := wf p.dest 42 10
  if !s.liveCore dev core then s1.packetError p
  else match p.body with
    | .nput _ _ _ =>
      let (n, s1) := s1.draw
      if !Config.remoteError n then s1
      else if s.ownDevice dev then
        (s1.logViolation (bits core 7 2) p.score.toNat 4 3 p.dest s.cid16.toNat).packetError p
      else s1.packetError p
    | _ => s1

/-! ### The steps -/

/-- Packet `k` of the network: this core's own on their way, then those that wait for it. -/
def State.packet (s : State) (k : Nat) : Option Packet := (s.net.flight ++ s.net.waiting)[k]?

/-- The state without packet `k`. -/
def State.takePacket (s : State) (k : Nat) : State :=
  let n := s.net.flight.length
  if k < n then { s with net := { s.net with flight := s.net.flight.eraseIdx k } }
  else { s with net := { s.net with waiting := s.net.waiting.eraseIdx (k - n) } }

/-- Whether packet `k` may be delivered before the others that wait for the core: those of one virtual network are taken in
their order (R367). -/
def State.firstWaiting (s : State) (k : Nat) (p : Packet) : Bool :=
  !((s.net.waiting.take (k - s.net.flight.length)).any (fun q => q.body.vn == p.body.vn)) ||
    decide (k < s.net.flight.length)

/-- The state after work that may have had to wait: then only what its lookups have done stays of it (R399). -/
def Sweep.orIn (r : Sweep) (s : State) : State :=
  match r with
  | .done t => t
  | .wait t => s.waitsAs t

/-- A packet of this core's arrives where it is addressed: `own` selects it and `p` says that it is of the step's kind. -/
def ownPacket (k : Nat) (p : Packet → Bool) (s : State) (here : Packet → State → Sweep) : Result :=
  match s.packet k with
  | none => .next s
  | some x =>
    if !p x || !s.firstWaiting k x then .next s
    else
      let s1 := s.takePacket k
      if s.toMe x.dest || x.entry == 0 then .next ((here x s1).orIn s) else .next (s1.packetThere x)

/-- A packet from outside this core. -/
def State.outside (s : State) (dev : BitVec 12) (core : BitVec 10) (dest : Nat) (body : Payload) : Packet :=
  { entry := 0, hart := 0,
    dest := word (dest + s.core.coreId.toNat * 2 ^ 42 + (if dev = 0 then 0 else s.mgmt.devnum.toNat) * 2 ^ 52),
    sdev := dev, score := core, body := body }

/-- Whether a packet carries a channel message, or a landing. -/
def Packet.isSend (p : Packet) : Bool :=
  match p.body with
  | .nsend _ _ _ => true
  | _ => false
def Packet.isPut (p : Packet) : Bool :=
  match p.body with
  | .nput _ _ _ => true
  | _ => false

/-- CHANNEL_MESSAGE_DELIVERY (R366, R371): an NSEND packet of this core's, or one from outside, arrives. -/
def execChannelMessageDelivery (own : Option Nat) (vn : BitVec 1) (dev : BitVec 12) (core : BitVec 10)
    (handler : BitVec 32) (payload : List (BitVec 8)) (s : State) : Result :=
  match own with
  | some k => ownPacket k Packet.isSend s (fun p s => s.packetHere p)
  | none =>
    if s.fromMe dev core || payload.isEmpty || decide (248 < payload.length) then .next s
    else
      .next ((s.packetHere (s.outside dev core (handler.toNat + vn.toNat * 2 ^ 40) (.nsend vn handler payload))).orIn s)

/-- NPUT_LANDING (R362 to R364, R371): an NPUT packet of this core's, or one from outside, arrives.  A landing here of another
core's copy or stream, which is checked as one of an NPUT is (R269, R423), is such a packet from outside (log entry 148). -/
def execNputLanding (own : Option Nat) (xform : BitVec 4) (offset : BitVec 22) (dev : BitVec 12) (core : BitVec 10)
    (payload : List (BitVec 8)) (s : State) : Result :=
  match own with
  | some k => ownPacket k Packet.isPut s (fun p s => s.packetHere p)
  | none =>
    if s.fromMe dev core || decide (6 < xform.toNat) || !putLength xform.toNat payload.length ||
        decide (256 < payload.length) then .next s
    else
      .next ((s.packetHere
        (s.outside dev core (offset.toNat + xform.toNat * 2 ^ 38) (.nput xform offset.toNat payload))).orIn s)

/-- Enters a message in a hart's mesh interrupt queue; none while it is full (R142). -/
def State.meshTo (s : State) (h : BitVec 1) (m : MeshMsg) : Option State :=
  if (s.hart h).meshQ.length < 8 then some (s.modHart h (fun x => { x with meshQ := x.meshQ ++ [m] })) else none

/-- The spill area of a context is known to the network interface (R370). -/
def State.setArea (s : State) (cid : BitVec 16) (a : Word) : State :=
  { s with net := { s.net with areas := (cid, a) :: s.net.areas.filter (fun e => e.1 != cid) } }

/-- A restored hart goes on: as by ERET, unless it was saved parked (R152). -/
def State.goOn (s : State) (h : BitVec 1) (parked : Bool) : State := if parked then s else s.returnTrap h

/-- Steps 4 to 6 of R109: copy transfers go on with new promises (Table 15-7), then streams and micro-threads, then the
harts. -/
def State.resumeContext (s : State) : State :=
  match s.core.resuming with
  | none => s
  | some (p0, p1) =>
    let renew (c : CopySlot) : CopySlot :=
      if c.resumed then { c with paused := false, promise := s.newPromise c, replacement := s.newPromise c }
      else { c with paused := false }
    let own (c : StreamSlot) : StreamSlot := if c.core = s.core.coreId then { c with paused := false } else c
    let copies := s.copy.slots.map (fun (e : Nat × Option CopySlot) => (e.1, e.2.map renew))
    let streams := s.stream.slots.map (fun (e : Nat × Option StreamSlot) => (e.1, e.2.map own))
    let s := { s with
      core := { s.core with resuming := none }
      copy := { s.copy with slots := copies }
      stream := { s.stream with slots := streams } }
    (s.goOn 0 p0).goOn 1 p1

/-- A pre-empt message reaches the core (R108, R369, R371): both harts receive it, packets are diverted to the area it
names, and copy transfers and streams are suspended. -/
def State.preempt (s : State) (payload : Word) (core : BitVec 10) : Option State :=
  let m : MeshMsg := { kind := 1, payload := payload, src := core.zeroExtend 16 }
  (s.meshTo 0 m).bind (fun s => (s.meshTo 1 m).map (fun s =>
    if s.core.preempted then s
    else
      let s := s.resumeContext
      let copies := s.copy.slots.map (fun e => (e.1, e.2.map (fun c => { c with paused := true })))
      let streams := s.stream.slots.map (fun e =>
        (e.1, e.2.map (fun c => if c.core = s.core.coreId then { c with paused := true } else c)))
      { s with
        core := { s.core with preempted := true }
        net := { (s.setArea s.cid16 payload).net with spill := some (payload, s.cid16), redeliver := none }
        copy := { s.copy with slots := copies }
        stream := { s.stream with slots := streams } }))

/-- A mesh interrupt message arrives at this core (R108, R369). -/
def State.meshHere (s : State) (h : BitVec 1) (kind : BitVec 2) (payload : Word) (core : BitVec 10) : Option State :=
  if kind = 1 then s.preempt payload core
  else s.meshTo h { kind := kind, payload := payload, src := core.zeroExtend 16 }

/-- Whether packet `k` is the first VN3 packet from its source to its core (R312): neither a message nor, to this core
itself, a fault reply comes before it. -/
def State.firstMesh (s : State) (k : Nat) (p : Packet) : Bool :=
  !(s.net.flight.take k).any (fun q => q.body.vn == 3 && q.score == p.score && wf q.dest 42 10 == wf p.dest 42 10) &&
  !(p.score == s.core.coreId && s.toMe p.dest &&
    s.net.replies.any (fun r => r.src == s.core.coreId.toNat && decide (r.before ≤ p.entry)))

/-- A mesh interrupt message of this core's, or of its quadrant's pool, arrives. -/
def ownMesh (k : Nat) (kinds : BitVec 2 → Bool) (s : State) : Result :=
  match s.packet k with
  | none => .next s
  | some p =>
    match p.body with
    | .nint h kind payload =>
      if !kinds kind || !s.firstMesh k p then .next s
      else
        let s1 := s.takePacket k
        if s.toMe p.dest then .next (((s1.meshHere h kind payload p.score).map (fun s => s.delivered p.entry)).getD s)
        else .next (s1.packetThere p)
    | _ => .next s

/-- MESH_MESSAGE_ARRIVAL (R142, R369): a message of kind 0, or of kinds 2 and 3 from a pool. -/
def execMeshMessageArrival (own : Option Nat) (h : BitVec 1) (kind : BitVec 2) (payload : BitVec 64)
    (core : BitVec 10) (s : State) : Result :=
  match own with
  | some k => ownMesh k (fun c => c != 1) s
  | none =>
    if kind = 1 || core == s.core.coreId then .next s else .next ((s.meshHere h kind payload core).getD s)

/-- PREEMPT_MESSAGE (R108, R369): a message of kind 1. -/
def execPreemptMessage (own : Option Nat) (payload : BitVec 64) (core : BitVec 10) (s : State) : Result :=
  match own with
  | some k => ownMesh k (fun c => c == 1) s
  | none => if core == s.core.coreId then .next s else .next ((s.meshHere 0 1 payload core).getD s)

/-! ### Redelivery (R109, R372) -/

/-- The packet of a spill entry, from its words as loaded; none for one of no kind. -/
def State.unspill (s : State) (w header : Nat) (bytes : List Byte) : Option Packet :=
  let n := min (header % 2 ^ 32) 256
  let body : Option Payload :=
    match bits header 32 8 with
    | 0 => some (.nsend (BitVec.ofNat 1 (bits w 40 1)) (BitVec.ofNat 32 w) (bytes.take n))
    | 1 => some (.nput (BitVec.ofNat 4 (bits w 38 4)) (bits w 0 22) (bytes.take n))
    | _ => none
  body.map (fun b => {
    entry := 0, hart := 0, dest := word (setBits (setBits w 52 12 0) 42 10 s.core.coreId.toNat),
    sdev := BitVec.ofNat 12 (bits w 52 12), score := BitVec.ofNat 10 (bits w 42 10), body := b })

/-- Loads 8-byte words one after another. -/
def State.loadWords (s : State) (e : EngineId) : Word → Nat → List Nat → EngineResult × List Nat
  | _, 0, l => (.ok 0 s, l)
  | a, n + 1, l =>
    match s.engineLoad e a 8 with
    | .ok v s => s.loadWords e (a + 8) n (l ++ [v])
    | r => (r, l)

/-- What a redelivery access that has not ended with its value comes to: a record, a wait, or none where it pauses. -/
def EngineResult.redeliverFault (r : EngineResult) (wr : Bool) (a : Word) (cid : BitVec 16) : Option Sweep :=
  match r with
  | .fault c s => (s.holdSpill c wr a cid none).map .done
  | .wait s => some (.wait s)
  | _ => none

/-- One entry of redelivery (R372), from the entry at head; none where it pauses. -/
def State.redeliverOne (s : State) (a : Word) (cid : BitVec 16) : Option Sweep :=
  let e := s.spillId cid
  match s.spillHeader e a with
  | (.ok _ s1, cap, head, tail) =>
    if cap = 0 ∨ head = tail then some (.done { s1 with net := { s1.net with redeliver := none } })
    else
      let ea := spillEntry a cap head
      match s1.loadWords e ea 34 [] with
      | (.ok _ s2, ws) =>
        let bytes := (ws.drop 2).flatMap (fun v => (bytesOf v 8).map (·.2))
        match s2.engineStore e (a + 8) 0 64 (head + 1) with
        | .ok _ s3 =>
          match s3.unspill (ws.getD 0 0) (ws.getD 1 0) bytes with
          | some p => (s3.deliverHere p).map .done
          | none => some (.done s3)
        | r => r.redeliverFault true ea cid
      | (r, _) => r.redeliverFault false ea cid
  | (r, _, _, _) => r.redeliverFault false a cid

/-- SPILL_REDELIVERY (R109, R372): after a restore, the entry at head is delivered, or redelivery ends.  The context goes on
(steps 4 to 6 of R109) when it has ended, and where it pauses: what it pauses for is a hart's NFREE or reply (log entry
110). -/
def execSpillRedelivery (s : State) : Result :=
  match s.net.redeliver with
  | some (a, cid) =>
    if s.core.preempted || s.net.held.isSome then .next s
    else if a = 0 ∨ a.toNat % 64 ≠ 0 then .next ({ s with net := { s.net with redeliver := none } }.resumeContext)
    else match s.redeliverOne a cid with
      | none => .next s.resumeContext
      | some (.wait s1) => .next (s.waitsAs s1)
      | some (.done s1) => .next (if s1.net.redeliver.isNone || s1.net.held.isSome then s1.resumeContext else s1)
  | none => .next s

end Sys2Proof.Machine
end

