-- ==== Sys2Proof/Machine/Stream.lean ====
section
/-! DEFINITION. Streams: the words of major 1F, STRM, and the steps of the stream units (R416, R417, R420 to R432). -/

namespace Sys2Proof.Machine

/-! ### Slots -/

/-- A stream slot of the core. -/
def State.streamSlot (s : State) (k : Nat) : Option StreamSlot := Map.get none s.stream.slots k

/-- The state with a stream slot replaced. -/
def State.setStream (s : State) (k : Nat) (c : Option StreamSlot) : State :=
  { s with stream := { s.stream with slots := Map.set none s.stream.slots k c } }

/-- A graph slot; none while it is empty (R420). -/
def State.graph (s : State) (k : Nat) : Option (List Word) := Map.get none s.stream.graphs k

/-- The live stream that an id names, with its slot (R431). -/
def State.liveStream (s : State) (id : Word) : Option (Nat × StreamSlot) :=
  let k := id.toNat % 8
  match s.streamSlot k with
  | some c => if c.id.zeroExtend 64 = id then some (k, c) else none
  | none => none

/-! ### SCFG (R420, R421) -/

/-- Loads `n` words by loads of the hart, one after another, and goes on with them. -/
def loadImage (h : BitVec 1) (kind : Nat) : Nat → Word → List Word → State → (List Word → State → Result) → Result
  | 0, _, l, s, k => k l s
  | n + 1, a, l, s, k => (s.loadVa h a 8 kind).andThen (fun v s => loadImage h kind n (a + 8) (l ++ [word v]) s k)

/-- SCFG (R421): the request joins the sequencer's; a slot above 31 is answered with status 5. -/
def execScfg (d a b : BitVec 7) (s : State) : Result :=
  issue [d, a, b] s (fun h => needLevel 1 s h (
    let va := (s.hart h).reg b.toNat
    let slot := ((s.hart h).reg a.toNat).toNat
    if va.toNat % 32 ≠ 0 then s.scalarFault h 0x03 va 1 false 8
    else loadImage h 1 20 va [] s (fun img s =>
      if 31 < slot then .next ((s.lateReg h d.toNat 5 0).retire h)
      else
        let r : ScfgReq := { slot := slot, image := img, hart := h, dest := d.truncate 6 }
        .next (({ s with stream := { s.stream with reqs := s.stream.reqs ++ [r] } }.setPending h d.toNat).retire h))))

/-- Whether an open stream uses graph slot k. -/
def State.graphInUse (s : State) (k : Nat) : Bool :=
  s.stream.slots.any (fun e =>
    match e.2 with
    | some c => c.graph == k
    | none => false)

/-- SCFG_INSTALL (R419, R420): the oldest request for slot k is checked and answered once no open stream uses the slot;
an image that passes is written. -/
def execScfgInstall (k : BitVec 5) (s : State) : Result :=
  match s.stream.reqs.find? (fun r => r.slot == k.toNat) with
  | none => .next s
  | some r =>
    if s.graphInUse k.toNat then .next s
    else
      let st := graphStatus r.image
      let graphs := if st = 0 then Map.set none s.stream.graphs k.toNat (some r.image) else s.stream.graphs
      let s1 := { s with stream := { s.stream with reqs := s.stream.reqs.erase r, graphs := graphs } }
      .next (s1.arrive r.hart r.dest.toNat (word st))

/-! ### The parameter block (Table 18-8) -/

def StreamSlot.dir (c : StreamSlot) : Bool := bit c.ctl.toNat 5
def StreamSlot.nspace (c : StreamSlot) : Nat := bits c.ctl.toNat 6 2
def StreamSlot.dcore (c : StreamSlot) : Nat := bits c.ctl.toNat 8 10
def StreamSlot.ptype (c : StreamSlot) : Nat := bits c.ctl.toNat 18 5

/-- Bytes per beat of a secondary or index code: 2^(k+1), none for 0. -/
def beatBytes (k : Nat) : Nat := if k = 0 then 0 else 2 ^ (k + 1)
def StreamSlot.sbeat (c : StreamSlot) : Nat := beatBytes (bits c.ctl.toNat 23 3)
def StreamSlot.ibeat (c : StreamSlot) : Nat := beatBytes (bits c.ctl.toNat 26 3)

/-- The space of the primary: global under DIR 0. -/
def StreamSlot.sspace (c : StreamSlot) : Nat := if c.dir then c.nspace else 0

/-- The space of out0: global under DIR 1. -/
def StreamSlot.dspace (c : StreamSlot) : Nat := if c.dir then 0 else c.nspace

/-- Whether out0 lands on another core (R423). -/
def StreamSlot.away (c : StreamSlot) : Bool := c.dspace != 0 && c.dcore != c.core.toNat

/-- Elements of a primary beat: 128 bytes of PTYPE. -/
def StreamSlot.lanes (c : StreamSlot) : Nat := 1024 / max 1 (width c.ptype)

/-- First byte of beat b of the primary. -/
def StreamSlot.primAddr (c : StreamSlot) (b : Nat) : Word := c.src + wordOfInt ((b : Int) * c.stride)

/-- Bytes from one beat's dense output to the next: 128 × wt / wp (R423). -/
def StreamSlot.denseStep (c : StreamSlot) (t : Nat) : Nat := 128 * width t / max 1 (width c.ptype)

/-- The address that places beat b in an interleave unit (R424). -/
def StreamSlot.unitAddr (c : StreamSlot) (g : List Word) (b : Nat) : Word :=
  if c.dir then c.dst + word (b * c.denseStep (imgPort g 0).ty) else c.primAddr b

/-- Groups `n` beats from beat b into interleave units (R424): `cur` is the unit being formed. -/
def formUnits (f : Nat → Word) : Nat → Nat → StreamUnit → List StreamUnit
  | 0, _, cur => [cur]
  | n + 1, b, cur =>
    if (f b).toNat / 4096 = (f cur.first).toNat / 4096 then formUnits f n (b + 1) { cur with beats := cur.beats + 1 }
    else cur :: formUnits f n (b + 1) { first := b, beats := 1, stage := .waiting }

/-- The units of a stream. -/
def StreamSlot.formed (c : StreamSlot) (g : List Word) : List StreamUnit :=
  formUnits (c.unitAddr g) (c.len - 1) 1 { first := 0, beats := 1, stage := .waiting }

/-- The source range of a stream: its primary (R428). -/
def StreamSlot.srcRange (c : StreamSlot) : Range := rowsRange c.sspace false c.src.toNat c.stride c.len 128

/-- The destination range: out0's, as far as its placement can reach (R423, R428). -/
def StreamSlot.dstRange (c : StreamSlot) (g : List Word) : Range :=
  let p := imgPort g 0
  let n :=
    if p.mode = 3 then 128 * (c.formed g).length
    else if p.mode = 2 then rowBytes (c.len * c.lanes) (width p.ty)
    else c.len * c.denseStep p.ty
  { space := c.dspace, dst := true, lo := c.dst.toNat, hi := c.dst.toNat + n }

/-! ### SOPEN (R431) -/

/-- Reads a parameter block: a stream not yet opened. -/
def State.readStream (s : State) (h : BitVec 1) (o : Nat) : StreamSlot :=
  let at_ (k n : Nat) : Nat := s.scratchLoad false (o + k) n
  let stride := sext (at_ 0x34 4) 32
  let ctl := BitVec.ofNat 32 (at_ 0x38 4)
  { id := 0, ranges := [], graph := bits ctl.toNat 0 5, src := word (at_ 0 8), dst := word (at_ 8 8),
    src2 := word (at_ 0x10 8), idx := word (at_ 0x18 8), cdone := word (at_ 0x20 8),
    dst1 := word (at_ 0x28 8), len := at_ 0x30 4, stride := if stride = 0 then 128 else stride, ctl := ctl,
    const := BitVec.ofNat 32 (at_ 0x3C 4), core := s.core.coreId, cid := s.cid16, ptbase := s.core.ptbase,
    level := BitVec.ofNat 2 (s.hart h).pl, hart := h, rmode := (s.hart h).csr.rmode.truncate 3, units := [],
    home := none, pos0 := 0, pos1 := 0, nsat := 0, beatsDone := 0, status := 0, cancel := false, paused := false,
    order := 0 }

/-- Check 4: the graph against PTYPE, SBEAT and IBEAT.  A reserved PTYPE has no width (log entry 146). -/
def StreamSlot.graphBad (c : StreamSlot) (g : List Word) : Bool :=
  !typeOk c.ptype || (peReaders g 17).any (· != width c.ptype) ||
    (c.sbeat == 0 && !(readers g 18).isEmpty) || (c.ibeat == 0 && !(readers g 19).isEmpty)

/-- Check 6: alignment. -/
def StreamSlot.misaligned (c : StreamSlot) (g : List Word) : Bool :=
  let off (on : Bool) (a t : Nat) : Bool := on && decide (8 ≤ width t) && a % (width t / 8) != 0
  let stride := (wordOfInt c.stride).toNat
  (c.sspace == 0 && (c.src.toNat % 128 != 0 || stride % 128 != 0)) || (c.dspace == 0 && c.dst.toNat % 128 != 0) ||
    off true c.src.toNat c.ptype || off true stride c.ptype || off true c.dst.toNat (imgPort g 0).ty ||
    off ((imgPort g 1).mode != 0) c.dst1.toNat (imgPort g 1).ty ||
    off (!(readers g 18).isEmpty) c.src2.toNat (imgSect g) || off (!(readers g 19).isEmpty) c.idx.toNat (imgIdxt g)

/-- Check 7: the offset to report, and whether it is the destination's. -/
def State.streamOutside (s : State) (c : StreamSlot) (g : List Word) : Option (Int × Bool) :=
  if (c.nspace = 2 ∧ c.dcore ≠ c.core.toNat) ∨ s.liveHere c.dcore = false then some (c.dst.toNat, true)
  else match s.rangeOutside c.srcRange with
    | some x => some (x, false)
    | none => if c.away then none else (s.rangeOutside (c.dstRange g)).map (fun x => (x, true))

/-- The global ranges that a stream reads (R426), as first byte and bytes. -/
def StreamSlot.readRanges (c : StreamSlot) (g : List Word) : List (Int × Int) :=
  (if c.sspace = 0 then [(c.srcRange.lo, c.srcRange.hi)] else []) ++
  (if (readers g 18).isEmpty then [] else [((c.src2.toNat : Int), ((c.src2.toNat + c.len * c.sbeat : Nat) : Int))]) ++
  (if (readers g 19).isEmpty then [] else [((c.idx.toNat : Int), ((c.idx.toNat + c.len * c.ibeat : Nat) : Int))])

/-- Where out1 can land (R423): always global. -/
def StreamSlot.out1Range (c : StreamSlot) (g : List Word) : Range :=
  let p := imgPort g 1
  let n :=
    if p.mode = 3 then 128 * (c.formed g).length
    else if p.mode = 2 then rowBytes (c.len * c.lanes) (width p.ty)
    else c.len * c.denseStep p.ty
  { space := 0, dst := true, lo := c.dst1.toNat, hi := c.dst1.toNat + n }

/-- What a stream touches beside its interlock entries: its accesses there keep the hart's program order too, and a
release covers them (R289, R298, R310), though later accesses are not checked against them (R428). -/
def StreamSlot.others (c : StreamSlot) (g : List Word) : List Range :=
  let side (a : Word) (n : Nat) : Range := { space := 0, dst := false, lo := a.toNat, hi := a.toNat + c.len * n }
  (if (readers g 18).isEmpty then [] else [side c.src2 c.sbeat]) ++
  (if (readers g 19).isEmpty then [] else [side c.idx c.ibeat]) ++
  (if (imgPort g 1).mode = 0 then [] else [c.out1Range g]) ++
  [{ space := 0, dst := true, lo := c.cdone.toNat, hi := c.cdone.toNat + 8 }]

/-- Whether a superblock of the cache holds bytes of a range of virtual addresses of the running context, through whatever
address it was allocated. -/
def State.lineOf (s : State) (l : Line) (r : Int × Int) : Bool :=
  let first := r.1.toNat / 4096
  (List.range ((r.2 - r.1).toNat / 4096 + 2)).any (fun i =>
    let va := 4096 * (first + i) + l.tag % 16 * 256
    decide (r.1 < va + 256) && decide ((va : Int) < r.2) &&
      (s.peekTrans s.core.ptbase s.cid16 1 .probe (word va)).any (fun t => t.name / 256 == l.tag))

/-- The superblocks that SOPEN writes back (R287, R426): those with bytes of the ranges that the stream reads; where the
graph gathers, whose addresses are not known yet, all of them (log entry 147). -/
def State.streamReads (s : State) (c : StreamSlot) (g : List Word) (l : Line) : Bool :=
  !(imgAus g).isEmpty || (c.readRanges g).any (s.lineOf l)

/-- Whether an array store that the hart has issued before is still to write bytes that the stream reads (R289). -/
def State.storesOver (s : State) (c : StreamSlot) (g : List Word) : Bool :=
  s.core.queue.any (fun q => q.hart == c.hart && q.stage == .waiting && q.w.op.stores && q.w.op.space == some 0 &&
    q.addrs.any (fun a => !(imgAus g).isEmpty ||
      (c.readRanges g).any (fun r => decide (r.1 < a.va.toNat + 8) && decide ((a.va.toNat : Int) < r.2))))

/-- Opens a stream in slot k (R426, R428, R431): none while a write-back waits, or a store that comes before it. -/
def State.openStream (s : State) (c : StreamSlot) (g : List Word) (k : Nat) : Option State :=
  if s.storesOver c g then none
  else (s.overLines (s.streamReads c g) State.cleanLine).map (fun s =>
    let (order, s) := s.nextOrder
    let id := BitVec.ofNat 32 (s.stream.nextSeq.toNat * 8 + k)
    let ranges := c.srcRange :: (if c.away then [] else [c.dstRange g])
    let s := { s with stream := { s.stream with nextSeq := s.stream.nextSeq + 1 } }
    s.setStream k (some { c with
      id := id, ranges := ranges, touched := c.others g, units := c.formed g, order := order }))

/-- Checks 8 and 9, and what SOPEN does after its checks (R431). -/
def finishOpen (d : BitVec 7) (h : BitVec 1) (c : StreamSlot) (g : List Word) (s : State) : Result :=
  if c.cdone.toNat % 8 ≠ 0 then s.scalarFault h 0x03 c.cdone 2 true 8
  else match s.translate h .write c.cdone with
    | (.wait, s) => .next s
    | (.fault x _, s) => s.scalarFault h x c.cdone 2 true 8
    | (.ok t, s) =>
      if !t.ms then s.scalarFault h 0x07 c.cdone 2 true 8
      else match (List.range 8).find? (fun k => (s.streamSlot k).isNone) with
        | none => .next s
        | some k =>
          match s.openStream c g k with
          | none => .next s
          | some s1 =>
            match s1.streamSlot k with
            | some x => .next ((s1.lateReg h d.toNat (x.id.zeroExtend 64) 0).retire h)
            | none => .next s1

/-- SOPEN (R422, R431): the checks of Table 18-11 in order, behind the hart's scalar scratch stores, its command block among
them (R289, R308). -/
def execSopen (d a : BitVec 7) (s : State) : Result :=
  issue [d, a] s (fun h => s.withStores h (fun s =>
    let v := (s.hart h).reg a.toNat
    let o := v.toNat
    let c := s.readStream h o
    if o % 64 ≠ 0 then s.scalarFault h 0x03 v 6 false 64
    else if !s.within false o 64 then s.scalarFault h 0x07 v 6 false 64
    else if s.interlocked 1 o (o + 64) false then .next (s.stall h 0x06)
    else if s.arrayTouches 1 o 64 then .next s
    else if bits c.ctl.toNat 29 3 ≠ 0 ∨ c.nspace = 3 ∨ bits c.ctl.toNat 23 3 = 7 ∨ bits c.ctl.toNat 26 3 = 7 then
      s.trapDetail h 0x0B 1
    else if s.stream.reqs.any (fun r => r.slot == c.graph) then .next s
    else match s.graph c.graph with
      | none => s.trapDetail h 0x0B 2
      | some g =>
        if c.graphBad g then s.trapDetail h 0x0B 2
        else if c.len = 0 || ((imgPort g 1).mode != 0 && c.dst1 == 0) then s.trapDetail h 0x0B 3
        else if c.misaligned g then s.trapDetail h 0x0B 4
        else match s.streamOutside c g with
          | some (x, wr) =>
            s.scalarFault h 0x07 (wordOfInt x) 6 wr (width (if wr then (imgPort g 0).ty else c.ptype) / 8)
          | none => finishOpen d h c g s))

/-! ### SCLOSE and SSTAT (R432) -/

/-- Drops the units that are not started or are stalled (R427, R432). -/
def StreamSlot.dropUnits (c : StreamSlot) : StreamSlot :=
  { c with units := c.units.map (fun u =>
      match u.stage with
      | .finished => u
      | _ => { u with stage := .dropped }) }

/-- Ends a stream early with a status; the first status stays. -/
def StreamSlot.endWith (c : StreamSlot) (st : BitVec 4) : StreamSlot :=
  { c.dropUnits with status := if c.status = 0 then st else c.status }

/-- SCLOSE (R432). -/
def execSclose (a : BitVec 7) (s : State) : Result :=
  issue [a] s (fun h =>
    match s.liveStream ((s.hart h).reg a.toNat) with
    | some (k, c) => .next ((s.setStream k (some { c.endWith 1 with cancel := true })).retire h)
    | none => .next (s.retire h))

/-- STATE of Table 18-12. -/
def StreamSlot.state (c : StreamSlot) : Nat :=
  if c.cancel then 5
  else if c.paused then 4
  else if c.units.any (fun u =>
    match u.stage with
    | .stalled _ => true
    | _ => false) then 3
  else if c.units.all (fun u => u.stage == .waiting) then 1
  else 2

/-- SSTAT (R432). -/
def execSstat (d a : BitVec 7) (s : State) : Result :=
  issue [d, a] s (fun h =>
    let v := match s.liveStream ((s.hart h).reg a.toNat) with
      | some (_, c) =>
        word (c.state * 2 ^ 60 + min c.nsat 65535 * 2 ^ 44 + c.status.toNat * 2 ^ 40 + c.beatsDone % 2 ^ 32)
      | none => 0
    .next ((s.lateReg h d.toNat v 0).retire h))

/-! ### Running a unit (R416, R417, R423 to R427) -/

/-- A fault of a unit: cause, whether the access writes, address, bytes to the end of its access (Table 18-9). -/
structure StreamFault where
  cause : Nat
  wr : Bool
  addr : Word
  elen : Nat

/-- A run over the beats of a unit. -/
structure StreamRun where
  s : State
  nsat : Nat
  pos0 : Nat
  pos1 : Nat
  /-- elements of the unit for per-unit ports -/
  unit0 : List Nat
  unit1 : List Nat
  /-- running values of `reduce`, by PE × 256 + lane -/
  red : Map (Option Num)
  /-- a bus error has ended the stream -/
  bus : Bool
  fault : Option StreamFault
  wait : Bool
  /-- the present beat's elements by source code; none for one that `filter` dropped -/
  vals : List (Nat × List (Option Nat))
  /-- the present beat met a bus error -/
  bad : Bool
  /-- the fabric that runs the unit -/
  fabric : Nat
  /-- the blocks of layer space that have crossed for its stream (R276) -/
  seen : List (Bool × Nat)

/-- Whether the present beat goes no further. -/
def StreamRun.stopped (r : StreamRun) : Bool := r.wait || r.bad || r.fault.isSome

/-- The engine of a stream as its accesses from a fabric know it. -/
def StreamSlot.engine (c : StreamSlot) (f : Nat) : EngineId :=
  { kind := 3, ptbase := c.ptbase, cid := c.cid, level := c.level, route := .fabric f }

/-- Bytes to the end of the 4 KiB unit of an address. -/
def toUnitEnd (a : Word) : Nat := 4096 - a.toNat % 4096

/-- The address that a fault at byte `a` of an access from byte `first` is recorded with: the first byte of the access,
or of the part of it that lies in the page of `a` (Table 18-9). -/
def faultAddr (first a : Word) : Word :=
  if first.toNat / 4096 = a.toNat / 4096 then first else word (a.toNat / 4096 * 4096)

/-- `n` bytes of a space from byte `a` have crossed the layer bus: a beat for each new block (R276). -/
def StreamRun.cross (r : StreamRun) (dst : Bool) (space : Nat) (a n : Nat) : StreamRun :=
  if space ≠ 2 then r
  else
    let new := ([(dst, a / 128), (dst, (a + n - 1) / 128)].eraseDups).filter (fun b => !r.seen.contains b)
    { r with seen := r.seen ++ new, s := r.s.beats new.length }

/-- Notes what an access of the run came to; `k` goes on with its value. -/
def StreamRun.access (r : StreamRun) (x : EngineResult) (wr : Bool) (a : Word) (elen : Nat)
    (k : Nat → StreamRun → StreamRun) : StreamRun :=
  match x with
  | .ok v s => k v { r with s := s }
  | .error s => { r with s := s, bad := true, bus := true }
  | .fault c s => { r with s := s, fault := some { cause := c, wr := wr, addr := a, elen := elen } }
  | .wait s => { r with s := s, wait := true }

/-- Loads `n` bytes of a space, by pieces within 64-byte sectors: `acc` holds the first `sh` bytes.  `first` is where the
access began, and `whole` the size that a fault of a gathered element is recorded with. -/
def loadSpan (e : EngineId) (space : Nat) (first : Word) (whole : Option Nat) :
    Nat → Word → Nat → Nat → Nat → StreamRun → (Nat → StreamRun → StreamRun) → StreamRun
  | 0, _, _, _, acc, r, k => k acc r
  | f + 1, a, n, sh, acc, r, k =>
    if n = 0 then k acc r
    else
      let m := min n (64 - a.toNat % 64)
      let at_ := match whole with
        | some w => (first, w)
        | none => (faultAddr first a, toUnitEnd (faultAddr first a))
      r.access (r.s.spaceLoad e space a m) false at_.1 at_.2 (fun v r =>
        loadSpan e space first whole f (a + word m) (n - m) (sh + m) (acc + v * 256 ^ sh) r k)

/-- The elements of `n` bytes that hold the number `v`. -/
def splitElems (t n v : Nat) : List (Option Nat) :=
  let w := max 1 (width t)
  (List.range (8 * n / w)).map (fun i => some (bits v (w * i) w))

/-- The elements of a source in the present beat; a source with the same value in every lane has `n` of them. -/
def StreamRun.source (r : StreamRun) (c : StreamSlot) (n w code : Nat) : List (Option Nat) :=
  if code = 0 then List.replicate n (some 0)
  else if code = 20 then List.replicate n (some (c.const.toNat % 2 ^ w))
  else (r.vals.lookup code).getD []

/-- One element of a PE: inputs are paired by beat index, and an input delivers 0 beyond its elements (R412). -/
def peElem (p : Pe) (k mode i : Nat) (ins : List (List (Option Nat))) (r : StreamRun × List (Option Nat)) :
    StreamRun × List (Option Nat) :=
  let get (j : Nat) : Option Nat :=
    let x := ins.getD j []
    (x[if p.op = 17 ∧ j = 1 then i / 32 else i]?).getD (some 0)
  let key := k * 256 + i % (1024 / max 1 (width p.tin))
  match get 0, get 1, get 2 with
  | some a, some b, some c =>
    let (v, sat, acc) := p.apply mode i ((Map.get none r.1.red key).getD p.empty) a b c
    let red := if p.op = 19 then Map.set none r.1.red key (some acc) else r.1.red
    ({ r.1 with red := red, nsat := r.1.nsat + b2n sat }, r.2 ++ [v])
  | _, _, _ => (r.1, r.2 ++ [none])

/-- PE k in the present beat (R412, R415): one result for each beat index of the primary. -/
def StreamRun.runPe (r : StreamRun) (c : StreamSlot) (g : List Word) (k : Nat) : StreamRun :=
  let p := imgPe g k
  let mode := noStochastic (if p.rnd = 6 then c.rmode.toNat else p.rnd)
  let n := c.lanes
  let ins := p.inputs.map (r.source c n (width p.tin))
  let (r, out) := (List.range n).foldl (fun a i => peElem p k mode i ins a) (r, [])
  { r with vals := (k + 1, out) :: r.vals }

/-- The base of an address unit (Table 18-6). -/
def StreamSlot.auBase (c : StreamSlot) (u : AddrUnit) : Word :=
  match u.base with
  | 0 => c.src2
  | 1 => c.idx
  | 2 => c.dst1
  | _ => 0

/-- The hops of a chain (R416): `k` is told the last value, none when a hop read 0xFFFF_FFFF. -/
def chainHops (e : EngineId) (base : Word) (sh : Nat) :
    Nat → Int → StreamRun → (Option Int → StreamRun → StreamRun) → StreamRun
  | 0, v, r, k => k (some v) r
  | n + 1, v, r, k =>
    let a := base + wordOfInt (v * (2 ^ sh : Nat))
    loadSpan e 0 a (some 4) 2 a 4 0 0 r (fun x r =>
      if x = 2 ^ 32 - 1 then k none r else chainHops e base sh n x r k)

/-- One lane of an address unit (R416): its element, or 0 where a chain ended. -/
def StreamRun.lane (c : StreamSlot) (u : AddrUnit) (signed : Bool) (r : StreamRun × List (Option Nat)) (x : Option Nat) :
    StreamRun × List (Option Nat) :=
  if r.1.stopped then r
  else match x with
    | none => (r.1, r.2 ++ [none])
    | some i =>
      let e := c.engine r.1.fabric
      let base := c.auBase u
      let n := width u.et / 8
      let v : Int := if signed then sext i 32 else i
      -- the run of one lane is made with its result in `vals`, under a code that no source has
      let out (y : Nat) (q : StreamRun) : StreamRun := { q with vals := (99, [some y]) :: q.vals }
      let last (v : Option Int) (q : StreamRun) : StreamRun :=
        match v with
        | none => out 0 q
        | some v =>
          let a := base + wordOfInt (v * (2 ^ u.sh : Nat))
          loadSpan e 0 a (some n) 2 a n 0 0 q out
      let q := if u.mode = 2 then chainHops e base u.sh (u.depth - 1) v r.1 last else last (some v) r.1
      if q.stopped then (q, r.2) else ({ q with vals := q.vals.tail }, r.2 ++ ((q.vals.lookup 99).getD []))

/-- The elements of a source for a reader that is no PE: where its type is not of the reader's width, which no check
refuses (log entry 146), each element is a free value of `w` bits. -/
def StreamRun.sourceAs (r : StreamRun) (c : StreamSlot) (g : List Word) (w code : Nat) : List (Option Nat) × StreamRun :=
  let els := r.source c c.lanes w code
  let have_ := if code = 17 then width c.ptype else ((sourceType g code 9).map width).getD w
  if have_ = w ∨ code = 0 ∨ code = 20 then (els, r)
  else els.foldl (fun a x =>
    match x with
    | none => (a.1 ++ [none], a.2)
    | some _ =>
      let (n, s) := a.2.s.draw
      (a.1 ++ [some ((Config.laneValue n).toNat % 2 ^ w)], { a.2 with s := s })) ([], r)

/-- Address unit k in the present beat (R416). -/
def StreamRun.runAu (r : StreamRun) (c : StreamSlot) (g : List Word) (k : Nat) : StreamRun :=
  let u := imgAu g k
  if u.mode = 0 then { r with vals := (21 + k, List.replicate c.lanes (some 0)) :: r.vals }
  else
    let t := if u.src = 17 then c.ptype else (sourceType g u.src 9).getD 9
    let (lanes, r) := r.sourceAs c g 32 u.src
    let (r, out) := lanes.foldl (fun a x => StreamRun.lane c u (isSigned t) a x) (r, [])
    { r with vals := (21 + k, out) :: r.vals }

/-- The lanes of a PE or unit that waits for itself, as free values (log entry 78). -/
def StreamRun.loopLanes (r : StreamRun) (c : StreamSlot) (g : List Word) (code : Nat) : StreamRun :=
  let w := ((sourceType g code 9).map width).getD 0
  let (out, s) := (List.range c.lanes).foldl (fun (a : List (Option Nat) × State) _ =>
    let (n, s) := a.2.draw
    (a.1 ++ [some ((Config.laneValue n).toNat % 2 ^ w)], s)) ([], r.s)
  { r with s := s, vals := (code, out) :: r.vals }

/-- The PEs and units of a graph, in an order in which each comes after its sources; those that wait for each other
deliver free values. -/
def StreamRun.runGraph (r : StreamRun) (c : StreamSlot) (g : List Word) : StreamRun :=
  (imgOrder g).foldl (fun r k =>
    if r.stopped then r else if k ≤ 16 then r.runPe c g (k - 1) else r.runAu c g (k - 21))
    ((imgLooped g).foldl (fun r k => r.loopLanes c g k) r)

/-- Stores one output element of an access from byte `at_` on (R271, R423): into the core's own scratch only within its
extent, else a fault, and on another core as that core's network interface lands it, a failure being an error in the log
of its quadrant (R362). -/
def StreamRun.put (r : StreamRun) (c : StreamSlot) (j t : Nat) (at_ a : Word) (i x : Nat) : StreamRun :=
  let space := if j = 0 then c.dspace else 0
  if r.stopped then r
  else if j = 0 ∧ c.away = true then
    let (n, s) := r.s.draw
    if Config.remoteError n then
      let s := s.logViolation (bits c.dcore 7 2) c.core.toNat 3 3 (elemAddr a t i) c.cid.toNat
      { r with s := s, bad := true, bus := true }
    else { r with s := s }
  else
    let first := faultAddr at_ (elemAddr a t i)
    r.access (r.s.storeElem (c.engine r.fabric) space t a i x) true first (toUnitEnd first)
      (fun _ r => r.cross true space (elemAddr a t i).toNat ((width t + 7) / 8))

/-- The outputs of beat b at port j (R423). -/
def StreamRun.emit (c : StreamSlot) (g : List Word) (b j : Nat) (r : StreamRun) : StreamRun :=
  let p := imgPort g j
  let base := if j = 0 then c.dst else c.dst1
  if r.stopped || p.mode == 0 then r
  else
    let (lanes, r) := r.sourceAs c g (width p.ty) p.src
    let els := lanes.filterMap id
    match p.mode with
    | 1 =>
      let a := base + word (b * c.denseStep p.ty)
      els.zipIdx.foldl (fun r e => r.put c j p.ty a a e.2 e.1) r
    | 2 =>
      let pos := if j = 0 then r.pos0 else r.pos1
      let at_ := elemAddr base p.ty pos
      let r := els.zipIdx.foldl (fun r e => r.put c j p.ty at_ base (pos + e.2) e.1) r
      if j = 0 then { r with pos0 := pos + els.length } else { r with pos1 := pos + els.length }
    | _ => if j = 0 then { r with unit0 := r.unit0 ++ els } else { r with unit1 := r.unit1 ++ els }

/-- The outputs of a beat or of a unit's end, from the run before them (R427): a bus error leaves all of them unwritten, and
only what it was reported with stays. -/
def StreamRun.whole (before after : StreamRun) : StreamRun :=
  if after.bad then
    let home := { before.s.home with vlog := after.s.home.vlog, overrun := after.s.home.overrun }
    { before with s := { before.s with home := home, free := after.s.free }, bad := true, bus := true }
  else after

/-- Beat b (R422, R427): its reads, its graph, its outputs. -/
def StreamRun.beat (c : StreamSlot) (g : List Word) (b : Nat) (r : StreamRun) : StreamRun :=
  let e := c.engine r.fabric
  if r.wait || r.fault.isSome then r
  else
    let r := { r with vals := [], bad := false }
    let side (code t n : Nat) (a : Word) (k : StreamRun → StreamRun) (r : StreamRun) : StreamRun :=
      if (readers g code).isEmpty then k r
      else loadSpan e 0 a none 4 a n 0 0 r (fun v r => k { r with vals := (code, splitElems t n v) :: r.vals })
    let r := loadSpan e c.sspace (c.primAddr b) none 4 (c.primAddr b) 128 0 0 r (fun v r =>
      let r := { r.cross false c.sspace (c.primAddr b).toNat 128 with vals := (17, splitElems c.ptype 128 v) :: r.vals }
      side 18 (imgSect g) c.sbeat (c.src2 + word (b * c.sbeat))
        (side 19 (imgIdxt g) c.ibeat (c.idx + word (b * c.ibeat)) (fun r => r.runGraph c g)) r)
    StreamRun.whole r (StreamRun.emit c g b 1 (StreamRun.emit c g b 0 r))

/-- The last 1,024-bit word of a unit's elements, partial when they do not end on a word boundary (R423). -/
def lastWord (w : Nat) (els : List Nat) : Nat :=
  let per := max 1 (1024 / max 1 w)
  let n := els.length
  let start := if n = 0 then 0 else (n - 1) / per * per
  (els.drop start).zipIdx.foldl (fun a e => a + e.1 % 2 ^ w * 2 ^ (w * e.2)) 0

/-- The word that a per-unit port writes at the end of unit u (R423): 128 bytes, by elements of its type, to whose size
its place is aligned (R431), or by bytes for a smaller type. -/
def StreamRun.endUnit (c : StreamSlot) (g : List Word) (u j : Nat) (r : StreamRun) : StreamRun :=
  let p := imgPort g j
  if r.wait || r.fault.isSome || p.mode != 3 then r
  else
    let base := (if j = 0 then c.dst else c.dst1) + word (128 * u)
    let v := lastWord (width p.ty) (if j = 0 then r.unit0 else r.unit1)
    let t := if 8 ≤ width p.ty then p.ty else 0x05
    let w := width t
    let r := { r with bad := false }
    StreamRun.whole r ((List.range (1024 / w)).foldl (fun r i => r.put c j t base base i (bits v (w * i) w)) r)

/-- Unit u of a stream, all its beats, in fabric `f` (R424). -/
def State.runUnit (s : State) (c : StreamSlot) (g : List Word) (u : Nat) (x : StreamUnit) (f : Nat) : StreamRun :=
  let r : StreamRun := {
    s := s, nsat := 0, pos0 := c.pos0, pos1 := c.pos1, unit0 := [], unit1 := [], red := [], bus := false, fault := none,
    wait := false, vals := [], bad := false, fabric := f, seen := c.crossed }
  let r := loop (StreamRun.beat c g) x.first x.beats r
  StreamRun.endUnit c g u 1 (StreamRun.endUnit c g u 0 r)

/-- Where the unit of beat b of a stream lies (R424, R425): the controller or port that owns it, and whether its page is
pinned there. -/
def State.unitHome (s : State) (c : StreamSlot) (g : List Word) (b : Nat) : Except Nat (Nat × Bool) × State :=
  match s.translateOwner c.ptbase c.cid c.level.toNat (if c.dir then .write else .read) (c.unitAddr g b) with
  | (.fault k _, s) => (.error k, s)
  | (.ok t, s) => (.ok (t.fabric, !t.mmio && (pteHome t.leaf == 1 || pteHome t.leaf == 3)), s)
  | (.wait, s) => (.error 0x04, s)

/-- The stream with the stage of a unit replaced. -/
def StreamSlot.setUnit (c : StreamSlot) (u : Nat) (st : UnitStage) : StreamSlot :=
  { c with units := c.units.modify u (fun x => { x with stage := st }) }

/-- A unit stalls on a fault record (R427, Table 18-9); none while the queue is full. -/
def State.stallUnit (s : State) (c : StreamSlot) (k u : Nat) (f : StreamFault) : Option State :=
  if !s.canDeposit then none
  else
    let (q, s) := s.deposit {
      addr := f.addr, stride := 0, remain := 1, elen := f.elen, tag := c.id.toNat, cause := f.cause, source := 3,
      wr := f.wr, cid := c.cid }
    some (s.setStream k (some (c.setUnit u (.stalled q))))

/-- Whether a unit has not started. -/
def StreamUnit.waits (x : StreamUnit) : Bool := x.stage == .waiting

/-- Whether unit u of a stream may start: it waits, nothing before the stream holds it back, and on one fabric every
earlier unit is over (R162, R310, R424, R425, R429).  While the page of the first unit has no translation, the others go on as of
an interleaved stream (R427); packed output knows its place only behind it. -/
def State.unitReady (s : State) (c : StreamSlot) (g : List Word) (u : Nat) (x : StreamUnit) : Bool :=
  x.waits && !c.paused && !(c.inSram && s.behindRole c.order) && !(c.ranges.any (fun r => r.space == 2) && s.layerHeld) &&
    (c.units.any (fun y => !y.waits) || !s.startHeld c.hart c.order c.cid (c.ranges ++ c.touched)) &&
    (match c.home with
     | some none => true
     | none => u == 0 || !(imgPorts g).any (fun p => p.mode == 2)
     | some (some _) => (c.units.take u).all (fun y => y.stage == .finished || y.stage == .dropped))

/-- The stream with its place, which its first unit decides (R425). -/
def StreamSlot.placed (c : StreamSlot) (u f : Nat) (pinned : Bool) : StreamSlot :=
  if u = 0 ∧ c.home.isNone = true then { c with home := some (if pinned then some f else none) } else c

/-- Before another unit than the first runs, the stream has its place by the page of the first one (R424, R425); without a
translation of that page it has none yet. -/
def State.placeStream (s : State) (c : StreamSlot) (g : List Word) (u : Nat) : StreamSlot × State :=
  if c.home.isSome || u == 0 then (c, s)
  else match s.unitHome c g 0 with
    | (.ok (f, pinned), s1) => ({ c with home := some (if pinned then some f else none) }, s1)
    | (.error _, s1) => (c, s1)

/-- Whether unit u on controller or port `f` ends its stream with status 3 (R425): packed output of a stream whose first
unit is interleaved; on one fabric, a unit anywhere else, the present one or one that has run already. -/
def State.wrongFabric (s : State) (c : StreamSlot) (g : List Word) (f : Nat) : Bool :=
  match c.home with
  | none => false
  | some none => (imgPorts g).any (fun p => p.mode == 2)
  | some (some k) => f != k || (c.units.drop 1).any (fun y => y.stage == .finished &&
      (match (s.unitHome c g y.first).1 with
       | .ok (f, _) => f != k
       | .error _ => false))

/-- The stream after unit u has run (R427). -/
def StreamSlot.ran (c : StreamSlot) (u : Nat) (x : StreamUnit) (r : StreamRun) : StreamSlot :=
  let c1 := { c.setUnit u .finished with
    nsat := min (c.nsat + r.nsat) 65535, pos0 := r.pos0, pos1 := r.pos1, beatsDone := c.beatsDone + x.beats
    crossed := r.seen }
  if r.bus then c1.endWith 2 else c1

/-- STREAM_UNIT (R424, R425, R427): unit u of the stream in slot k runs. -/
def execStreamUnit (k : BitVec 3) (u : Nat) (s : State) : Result :=
  match s.streamSlot k.toNat with
  | none => .next s
  | some c =>
    match s.graph c.graph, c.units[u]? with
    | some g, some x =>
      let (c, s0) := s.placeStream c g u
      if !s0.unitReady c g u x then .next s
      else match s0.unitHome c g x.first with
        | (.error cause, s1) =>
          let a := c.unitAddr g x.first
          .next ((s1.stallUnit c k.toNat u { cause := cause, wr := c.dir, addr := a, elen := toUnitEnd a }).getD s)
        | (.ok (f, pinned), s1) =>
          let c := c.placed u f pinned
          if c.home.isNone && pinned then .next s
          else if s1.wrongFabric c g f then .next (s1.setStream k.toNat (some (c.endWith 3)))
          else
            let r := s1.runUnit c g u x f
            if r.wait then .next s
            else match r.fault with
              | some f => .next ((r.s.stallUnit c k.toNat u f).getD s)
              | none => .next (r.s.setStream k.toNat (some (c.ran u x r)))
    | _, _ => .next s

/-- The opening core's stream unit, which stores the completion word (R401, R428). -/
def StreamSlot.completer (c : StreamSlot) : EngineId :=
  { kind := 3, ptbase := c.ptbase, cid := c.cid, level := c.level, route := .core }

/-- The completion word (R428). -/
def StreamSlot.doneWord (c : StreamSlot) : Nat := if c.status = 0 then 1 else 0x100 + c.status.toNat

/-- The stream in slot k is over (R428, R432): its entries and its slot are free, and a status 2 or 3 makes the opening hart
take trap 0x15. -/
def State.endStream (s : State) (c : StreamSlot) (k : Nat) : State :=
  let s1 := s.setStream k none
  if c.status = 2 ∨ c.status = 3 then
    s1.modHart c.hart (fun x => { x with streamEv := x.streamEv ++ [(c.id.zeroExtend 64, c.status.zeroExtend 8)] })
  else s1

/-- STREAM_COMPLETE (R428): every unit has finished or been dropped; the completion word is stored by an access of its own
translation (R403), and the stream is over.  A fault of that store waits on a record, as one of a unit does (R427, R440; log
entry 158). -/
def execStreamComplete (k : BitVec 3) (s : State) : Result :=
  match s.streamSlot k.toNat with
  | none => .next s
  | some c =>
    let word_ : Range := { space := 0, dst := true, lo := c.cdone.toNat, hi := c.cdone.toNat + 8 }
    if c.paused || c.doneOn.isSome || !c.units.all (fun u => u.stage == .finished || u.stage == .dropped) ||
        s.accessOver c.hart c.order word_ then .next s
    else match s.engineStore c.completer c.cdone 0 64 c.doneWord with
      | .wait s1 => .next (s.waitsAs s1)
      | .fault cause s1 =>
        if !s1.canDeposit then .next s
        else
          let (q, s2) := s1.deposit {
            addr := c.cdone, stride := 0, remain := 1, elen := toUnitEnd c.cdone, tag := c.id.toNat, cause := cause,
            source := 3, wr := true, cid := c.cid }
          .next (s2.setStream k.toNat (some { c with doneOn := some q }))
      | .ok _ s1 => .next (s1.endStream c k.toNat)
      | .error s1 => .next (s1.endStream c k.toNat)

end Sys2Proof.Machine
end

