-- ==== Sys2Proof/Machine/Sys.lean ====
section
/-! DEFINITION. The words of major 19, SYS, and the steps at which harts take interrupts and asynchronous traps (R94,
R95, R104, R136, R142, R144, R146, R149, R150). -/

namespace Sys2Proof.Machine

/-! ### Traps and returns -/

/-- ECALL (Table 06-7): trap 0x12. -/
def execEcall (s : State) : Result := hartOnly s (fun h => s.trap h 0x12)

/-- EBREAK (Table 06-7): trap 0x13. -/
def execEbreak (s : State) : Result := hartOnly s (fun h => s.trap h 0x13)

/-- ERET (R146). -/
def execEret (s : State) : Result :=
  hartOnly s (fun h => needLevel 1 s h (.next ((s.returnTrap h).count h 0x02 1)))

/-! ### Hart states (R150) -/

/-- Whether an interrupt whose IE bit is 1 has its IP bit set; STATUS.IE plays no part (R150). -/
def State.wakes (s : State) (h : BitVec 1) : Bool :=
  (List.range 7).any (fun k => s.ipHolds h k && bit (s.hart h).csr.ie.toNat k)

/-- SLEEP (R150). -/
def execSleep (s : State) : Result :=
  hartOnly s (fun h => if s.wakes h then .next (s.retire h) else .next (s.sleepIn h .sleep))

/-- Resumes a parked hart at its EPC, with its saved prefix re-applied (R101, R150).  DESIGN CHOICE (log entry 162): a jump
behind an FMT (R81) whose fetch has faulted is forgotten, as at a return through ERET. -/
def State.resume (s : State) (h : BitVec 1) : State :=
  s.modHart h (fun x =>
    { x with
      csr := { x.csr with status := wset x.csr.status 6 1 0 }
      pc := x.csr.epc
      fmt := if x.pp then some { bits := x.csr.pfx.truncate 26, reapplied := true } else none
      jumped := false, run := .running })

/-- SWITCH (R150). -/
def execSwitch (s : State) : Result :=
  hartOnly s (fun h => needLevel 1 s h (
    let o := other h
    let s1 :=
      if (s.hart o).run = .parked none ∧ (s.hart h).parkedPeer = true then (s.setStatus h 9 1 0).resume o
      else if (s.hart o).run = .asleep .sleep then s.retire o
      else s
    .next (s1.retire h)))

/-- HALT (R150): the PC goes on to the next word when the hart is released (R476). -/
def execHalt (s : State) : Result :=
  hartOnly s (fun h => needLevel 0 s h (.next (s.modHart h (fun x => { x with run := .halted }))))

/-- AOWN (R94, R95): array ownership passes to the other hart; inside an open block it traps as 0x0A. -/
def execAown (s : State) : Result :=
  hartOnly s (fun h =>
    let x := s.hart h
    if !x.ao || x.mb then s.trap h 0x0A else .next ((s.giveArray (other h)).retire h))

/-- Whether global stores of hart `h` are still to be performed: posted, of array words, or remote additions. -/
def State.storing (s : State) (h : BitVec 1) : Bool :=
  s.home.posted.any (fun p => p.hart == h && !p.done) || s.home.vstr.any (fun v => v.hart == h) ||
  s.core.queue.any (fun q => q.hart == h && q.stage == .waiting && q.w.op.stores && q.w.op.space == some 0)

/-- ICINV (Table 06-7): once the hart's stores are performed, which later fetches see, the instruction cache of the core is
emptied. -/
def execIcinv (s : State) : Result :=
  hartOnly s (fun h =>
    if s.storing h then .next s else .next ({ s with mmu := { s.mmu with icache := [] } }.retire h))

/-- SLEEP_WAKE (R150): SLEEP completes, with the interrupt still pending, where the hart cannot take it: STATUS.IE is 0,
or a broadcast block is open (R232). -/
def execSleepWake (h : BitVec 1) (s : State) : Result :=
  let x := s.hart h
  if x.run = .asleep .sleep ∧ s.wakes h = true ∧ (x.ieOn = false ∨ x.mb = true) then .next (s.retire h) else .next s

/-! ### Interrupts and asynchronous traps (R142) -/

/-- PEER_FAULT_INTERRUPT (R101, R142). -/
def execPeerFaultInterrupt (h : BitVec 1) (s : State) : Result := s.asyncEvent h .peerFault
/-- MESH_INTERRUPT (R142, R369). -/
def execMeshInterrupt (h : BitVec 1) (s : State) : Result := s.asyncEvent h .mesh
/-- CYCLE_COMPARE (R142). -/
def execCycleCompare (h : BitVec 1) (s : State) : Result := s.asyncEvent h .cycleCompare
/-- MAILBOX_INTERRUPT (R142, R390). -/
def execMailboxInterrupt (h : BitVec 1) (s : State) : Result := s.asyncEvent h .mailbox
/-- FAULT_QUEUE_NON_EMPTY (R142, R405). -/
def execFaultQueueNonEmpty (h : BitVec 1) (s : State) : Result := s.asyncEvent h .faultQueue
/-- MICRO_THREAD_SUMMARY (R142, R231). -/
def execMicroThreadSummary (h : BitVec 1) (s : State) : Result := s.asyncEvent h .mtSummary
/-- MANAGEMENT_INTERRUPT (R142, R462). -/
def execManagementInterrupt (h : BitVec 1) (s : State) : Result := s.asyncEvent h .management
/-- ARRAY_PARITY_TRAP (R142, R174). -/
def execArrayParityTrap (h : BitVec 1) (s : State) : Result := s.asyncEvent h .parity
/-- BUS_ERROR_TRAP (R142, R317). -/
def execBusErrorTrap (h : BitVec 1) (s : State) : Result := s.asyncEvent h .busError
/-- STREAM_FAULT_TRAP (R142, R428). -/
def execStreamFaultTrap (h : BitVec 1) (s : State) : Result := s.asyncEvent h .streamFault
/-- DIRECTORY_OVERFLOW_TRAP (R142, R443). -/
def execDirectoryOverflowTrap (h : BitVec 1) (s : State) : Result := s.asyncEvent h .dirOverflow
/-- MICRO_THREAD_FAULT_TRAP (R142, R241). -/
def execMicroThreadFaultTrap (h : BitVec 1) (s : State) : Result := s.asyncEvent h .mtFault

end Sys2Proof.Machine
end

