-- ==== Sys2Proof/Machine/Reply.lean ====
section
/-! DEFINITION. Replies to fault records: their effect on the agents that wait, and parked replies (R408, R409, R411,
R427, R440). -/

namespace Sys2Proof.Machine

/-- Fields of a record (Table 17-6). -/
def FaultRec.tag (r : FaultRec) : Nat := wf r.w3 0 32
def FaultRec.cause (r : FaultRec) : Nat := wf r.w3 32 8
def FaultRec.source (r : FaultRec) : Nat := wf r.w3 40 4
def FaultRec.cid (r : FaultRec) : BitVec 16 := BitVec.ofNat 16 (wf r.w3 48 16)

/-- The outstanding record of this core with a sequence number: in its fault queue, or in the host fault buffer (R405,
R411). -/
def State.outstanding (s : State) (q : BitVec 16) : Option FaultRec :=
  match s.mmu.queue.find? (fun r => r.seq == q) with
  | some r => some r
  | none => (s.host.faultBuf.find? (fun e => e.core == s.core.coreId && e.rec_.seq == q)).map (·.rec_)

/-- A record that waits for the host fault buffer enters it as soon as there is room (R411). -/
def State.sendWaiting (s : State) : State :=
  s.mmu.unsent.foldl (fun s r => s.sendRecord r) { s with mmu := { s.mmu with unsent := [] } }

/-- The state without that record: its reply has ended it (R408). -/
def State.endRecord (s : State) (q : BitVec 16) : State :=
  State.sendWaiting { s with
    mmu := { s.mmu with queue := s.mmu.queue.filter (fun r => r.seq != q) }
    host := { s.host with
      faultBuf := s.host.faultBuf.filter (fun e => !(e.core == s.core.coreId && e.rec_.seq == q)) } }

/-! ### Overflow buffers (R440) -/

/-- The held superblock that a record's address reaches: its codec, and the block. -/
def State.heldAt (s : State) (r : FaultRec) : Option (Nat × HeldBlock) :=
  (s.peekTrans s.core.ptbase r.cid 1 .probe r.w0).bind (fun t =>
    let (f, o) := frameOf t.name
    let ci := unitCodec (unitOf (f * 1024))
    ((s.codec ci).overflow.find? (fun x => x.frame == f && x.sb == o / 256)).map (fun x => (ci, x)))

/-- Discards a held superblock (R440): the frame's form stands again, and the violation log takes an entry. -/
def State.discardHeld (s : State) (r : FaultRec) : State :=
  match s.heldAt r with
  | none => s
  | some (ci, x) =>
    let c := s.codec ci
    let s := s.setCodec ci { c with overflow := c.overflow.erase x }
    let mem := Memory.store s.home.mem (2 ^ 48 + x.frame * 4096 + 256 * x.sb) 256 x.old
    let s := ({ s with home := { s.home with mem := mem } }).dropLlc ((2 ^ 48 + x.frame * 4096 + 256 * x.sb) / 256)
    let pa := x.frame * 1024
    s.logViolation (unitQuadrant (unitOf pa)) s.core.coreId.toNat r.source 5 (word pa) r.cid.toNat

/-- A held superblock is placed again, and a new record deposited when it still does not fit (R440). -/
def State.placeHeld (s : State) (r : FaultRec) : State :=
  match s.heldAt r with
  | none => s
  | some (_, x) =>
    match s.recode x.frame x.sb false s.home.mem with
    | (.overflow, s1) => (s1.depositOverflow r.w0 r.cid).getD s
    | (_, s1) => s1

/-! ### Agents (R408) -/

/-- A parked hart of host-assisted paging (R411): retry re-executes its instruction; abort makes it take the fault as an
ordinary trap. -/
def State.replyHart (s : State) (h : BitVec 1) (q : BitVec 16) (abort : Bool) (r : FaultRec) : State :=
  let x := s.hart h
  if x.run = .parked (some q) then
    if abort then
      s.enterTrap h r.cause 0 x.csr.epc (if x.pp then some (x.csr.pfx.truncate 26) else none)
    else s.resume h
  else s

/-- A copy transfer (R349): its promise is revised (R348); retry resumes it, abort ends it with STATUS 2. -/
def State.replyCopy (s : State) (q : BitVec 16) (abort : Bool) (r : FaultRec) : State :=
  let k := r.tag % 64
  match s.copySlot k with
  | none => s
  | some c =>
    if c.stage = .stalled q ∧ c.cancel = false then
      let c := s.revised { c with stage := .running }
      s.setCopy k (some (if abort then { c with ended := true, status := 2 } else c))
    else s

/-- A stream (R427): retry starts the unit again, abort ends the stream with status 2; where its completion word waits on the
record, retry stores it again and abort ends the stream without it (log entry 158). -/
def State.replyStream (s : State) (q : BitVec 16) (abort : Bool) (r : FaultRec) : State :=
  let k := r.tag % 8
  match s.streamSlot k with
  | none => s
  | some c =>
    if c.doneOn = some q then
      if abort then s.endStream (c.endWith 2) k else s.setStream k (some { c with doneOn := none })
    else match c.units.findIdx? (fun u => u.stage == .stalled q) with
    | none => s
    | some u => s.setStream k (some (if abort then c.endWith 2 else c.setUnit u .waiting))

/-- The network interface (R371, R408): retry lets the held packet try again, abort discards it. -/
def State.replySpill (s : State) (q : BitVec 16) (abort : Bool) (r : FaultRec) : State :=
  match s.net.held with
  | some (q', p) =>
    if q' = q then
      let s := { s with net := { s.net with held := none } }
      match p with
      | none => s
      | some p =>
        if abort then
          let (n, s) := s.draw
          (s.logViolation s.quadrant p.score.toNat 4 4 (Config.spillAbortAddr n) r.cid.toNat).delivered p.entry
        else { s with net := { s.net with waiting := p :: s.net.waiting } }
    else if r.cause = 0x10 ∧ abort = false then s.placeHeld r
    else s
  | none => if r.cause = 0x10 ∧ abort = false then s.placeHeld r else s

/-- A REPLY TO THE RUNNING CONTEXT (R408): it ends the record, and retries or aborts the agent that waits on it; one
whose SEQ is not outstanding is ignored. -/
def State.applyReply (s : State) (w : Word) : State :=
  let q := BitVec.ofNat 16 (wf w 0 16)
  let abort := wf w 16 2 == 1
  if 2 ≤ wf w 16 2 then s
  else match s.outstanding q with
    | none => s
    | some r =>
      let s := s.endRecord q
      let s := match r.source with
        | 0 => s.replyHart 0 q abort r
        | 1 => s.replyHart 1 q abort r
        | 2 => s.replyCopy q abort r
        | 3 => s.replyStream q abort r
        | _ => s.replySpill q abort r
      if abort && r.cause == 0x10 then s.discardHeld r else s

/-! ### Parked replies (R408, R409) -/

/-- The spill area of a context, whose reply list parks the replies for its CID (R370, R408). -/
def State.parkArea (s : State) (cid : BitVec 16) : Option Word := (s.net.areas.find? (fun e => e.1 == cid)).map (·.2)

/-- Goes on with the value of an engine access whose failure gives up: what it has done, a violation among it, stays
(R410). -/
def EngineResult.orGiveUp (r : EngineResult) (k : Nat → State → Sweep) : Sweep :=
  match r with
  | .ok v s => k v s
  | .error s => .done s
  | .fault _ s => .done s
  | .wait s => .wait s

/-- Goes on with the reply list of an area: its address, capacity and count; gives up where it is unusable. -/
def State.replyList (s : State) (e : EngineId) (a : Word) (k : Word → Nat → Nat → State → Sweep) : Sweep :=
  if a = 0 ∨ a.toNat % 64 ≠ 0 then .done s
  else (s.engineLoad e (a + 0x18) 8).orGiveUp (fun l s =>
    if l % 16 ≠ 0 then .done s
    else (s.engineLoad e (word l) 8).orGiveUp (fun cap s =>
      (s.engineLoad e (word l + 8) 8).orGiveUp (fun n s => k (word l) cap n s)))

/-- Parks a reply in its context's own list (R408, R409); one that finds the list full or unusable is discarded.  It may have
to wait for a write of the list. -/
def State.parkReply (s : State) (w : Word) : Sweep :=
  let cid := BitVec.ofNat 16 (wf w 32 16)
  match s.parkArea cid with
  | none => .done s
  | some a =>
    let e := s.spillId cid
    s.replyList e a (fun l cap n s1 =>
      if cap ≤ n then .done s1
      else (s1.engineStore e (l + word (16 + 8 * n)) 0 64 w.toNat).orGiveUp (fun _ s2 =>
        (s2.engineStore e (l + 8) 0 64 (n + 1)).orGiveUp (fun _ s3 => .done s3)))

/-- Whether reply `k` on its way is the first VN3 packet of its source (R312): no reply of that source comes before it, nor
of this core's a mesh interrupt message to itself. -/
def State.firstReply (s : State) (k : Nat) (r : ReplyMsg) : Bool :=
  !(s.net.replies.take k).any (fun q => q.src == r.src) &&
  !(r.src == s.core.coreId.toNat && s.net.flight.any (fun p =>
    p.body.vn == 3 && p.score == s.core.coreId && s.toMe p.dest && decide (p.entry < r.before)))

/-- FAULT_REPLY (R408): a reply word on its way to this core reaches its network interface. -/
def execFaultReply (w : BitVec 64) (s : State) : Result :=
  match s.net.replies.zipIdx.find? (fun e => e.1.word == w && s.firstReply e.2 e.1) with
  | none => .next s
  | some e =>
    let s1 := { s with net := { s.net with replies := s.net.replies.eraseIdx e.2 } }
    if wf w 32 16 = s1.cid16.toNat ∧ s1.core.preempted = false then .next (s1.applyReply w)
    else .next ((s1.parkReply w).orIn s)

/-- The replies of a list in the order of their sequence numbers, counted from the oldest outstanding record (R409). -/
def State.replyOrder (s : State) (ws : List Nat) : List Nat :=
  let oldest := match s.mmu.queue with
    | r :: _ => r.seq.toNat
    | [] => 0
  let rank (w : Nat) : Nat := (w % 65536 + 65536 - oldest) % 65536
  sortBy (fun x y => decide (rank x ≤ rank y)) ws

/-- Step 2 of R109 (R409): the list of a restored context's spill area is replayed, and its count set to 0.  A word that
names another context than the one now running has no effect on it (R408). -/
def State.replayReplies (s : State) (a : Word) (cid : BitVec 16) : Sweep :=
  let e := s.spillId cid
  s.replyList e a (fun l cap n s1 =>
    let r := s1.loadWords e (l + 16) (min n cap) []
    r.1.orGiveUp (fun _ s2 =>
      let ws := r.2.filter (fun w => bits w 32 16 == s.cid16.toNat)
      let s3 := (s2.replyOrder ws).foldl (fun s w => s.applyReply (word w)) s2
      (s3.engineStore e (l + 8) 0 64 0).orGiveUp (fun _ s4 => .done s4)))

end Sys2Proof.Machine
end

