-- ==== Sys2Proof/Machine/Pool.lean ====
section
/-! DEFINITION. The task pool: the words of major 1E, TASK, and the steps of the pool (R97 to R100, R374 to R386). -/

namespace Sys2Proof.Machine

/-! ### The pool's contents -/

/-- A node slot. -/
def State.node (s : State) (id : Nat) : Option Node := Map.get none s.pool.nodes id

/-- The state with a node slot replaced. -/
def State.setNode (s : State) (id : Nat) (n : Option Node) : State :=
  { s with pool := { s.pool with nodes := Map.set none s.pool.nodes id n } }

/-- The nodes with their ids, in id order. -/
def State.liveNodes (s : State) : List (Nat × Node) := s.pool.nodes.filterMap (fun e => e.2.map (fun n => (e.1, n)))

/-- The free slot of lowest id (R376). -/
def State.freeNode (s : State) : Option Nat :=
  (List.range (min 65536 (s.pool.nodes.length + 1))).find? (fun k => (s.node k).isNone)

/-- The next number in the pool's own order. -/
def State.poolOrder (s : State) : Nat × State :=
  (s.pool.nextOrder, { s with pool := { s.pool with nextOrder := s.pool.nextOrder + 1 } })

/-! ### Classes (R98 to R100) -/

/-- The class word of a core with these ways in the array role, lower and upper ways in the scratch role, live layer bus
and granted rows (Table 04-1). -/
def classBits (arr lower upper : Nat) (bus : Bool) (rows : Nat) : Nat :=
  1 + b2n (decide (1 ≤ arr)) * 2 + b2n (decide (16 ≤ arr)) * 4 + b2n (arr == 32) * 8 +
    b2n (decide (0 < upper) && bus) * 16 + b2n (decide (16 ≤ rows)) * 32 + b2n (decide (64 ≤ rows)) * 64 +
    b2n (decide (4 ≤ lower)) * 128

/-- Whether a vent of the quadrant has a live layer bus, its own or its cluster's other one (R283). -/
def State.ventBus (s : State) (v : Nat) : Bool :=
  !s.mgmt.dead.contains (5, s.quadrant * 64 + v) || !s.mgmt.dead.contains (5, s.quadrant * 64 + (v ^^^ 1))

/-- The class word of this core (Table 04-1). -/
def State.classWord (s : State) : Nat :=
  classBits (arrayWays s.wayroleRead).length (s.scratchWays false).length (s.scratchWays true).length (s.ventBus s.vent)
    (s.core.tgrant.toNat % 256)

/-- How many of ways `first` to `first` + 15 of a core are in service. -/
def State.liveWaysOf (s : State) (c first : Nat) : Nat :=
  ((List.range 16).filter (fun w => !s.mgmt.dead.contains (3, 32 * c + first + w))).length

/-- The rows that another work core holds: the tile unit says so of a core of this one's cluster (R249), and another
cluster's are free. -/
def State.otherRows (s : State) (c r : Nat) : Nat :=
  if c / 4 = s.core.coreId.toNat / 4 then
    16 * ((List.range 8).filter (fun b => (Store.get s.tile.owner b).toNat == c % 4 + 1)).length
  else min r 128

/-- The class word of another work core of the quadrant: its roles are free, within what its ways in service allow, and so
is the grant of a core of another cluster (R98). -/
def State.otherClass (s : State) (c : Nat) : Nat :=
  let (x, y, z, r) := Config.otherWays c s.ctr.cycle.toNat
  let lower := min y (s.liveWaysOf c 0)
  let upper := min z (s.liveWaysOf c 16)
  classBits (min x (s.liveWaysOf c 0 + s.liveWaysOf c 16 - lower - upper)) lower upper (s.ventBus (bits c 1 6))
    (s.otherRows c r)

/-- Whether a mask is met by a class word (R99). -/
def placeable (cls mask : Nat) : Bool := cls &&& mask == mask

/-- Whether some live work core of the quadrant could take a node (R100). -/
def State.somewhere (s : State) (mask : Nat) : Bool :=
  (!s.hostPort && !s.mgmt.dead.contains (2, s.core.coreId.toNat) && placeable s.classWord mask) ||
  (List.range 128).any (fun k =>
    let c := 128 * s.quadrant + k
    (s.hostPort || c != s.core.coreId.toNat) && !s.mgmt.dead.contains (2, c) && placeable (s.otherClass c) mask)

/-! ### Readiness (R377) -/

/-- Whether two operands overlap with at least one not read-only. -/
def Operand.clash (x y : Operand) : Bool :=
  decide (x.base < y.base + y.len) && decide (y.base < x.base + x.len) && (x.mode != 1 || y.mode != 1)

/-- Whether two nodes conflict. -/
def Node.conflicts (x y : Node) : Bool := x.cid == y.cid && x.ops.any (fun a => y.ops.any a.clash)

/-- Whether a node is taken. -/
def Node.isTaken (n : Node) : Bool :=
  match n.stage with
  | .taken _ => true
  | .live => false

/-- The nodes in the conflict table. -/
def State.takenNodes (s : State) : List Node := (s.liveNodes.map (·.2)).filter Node.isTaken

/-- Free entries of the conflict table. -/
def State.tableRoom (s : State) : Nat := 2048 - (s.takenNodes.map (fun n => n.ops.length)).sum

/-- One node in the order in which counts reached 0: `acc` holds the ready ids and the blocked nodes so far. -/
def readyStep (taken : List Node) (room : Nat) (acc : List Nat × List Node) (e : Nat × Node) : List Nat × List Node :=
  let clash := (taken ++ acc.2).any e.2.conflicts
  if room < e.2.ops.length then acc
  else if clash then (acc.1, acc.2 ++ [e.2])
  else (acc.1 ++ [e.1], acc.2)

/-- The ids of the ready nodes (R377). -/
def State.readyIds (s : State) : List Nat :=
  let zero := s.liveNodes.filter (fun e => e.2.stage == .live && e.2.preds == 0)
  let sorted := sortBy (fun a b => decide (a.2.zeroAt.getD 0 ≤ b.2.zeroAt.getD 0)) zero
  (sorted.foldl (readyStep s.takenNodes s.tableRoom) ([], [])).1

/-! ### Levels (R378) -/

/-- A node's level and the tick at which it entered it, at tick `now`. -/
def Node.aged (n : Node) (now : Nat) : Nat × Nat :=
  match n.readyAt with
  | none => (n.prio.toNat, now)
  | some t =>
    let k := min ((now - t) / 65536) (3 - n.prio.toNat)
    (n.prio.toNat + k, t + 65536 * k)

/-- Whether node x comes before node y in the pool's choice. -/
def nodeBefore (now : Nat) (x y : Nat × Node) : Bool :=
  let a := x.2.aged now
  let b := y.2.aged now
  decide (b.1 < a.1) || (a.1 == b.1 && (decide (a.2 < b.2) || (a.2 == b.2 && decide (x.1 ≤ y.1))))

/-- The pool's choice for this core (R378, R99). -/
def State.poolChoice (s : State) : Option (Nat × Node) :=
  let ready := s.readyIds
  let cls := s.classWord
  (sortBy (nodeBefore s.ctr.cycle.toNat)
    (s.liveNodes.filter (fun e => ready.contains e.1 && placeable cls e.2.cls.toNat && e.2.cid == s.cid16))).head?

/-! ### Events of the pool (R100, R385) -/

/-- The COREID that messages of the quadrant's pool carry (R100). -/
def State.poolId (s : State) : BitVec 10 := BitVec.ofNat 10 (0x200 + 128 * s.quadrant)

/-- A message from the pool to the service hart of a core, when that core is this one (R100, R385). -/
def State.poolMessage (s : State) (core : BitVec 10) (kind : BitVec 2) (payload : Nat) : State :=
  if core ≠ s.core.coreId then s
  else
    let p : Packet := {
      entry := 0, hart := 0, dest := word (core.toNat * 2 ^ 42 + 2 ^ 41), sdev := s.mgmt.devnum, score := s.poolId,
      body := .nint 1 kind (word payload) }
    { s with net := { s.net with flight := s.net.flight ++ [p] } }

/-- Where the unplaceable-node event goes when the spawning core has retired (R100). -/
def State.eventCore (s : State) (core : BitVec 10) : BitVec 10 :=
  if s.mgmt.dead.contains (2, core.toNat) then BitVec.ofNat 10 (s.quadrant * 128) else core

/-- Whether the record of a ready node is out of step with its placeability (R100). -/
def State.misplaced (s : State) (n : Node) : Bool := n.unplaceable == s.somewhere n.cls.toNat

/-- A ready node passes from placeable to unplaceable, which sends its event, or back (R100). -/
def State.checkPlace (s : State) (id : Nat) (n : Node) : State :=
  if !s.misplaced n then s
  else
    let s1 := s.setNode id (some { n with unplaceable := !n.unplaceable })
    if n.unplaceable then s1 else s1.poolMessage (s.eventCore n.core) 2 id

/-- After a change of the pool, nodes that have become ready are marked with the tick (R378), and each ready node is
checked for a core (R100). -/
def State.refreshPool (s : State) : State :=
  s.readyIds.foldl (fun s id =>
    match s.node id with
    | none => s
    | some n =>
      let n1 := if n.readyAt.isNone then
          { n with readyAt := some s.ctr.cycle.toNat, level := n.prio, enteredAt := s.ctr.cycle.toNat }
        else n
      (s.setNode id (some n1)).checkPlace id n1) s

/-! ### Records (R374, R376) -/

/-- The used operands of a record's words (Table 16-8). -/
def recordOps (ws : List Word) : List Operand :=
  (List.range 4).filterMap (fun k =>
    let d := ws.getD (9 + 2 * k) 0
    let mode := wf d 40 2
    if mode = 0 then none
    else some { base := (ws.getD (8 + 2 * k) 0).toNat, len := wf d 0 40, mode := BitVec.ofNat 2 mode })

/-- The scheduling fields of a record at an address. -/
def template (a : Word) (cid : BitVec 16) (ws : List Word) : Template :=
  { record := a, preds := wf (ws.getD 0 0) 48 16, prio := BitVec.ofNat 2 (wf (ws.getD 0 0) 0 2),
    cls := BitVec.ofNat 16 (wf (ws.getD 7 0) 48 16), ops := recordOps ws, cid := cid }

/-- Step 3 of R376: reserved bits are 0 and every used operand is a range within the canonical space. -/
def recordOk (ws : List Word) : Bool :=
  (List.range 4).all (fun k => wf (ws.getD (9 + 2 * k) 0) 42 22 == 0) &&
    (recordOps ws).all (fun o => rangeOk (word o.base) (word o.len))

/-- Step 4 of R376: dirty bytes of the record's two sectors go to their home. -/
def State.cleanRecord (s : State) (h : BitVec 1) (a : Word) : Sweep :=
  match s.translate h .read a with
  | (.wait, s) => .wait s
  | (.ok t, s) =>
    if t.ms || t.mmio then .done s
    else match (s.cleanSector t.name).bind (fun s => s.cleanSector (t.name + 64)) with
      | some s1 => .done s1
      | none => .wait s
  | (.fault _ _, s) => .done s

/-- Reads and checks a record at `a` (steps 1 to 4 of R376): `bad` answers when step 3 fails, `k` is told the fields. -/
def recordOp (h : BitVec 1) (a : Word) (s : State) (bad : State → Result) (k : Template → State → Result) : Result :=
  if a.toNat % 128 ≠ 0 then s.scalarFault h 0x03 a 2 false 8
  else loadImage h 2 16 a [] s (fun ws s =>
    if !recordOk ws then bad s
    else (s.cleanRecord h a).andThen (fun s => k (template a s.cid16 ws) s))

/-- A node spawned from the scheduling fields in slot `id` (R376). -/
def State.putNode (s : State) (t : Template) (core : BitVec 10) (id : Nat) : State :=
  let (order, s) := s.poolOrder
  let n : Node := {
    record := t.record, cid := t.cid, core := core, preds := t.preds, prio := t.prio, cls := t.cls, ops := t.ops,
    stage := .live, zeroAt := if t.preds = 0 then some order else none, readyAt := none, level := t.prio,
    enteredAt := 0, unplaceable := false }
  (s.setNode id (some n)).refreshPool

/-- The handle of a node (R375). -/
def nodeHandle (id : Nat) (record : Word) : Word := word (id * 2 ^ 48 + wf record 0 48)

/-- TKSPAWN (R376). -/
def execTkspawn (d a : BitVec 7) (s : State) : Result :=
  issue [d, a] s (fun h =>
    let v := (s.hart h).reg a.toNat
    recordOp h v s (fun s => .next ((s.lateReg h d.toNat (word (2 ^ 64 - 2)) 0).retire h)) (fun t s =>
      match s.freeNode with
      | none => .next ((s.lateReg h d.toNat 0xFFFFFFFFFFFFFFFF 0).retire h)
      | some id =>
        .next (((s.putNode t s.core.coreId id).lateReg h d.toNat (nodeHandle id v) 0).retire h)))

/-! ### TKGET (R379) -/

/-- TKGET (R379): the hart joins the pool's waiters and sleeps. -/
def execTkget (d : BitVec 7) (s : State) : Result :=
  issue [d] s (fun h =>
    if s.hostPort then s.trap h 0x01
    else
      let ws := if s.pool.waiters.contains h then s.pool.waiters else s.pool.waiters ++ [h]
      .next ({ s with pool := { s.pool with waiters := ws } }.sleepIn h (.tkget d)))

/-- Gives a node to a hart that waits in TKGET (R379): the node is taken, the core self-invalidates its record and
operands, and the handle is written. -/
def State.giveNode (s : State) (h : BitVec 1) (d : BitVec 7) (id : Nat) (n : Node) : Sweep :=
  let rs := (n.record.toNat, 128) :: n.ops.map (fun o => (o.base, o.len))
  match s.selfInvalidate rs with
  | .wait s => .wait s
  | .done s =>
    let s := s.setNode id (some { n with stage := .taken h })
    let s := { s with pool := { s.pool with waiters := s.pool.waiters.filter (· != h) } }
    .done ((s.writeReg h d.toNat (nodeHandle id n.record)).retire h).refreshPool

/-- NODE_DISPATCH (R379): waiter k, the first for whose core a node qualifies, receives the pool's choice. -/
def execNodeDispatch (k : Nat) (s : State) : Result :=
  match s.pool.waiters[k]?, s.poolChoice with
  | some h, some (id, n) =>
    if k ≠ 0 then .next s
    else match (s.hart h).run with
      | .asleep (.tkget d) => .next ((s.giveNode h d id n).orIn s)
      | _ => .next s
  | _, _ => .next s

/-- NODE_AGING (R100, R378): a ready node's level follows its waiting time, and its placeability is seen to. -/
def execNodeAging (id : BitVec 16) (s : State) : Result :=
  match s.node id.toNat with
  | none => .next s
  | some n =>
    if !s.readyIds.contains id.toNat then .next s
    else
      let a := n.aged s.ctr.cycle.toNat
      let n1 := { n with level := BitVec.ofNat 2 a.1, enteredAt := a.2 }
      .next ((s.setNode id.toNat (some n1)).checkPlace id.toNat n1)

/-! ### TKDONE (R380) -/

/-- The count of a node goes down by 1 (R380): one that is taken, gone or at 0 is left unchanged. -/
def State.countDown (s : State) (id : Nat) : State :=
  match s.node id with
  | none => s
  | some n =>
    if n.isTaken || n.preds == 0 then s
    else
      let (order, s) := s.poolOrder
      s.setNode id (some { n with preds := n.preds - 1, zeroAt := if n.preds = 1 then some order else none })

/-- Step 4 of R380. -/
def State.finishNode (s : State) (id : Nat) (succ : List Nat) : State :=
  let edges := (s.pool.edges.filter (fun e => e.1 == id)).map (·.2)
  let s := { s with pool := { s.pool with edges := s.pool.edges.filter (fun e => e.1 != id) } }
  ((succ ++ edges).foldl State.countDown (s.setNode id none)).refreshPool

/-- Loads the successor list at SUCC (Table 16-8): the ids of its first 64 handles. -/
def loadSuccessors (h : BitVec 1) (a : Word) (s : State) (k : List Nat → State → Result) : Result :=
  if a = 0 then k [] s
  else (s.loadVa h a 8 2).andThen (fun n s =>
    loadImage h 2 (min n 64) (a + 8) [] s (fun ws s => k (ws.map (fun w => wf w 48 16)) s))

/-- TKDONE (R380). -/
def execTkdone (a : BitVec 7) (s : State) : Result :=
  issue [a] s (fun h =>
    let id := wf ((s.hart h).reg a.toNat) 48 16
    if s.hostPort then s.trap h 0x01
    else match s.node id with
      | none => .next (s.retire h)
      | some n =>
        if n.stage ≠ .taken h then .next (s.retire h)
        else (s.loadVa h (n.record + 0x38) 8 2).andThen (fun x s =>
          loadSuccessors h (wordOfInt (sext x 48)) s (fun succ s =>
            (s.releaseRanges h (n.ops.map (fun o => (o.base, o.len)))).andThen (fun s =>
              .next ((s.finishNode id succ).retire h)))))

/-! ### TKDEP (R381) -/

/-- TKDEP (R381). -/
def execTkdep (a b : BitVec 7) (s : State) : Result :=
  issue [a, b] s (fun h =>
    let x := wf ((s.hart h).reg a.toNat) 48 16
    let y := wf ((s.hart h).reg b.toNat) 48 16
    match s.node x, s.node y with
    | some _, some n =>
      if n.isTaken then .next (s.retire h)
      else if 65536 ≤ s.pool.edges.length then .next (s.sleepIn h .retry)
      else
        let s1 := s.setNode y (some { n with preds := n.preds + 1, zeroAt := none })
        .next (({ s1 with pool := { s1.pool with edges := s1.pool.edges ++ [(x, y)] } }.refreshPool).retire h)
    | _, _ => .next (s.retire h))

/-! ### Trigger slots (R382 to R385) -/

/-- A trigger slot. -/
def State.trigger (s : State) (k : Nat) : Trigger := Map.get Trigger.new s.pool.triggers k

/-- The state with a trigger slot replaced. -/
def State.setTrigger (s : State) (k : Nat) (t : Trigger) : State :=
  { s with pool := { s.pool with triggers := Map.set Trigger.new s.pool.triggers k t } }

/-- The slot operand of TKARM, TKBIND and TKUNBIND (R382). -/
def triggerOp (rs : List (BitVec 7)) (a : BitVec 7) (s : State) (k : BitVec 1 → Nat → Result) : Result :=
  issue rs s (fun h =>
    let v := ((s.hart h).reg a.toNat).toNat
    if 255 < v then s.trapDetail h 0x0B 8 else k h v)

/-- TKARM (R383). -/
def execTkarm (a b : BitVec 7) (s : State) : Result :=
  triggerOp [a, b] a s (fun h k =>
    let va := (s.hart h).reg b.toNat
    if va = 0 then .next ((s.setTrigger k { s.trigger k with armed := none }).retire h)
    else if va.toNat % 8 ≠ 0 then s.scalarFault h 0x03 va 2 true 8
    else match s.translate h .both va with
      | (.wait, s) => .next s
      | (.fault c _, s) => s.scalarFault h c va 2 true 8
      | (.ok t, s) =>
        if !t.ms || t.mmio then s.scalarFault h 0x07 va 2 true 8
        else match s.homeError t.name with
          | some e => .next (((s.logError h.toNat t.name s.cid16.toNat e).loadError h va 2 8 true).retire h)
          | none =>
            if s.postedOver h t.name 8 then .next s
            else .next ((s.setTrigger k
              { s.trigger k with armed := some (t.name, s.cid16, s.core.coreId) }).retire h))

/-- A spawn from a slot (R385): its node, or a wait with PENDING set and the pool event when the pool is full. -/
def State.triggerSpawn (s : State) (k : Nat) (t : Template) : State :=
  let x := s.trigger k
  let core := match x.armed with
    | some (_, _, c) => c
    | none => s.core.coreId
  match s.freeNode with
  | some id => s.putNode t core id
  | none =>
    (s.setTrigger k { x with delayed := x.delayed ++ [t], pending := true }).poolMessage core 3 (1 + k * 256)

/-- The context that a spawn from a slot belongs to: the arming core's (R385). -/
def Trigger.context (x : Trigger) (own : BitVec 16) : BitVec 16 :=
  match x.armed with
  | some (_, c, _) => c
  | none => own

/-- A binding reaches the pool (R385): where PENDING is set it spawns one node from the new template and clears PENDING.
DESIGN CHOICE (log entry 86): where PENDING stands for no trigger of an unbound slot but for a spawn that waits for a node
slot, the oldest such spawn is the one made from the new template, so that no trigger is counted twice. -/
def State.bindTrigger (s : State) (k : Nat) (t : Template) : State :=
  let x := s.trigger k
  if x.pending then
    let left := if x.owed then x.delayed else x.delayed.tail
    (s.setTrigger k { x with bound := some t, pending := !left.isEmpty, owed := false, delayed := left }).triggerSpawn k
      { t with cid := x.context t.cid }
  else s.setTrigger k { x with bound := some t }

/-- TKBIND (R384, R385). -/
def execTkbind (a b : BitVec 7) (s : State) : Result :=
  triggerOp [a, b] a s (fun h k =>
    recordOp h ((s.hart h).reg b.toNat) s (fun s => .next (s.retire h)) (fun t s => .next ((s.bindTrigger k t).retire h)))

/-- TKUNBIND (R384). -/
def execTkunbind (a : BitVec 7) (s : State) : Result :=
  triggerOp [a] a s (fun h k => .next ((s.setTrigger k { s.trigger k with bound := none }).retire h))

/-- Whether a trigger is the first on its way from its memory-side unit (R312, R490). -/
def State.firstTrigger (s : State) (e : Nat × Nat) : Bool :=
  s.pool.fired.find? (fun f => s.monitorUnit f.2 true == s.monitorUnit e.2 true) == some e

/-- TRIGGER_ARRIVAL (R383, R385): a trigger on its way reaches the pool. -/
def execTriggerArrival (slot : BitVec 8) (pa : Nat) (s : State) : Result :=
  let k := slot.toNat
  if !s.firstTrigger (k, pa) then .next s
  else
    let s := { s with pool := { s.pool with fired := s.pool.fired.erase (k, pa) } }
    let x := s.trigger k
    match x.armed with
    | none => .next s
    | some (a, cid, _) =>
      if a ≠ pa then .next s
      else match x.bound with
        | some t => .next (s.triggerSpawn k { t with cid := cid })
        | none => .next (s.setTrigger k { x with pending := true, owed := true })

/-- TRIGGER_SPAWN_RETRY (R385): a spawn that waits for a node slot is retried when one is free. -/
def execTriggerSpawnRetry (slot : BitVec 8) (s : State) : Result :=
  let k := slot.toNat
  let x := s.trigger k
  match x.delayed, s.freeNode with
  | t :: ts, some id =>
    let core := match x.armed with
      | some (_, _, c) => c
      | none => s.core.coreId
    .next ((s.setTrigger k { x with delayed := ts, pending := x.owed || !ts.isEmpty }).putNode t core id)
  | _, _ => .next s

end Sys2Proof.Machine
end

