-- ==== Sys2Proof/Machine/Codec.lean ====
section
/-! DEFINITION. The steps of the codecs: learning, re-sampling, scrubbing and the installation of tables (R438, R439,
R479).  Codecs 0 to 7 are the base dies', 8 to 11 the far ports' (Table 25-4). -/

namespace Sys2Proof.Machine

/-- The quadrant of a codec (R7, R13). -/
def codecQuadrant (k : Nat) : Nat := if k < 8 then k / 2 else k - 8

/-- A table of values installed into VFT[g]: entries without a value become invalid (R434, R438). -/
def installTable (vft : Store 17) (g : Nat) (values : List (Option Nat)) : Store 17 :=
  (List.range 15).foldl (fun t i =>
    Store.set t (15 * g + i) (match values.getD i none with
      | some h => BitVec.ofNat 17 (65536 + h)
      | none => 0)) vft

/-- The table that the samples form (R438): the 15 most frequent values, equal counts by the smaller value. -/
def Codec.learnt (c : Codec) : List (Option Nat) := (c.ranked.take 15).map (fun e => some e.1)

/-- The staging table of the host: 15 halfwords and their valid mask (R479). -/
def Codec.staged (c : Codec) : List (Option Nat) :=
  (List.range 15).map (fun i =>
    if bit (Store.get c.staging 15).toNat i then some (Store.get c.staging i).toNat else none)

/-- The codec with a table installed as its newest generation; the round of re-sampling ends (R439). -/
def Codec.installed (c : Codec) (values : List (Option Nat)) : Codec :=
  { c with vft := installTable c.vft c.oldest values, newest := BitVec.ofNat 2 c.oldest, samples := [], taken := 0,
           window := [], resampling := false, exhausted := false, asked := false }

/-- A codec's management event (R439): 0 generation exhaustion, 1 installation, 2 samples ready. -/
def State.codecEvent (s : State) (k kind : Nat) : State :=
  let w := word (0x31 + k * 2 ^ 8 + kind * 2 ^ 16)
  (s.recordEvent w).hostPortEvent (codecQuadrant k) w

/-- Whether a table of the host's is waited for or installed in place of the codec's own (R439, FMODE[2]). -/
def State.hostTables (s : State) : Bool := bit s.mgmt.fmode.toNat 2

/-- CODEC_LEARNING_COMPLETE (R438): after 65,536 samples the codec forms VFT[0] and learning ends. -/
def execCodecLearningComplete (k : BitVec 4) (s : State) : Result :=
  let c := s.codec k.toNat
  if decide (k.toNat < 12) && c.learn && decide (65536 ≤ c.taken) then
    .next (s.setCodec k.toNat
      { c with vft := installTable c.vft 0 c.learnt, learn := false, samples := [], taken := 0, window := [] })
  else .next s

/-- CODEC_RESAMPLE_START (R439): under FMODE[2] = 0, with re-sampling not held, more than 16,384 of the last 65,536
superblock writes were stored raw. -/
def execCodecResampleStart (k : BitVec 4) (s : State) : Result :=
  let c := s.codec k.toNat
  if decide (k.toNat < 12) && !c.learn && !c.resampling && !c.asked && !s.hostTables && !c.held &&
      decide (16384 < c.window.countP id) then
    .next (s.setCodec k.toNat { c with resampling := true, samples := [], taken := 0 })
  else .next s

/-! ### The scrubber (R439) -/

/-- The compressed frames of a codec (R437). -/
def State.codecFrames (s : State) (k : Nat) : List (Nat × Frame) :=
  s.home.frames.filterMap (fun e => if unitCodec (unitOf (e.1 * 1024)) = k then e.2.map (fun fr => (e.1, fr)) else none)

/-- What the scrubber may recode: superblock `sb` of a frame of the oldest generation, not held in the overflow buffer,
whose form under NEWEST the frame still holds.  Answers that form's size. -/
def State.scrubSize (s : State) (k f sb : Nat) (fr : Frame) : Option Nat :=
  let c := s.codec k
  let size := sizeCode c c.newest.toNat (s.storedMem (2 ^ 48 + f * 4096 + 256 * sb)) (2 ^ 48 + f * 4096 + 256 * sb)
  if (Store.get fr.gen sb).toNat = c.oldest ∧ !c.overflow.any (fun x => x.frame == f && x.sb == sb) ∧ fr.fits sb size then
    some size
  else none

/-- SCRUBBER_RECODE (R439): one superblock of the oldest generation is recoded under NEWEST. -/
def execScrubberRecode (k : BitVec 4) (frame : Nat) (sb : BitVec 4) (s : State) : Result :=
  match (s.codecFrames k.toNat).find? (fun e => e.1 == frame) with
  | none => .next s
  | some (f, fr) =>
    match s.scrubSize k.toNat f sb.toNat fr with
    | none => .next s
    | some size => .next (s.placeBlock k.toNat f sb.toNat size (s.codec k.toNat).newest.toNat fr)

/-- Whether a pass of the scrubber still has a superblock to recode. -/
def State.scrubLeft (s : State) (k : Nat) : Bool :=
  (s.codecFrames k).any (fun e => (List.range 16).any (fun sb => (s.scrubSize k e.1 sb e.2).isSome))

/-- SCRUBBER_PASS_END (R439): with superblocks of the oldest generation left that cannot be recoded, the codec raises
generation exhaustion, and re-sampling is held. -/
def execScrubberPassEnd (k : BitVec 4) (s : State) : Result :=
  let c := s.codec k.toNat
  if decide (k.toNat < 12) && decide (0 < c.count c.oldest) && !c.exhausted && !s.scrubLeft k.toNat then
    .next ((s.setCodec k.toNat { c with exhausted := true }).codecEvent k.toNat 0)
  else .next s

/-! ### Installation (R439, R479) -/

/-- The host's staging table is installed, and the codec reports it as kind 1 (R439). -/
def State.installStaged (s : State) (k : Nat) : State :=
  let c := s.codec k
  (s.setCodec k { c.installed c.staged with install := 0 }).codecEvent k 1

/-- CODEC_TABLE_INSTALL (R107, R439): a round of the codec's own installs the table that its samples form, and a table of the
host's that waits is installed, each when the count of the oldest generation is 0 and in the mode it began in; in
host-assisted mode samples that are ready are reported to the host. -/
def execCodecTableInstall (k : BitVec 4) (s : State) : Result :=
  let c := s.codec k.toNat
  if 12 ≤ k.toNat then .next s
  else if c.install = 1 then (if c.count c.oldest = 0 then .next (s.installStaged k.toNat) else .next s)
  else if c.resampling then
    if 65536 ≤ c.taken ∧ c.count c.oldest = 0 then .next (s.setCodec k.toNat (c.installed c.learnt)) else .next s
  else if s.hostTables && !c.learn && !c.asked && !c.held && decide (65536 ≤ c.taken) then
    .next ((s.setCodec k.toNat { c with asked := true }).codecEvent k.toNat 2)
  else .next s

/-- CODEC_INSTALL_WRITE (R107, R479): the host writes INSTALL; a round whose samples were reported to it is host-assisted to its
end. -/
def execCodecInstallWrite (k : BitVec 4) (s : State) : Result :=
  let c := s.codec k.toNat
  if 12 ≤ k.toNat then .next s
  else if !s.hostTables && !c.asked then .next (s.setCodec k.toNat { c with install := 2 })
  else if c.count c.oldest = 0 then .next (s.installStaged k.toNat)
  else .next (s.setCodec k.toNat { c with install := 1 })

end Sys2Proof.Machine
end

