-- ==== Sys2Proof/Machine/Retire.lean ====
section
/-! DEFINITION. Errors of parts, the retirement map and what a retirement brings about (R174, R175, R250, R283 to R286,
R449, R450, R460 to R462, R477), and the stalls of the layer buses (R20, R284). -/

namespace Sys2Proof.Machine

/-! ### Parts (R449, R462) -/

/-- The parts of each kind, by DEGRADE bit (Table 20-6), numbered within their kind: cores by COREID, host-port cores among
them, ways as COREID × 32 + way, bands as unit × 8 + band, buses and slices as quadrant × 64 + vent, channels, far ports and links in order. -/
def partOk (kind part : Nat) : Bool :=
  match kind with
  | 2 => decide (part < 512) || (decide (part < 1024) && part % 128 == 0)
  | 3 => decide (part < 16384) || (decide (part < 32768) && part / 32 % 128 == 0 && decide (part % 32 < 16))
  | 4 => decide (part < 1024)
  | 5 | 7 => decide (part < 256)
  | 8 => decide (part < 128)
  | 9 => decide (part < 4)
  | 10 => decide (part < 16)
  | _ => false

/-- The quadrant of a part. -/
def partQuadrant (kind part : Nat) : Nat :=
  match kind with
  | 2 => part / 128 % 4
  | 3 => part / 4096 % 4
  | 4 => part / 256
  | 5 | 7 => part / 64
  | 8 => part / 32
  | 9 => part
  | 10 => part / 4
  | _ => part / 32

/-- The clusters both of whose layer buses are in a list of parts (R284). -/
def lostClusters (parts : List (Nat × Nat)) : List Nat :=
  (List.range 128).filter (fun c => parts.contains (5, 2 * c) && parts.contains (5, 2 * c + 1))

/-- DEGRADE for a retirement map and the relocated clusters (Table 20-6, R461). -/
def degradeOf (map : List (Nat × Nat)) (relocated : List Nat) : Word :=
  let moved := relocated.filter (fun c => (lostClusters map).contains c)
  let x := map.foldl (fun (x : Word) e => wset (wset x e.1 1 1) (16 + partQuadrant e.1 e.2) 1 1) 0
  let x := moved.foldl (fun (x : Word) c => wset (wset x 6 1 1) (16 + c / 32) 1 1) x
  if x = 0 then x else wset x 0 1 1

/-- Service requested (R462): an event word for a part goes to EVLOG, and to both harts of the quadrant's host-port core
and of its start hart's core. -/
def State.serviceEvent (s : State) (kind part : Nat) : State :=
  let w := word (0x20 + kind * 2 ^ 8 + part * 2 ^ 16)
  let q := partQuadrant kind part
  let s := (s.recordEvent w).hostPortEvent q w
  if s.isStartCore && s.quadrant == q then (s.mgmtEvent 0 w).mgmtEvent 1 w else s

/-! ### Retirement (R449, R450) -/

/-- The events of a retired slice move to the slice that the rehoming map names, and keep their numbers (R446). -/
def State.rehomeEvents (s : State) (slice : Nat) : State :=
  let target := nextLive s.mgmt.dead 64 slice
  { s with dir := { s.dir with
      events := s.dir.events.map (fun e => if e.slice = slice then { e with slice := target } else e) } }

/-- The lines of a slice that retires go back to memory (R285, step 1); one whose write must wait goes to the slice that the
rehoming map names. -/
def State.emptySlice (s : State) (slice : Nat) : State :=
  let before := s.mgmt.dead.filter (· != (7, slice))
  (s.home.llc.filter (fun l => nextLive before 64 (sliceOf (l.tag * 256)) == slice)).foldl
    (fun s l => (s.llcFlush l).getD s) s

/-- What the retirement of a part changes at once: an own way is marked until the core's next AROLE (R175), an own band
until it is released (R250), a slice is rehomed (R285), and a cluster that has lost both buses has its layer space
relocated (R284). -/
def State.retireEffect (s : State) (kind part : Nat) : State :=
  match kind with
  | 3 =>
    if part / 32 = s.core.coreId.toNat then
      { s with core := { s.core with marked := BitVec.ofNat 32 (setBits s.core.marked.toNat (part % 32) 1 1) } }
    else s
  | 4 =>
    if part / 8 = s.ownCluster ∧ s.hostPort = false then
      let b := part % 8
      let t := s.tile
      if Store.get t.owner b = 0 then { s with tile := { t with out := BitVec.ofNat 8 (setBits t.out.toNat b 1 1) } }
      else { s with tile := { t with marked := BitVec.ofNat 8 (setBits t.marked.toNat b 1 1) } }
    else s
  | 5 =>
    let c := part / 2
    if (lostClusters s.mgmt.dead).contains c ∧ !s.mgmt.relocated.contains c ∧ !s.mgmt.relocating.contains c then
      { s with mgmt := { s.mgmt with relocating := s.mgmt.relocating ++ [c] } }
    else s
  | 7 => (s.emptySlice part).rehomeEvents part
  | _ => s

/-- A part is out of service. -/
def State.outOfService (s : State) (kind part : Nat) : State :=
  if s.mgmt.dead.contains (kind, part) then s
  else { s with mgmt := { s.mgmt with
      dead := s.mgmt.dead ++ [(kind, part)], emptying := s.mgmt.emptying.filter (· != (kind, part)) } }

/-- Whether a part is out of service or on its way there. -/
def State.leaving (s : State) (kind part : Nat) : Bool :=
  s.mgmt.dead.contains (kind, part) || s.mgmt.emptying.contains (kind, part)

/-- A part that serves on for a time after its mark: a core until its container is saved (R450), a channel or far port under
FMODE[3] = 0 until its pages have been moved (R286). -/
def State.emptyFirst (s : State) (kind part : Nat) : State :=
  if s.leaving kind part then s
  else { s with mgmt := { s.mgmt with emptying := s.mgmt.emptying ++ [(kind, part)] } }

/-- Whether the byte of a line name lies on a channel or far port (R281, R282). -/
def onPart (kind part name : Nat) : Bool :=
  let pa := servedAt name
  match regionOf pa with
  | .hbm | .spill | .pinned => kind == 8 && unitOf pa == part
  | .far | .farPinned => kind == 9 && unitOf pa == 128 + part
  | _ => false

/-- Whether a page lies on a part, in one of its interleave units (R281, R282). -/
def TlbEntry.onPart (t : TlbEntry) (kind part : Nat) : Bool :=
  (List.range (min 128 (2 ^ (t.size - 12)))).any (fun i =>
    Sys2Proof.Machine.onPart kind part (leafName t.page t.size t.leaf (t.page + 4096 * i)))

/-- The pages that the tables from `table` downwards map, at `n` levels, from address `va` up (R392, R395). -/
def State.leaves (s : State) : Nat → Nat → Nat → List TlbEntry
  | 0, _, _ => []
  | n + 1, table, va =>
    (List.range 512).flatMap (fun i =>
      let e := word (s.homeValue (table + 8 * i) 8)
      let at_ := va + i * 2 ^ (12 + 9 * n)
      if !pteV e || pteBad n at_ e then []
      else if pteLeaf e then
        let size := leafSize n e
        [{ page := at_ / 2 ^ size * 2 ^ size, size := size, cid := s.cid16, all := pteG e, leaf := e }]
      else s.leaves n (pteAddr e) at_)

/-- Whether a page that the core's tables map, or its TLB still holds, lies on a part (R286). -/
def State.pagesOn (s : State) (kind part : Nat) : Bool :=
  (s.mmu.tlb ++ s.leaves 4 s.core.ptbase.toNat 0).any (fun t => t.onPart kind part)

/-- Whether a part that is to leave service may do so at a moment (R286, R450): this core leaves at its save. -/
def State.mayLeave (s : State) (e : Nat × Nat) : Bool :=
  if e.1 = 2 then e.2 != s.core.coreId.toNat else !s.pagesOn e.1 e.2

/-- As time passes, a channel or far port that no page is mapped to any more retires (R286), and another core that has been
saved (R450); at which such moment, is free (log entry 143). -/
def State.retireEmptied (s : State) : State :=
  match s.mgmt.emptying.find? s.mayLeave with
  | none => s
  | some e =>
    let (n, s1) := s.draw
    if Config.emptied n then s1.outOfService e.1 e.2 else s1

/-- PART_RETIREMENT (R449, R450, R461, R462): the retirement map marks a part, with DEGRADE, LIVECAP, service requested
and the part's own consequences.  A part that is marked already changes nothing. -/
def State.markPart (s : State) (kind part : Nat) : State :=
  if s.mgmt.map.contains (kind, part) then s
  else
    let map := s.mgmt.map ++ [(kind, part)]
    let d := s.mgmt.degrade ||| degradeOf [(kind, part)] []
    let s := { s with mgmt := { s.mgmt with map := map, degrade := d } }
    let s := if kind = 2 ∨ ((kind = 8 ∨ kind = 9) ∧ bit s.mgmt.fmode.toNat 3 = false) then s.emptyFirst kind part
      else s.outOfService kind part
    ((s.retireEffect kind part).serviceEvent kind part).refreshPool

/-! ### Service commands (R476) -/

/-- The state with the answer of SVCCMD: 1 for refused. -/
def State.svcAnswer (s : State) (refused : Bool) : State :=
  { s with mgmt := { s.mgmt with svcStatus := if refused then 1 else 0 } }

/-- Op 1: retires a part on the host's command, under FMODE[3] = 1. -/
def State.svcRetire (s : State) (kind part : Nat) : State :=
  if !bit s.mgmt.fmode.toNat 3 || !partOk kind part then s.svcAnswer true
  else (s.markPart kind part).svcAnswer false

/-- Op 2: clears a part's bit.  The part stays out of service until the next device reset; an own way that still has its
role is no longer marked.  A command only clears bits of DEGRADE (R461): layer space that was relocated before a bus was
cleared and marked once more has set RELOC already. -/
def State.svcClear (s : State) (kind part : Nat) : State :=
  if !partOk kind part then s.svcAnswer true
  else
    let map := s.mgmt.map.filter (· != (kind, part))
    let marked := if kind = 3 ∧ part / 32 = s.core.coreId.toNat then
        BitVec.ofNat 32 (setBits s.core.marked.toNat (part % 32) 1 0) else s.core.marked
    let s := { s with
      core := { s.core with marked := marked }
      mgmt := { s.mgmt with map := map, degrade := s.mgmt.degrade &&& degradeOf map s.mgmt.relocated } }
    s.svcAnswer false

/-- Op 3: releases a halted hart, which continues at PC + 4 (R150).  Whether another core's hart is halted is not known
here. -/
def State.svcRelease (s : State) (hartid : Nat) : State :=
  let c := hartid / 2
  let h := BitVec.ofNat 1 hartid
  if c = s.core.coreId.toNat then
    if (s.hart h).run = .halted then
      (s.modHart h (fun x => { x with pc := x.pc + 4, run := .running })).svcAnswer false
    else s.svcAnswer true
  else if c < 512 ∨ (c < 1024 ∧ c % 128 = 0) then
    let (n, s) := s.draw
    s.svcAnswer (bit (Config.otherCore n).toNat 0)
  else s.svcAnswer true

/-- SVC_RETIRE (R175, R250, R286, R476). -/
def execSvcRetire (bit : BitVec 8) (part : BitVec 16) (s : State) : Result := .next (s.svcRetire bit.toNat part.toNat)

/-- SVC_CLEAR (R449, R461, R476). -/
def execSvcClear (bit : BitVec 8) (part : BitVec 16) (s : State) : Result := .next (s.svcClear bit.toNat part.toNat)

/-- SVC_RELEASE_HART (R150, R476). -/
def execSvcReleaseHart (hartid : BitVec 16) (s : State) : Result := .next (s.svcRelease hartid.toNat)

/-! ### Array parity (R174, R240) -/

/-- First element of the 64 columns that a failed check covers: group `g` of a subarray of a way. -/
def ArrCtx.groupAt (c : ArrCtx) (way sub g : Nat) : Option Nat :=
  (c.ways.findIdx? (· == way)).map (fun i => 4096 * i + 256 * sub + 64 * g)

/-- Marked elements below `e` (R224). -/
def ArrCtx.rank (c : ArrCtx) (m : Memory) (e : Nat) : Nat :=
  (List.range e).countP (fun x => c.inRange x && c.mask m x)

/-- A row that a word reads: of its first or a later source group, of its mask, or of its scale group. -/
inductive ParityRow where
  | data (second : Bool)
  | mask
  | scale
deriving DecidableEq, Repr

/-- The kinds of rows that a word reads. -/
def ArrCtx.rows (c : ArrCtx) : List ParityRow :=
  let groups := (c.w.sources c.r).length
  (if 0 < groups then [.data false] else []) ++ (if 1 < groups then [.data true] else []) ++
    (if c.w.p != 0 || c.w.op.alwaysMasked then [.mask] else []) ++
    (if (c.w.scaleGroup c.r (word c.scaleg)).isSome then [.scale] else [])

/-- Whether an element's result takes data from the failing 64 columns from element `lo` up, or its scale where the row is
the scale group's, or, where it is the mask's, depends on their mask (R174). -/
def ArrCtx.affected (c : ArrCtx) (m : Memory) (lo : Nat) (row : ParityRow) (e : Nat) : Bool :=
  let hit (x : Nat) : Bool :=
    let x := if row = .scale then x / 32 else x
    decide (lo ≤ x) && decide (x < lo + 64)
  let k := min c.x0.toNat (4096 * c.ways.length)
  let byMask := row == .mask
  match c.w.op with
  | .vkwrite => c.inRange e && hit e && (c.mask m e || byMask)
  | .vmerge => c.inRange e && hit e && (byMask || c.mask m e == (row == .data false))
  | .vslideup => c.inRange e && ((c.active m e && decide (k ≤ e) && hit (e - k)) || (byMask && hit e))
  | .vslidedn => c.inRange e && ((c.active m e && decide (e + k < c.vl) && hit (e + k)) || (byMask && hit e))
  | .vrev => c.inRange e && ((c.active m e && hit (c.start + c.vl - 1 - e)) || (byMask && hit e))
  | .viota => c.inRange e && decide (lo ≤ e) && (c.active m e || (byMask && hit e))
  | .vcompress =>
    c.inRange e && (if byMask then decide (c.start + c.rank m lo ≤ e)
      else decide (c.start + c.rank m lo ≤ e) && decide (e < c.start + c.rank m (lo + 64)))
  | .vexpand =>
    c.inRange e && (if byMask then decide (lo ≤ e) else c.mask m e && hit (c.start + c.rank m e))
  | .vsegsum => c.inSel e && decide (32 * e < c.vl) && (hit (32 * e))
  | .vdot | .vdots => c.inRange e && e % 4 == 0 && hit e && (c.active m e || byMask)
  | .vbcast | .vinsr => byMask && c.inRange e && hit e
  | _ => c.inRange e && hit e && (c.active m e || byMask)

/-- The rows of a group of `regs` registers, at the elements that `p` picks, given by `f`. -/
def ArrCtx.refill (c : ArrCtx) (p : Nat → Bool) (g regs : Nat) (f : Nat → Nat) (m : Memory) : Memory :=
  (List.range c.vl).foldl (fun m e => if p e then c.put m g regs e (f e) else m) m

/-- Any pattern of `n` bits, from draw number `k` on. -/
def scrambled (k n e : Nat) : Nat := (Config.parityValue (k + e)).toNat % 2 ^ n

/-- The flags that the elements whose data or scale lies outside columns lo .. lo + 63 raise. -/
def ArrCtx.otherFlags (c : ArrCtx) (m : Memory) (gens : Store 16) (lo : Nat) (row : ParityRow) : BitVec 6 :=
  let per := if row = .scale then 32 else 1
  ({ c with vl := min c.vl (per * lo) }.run m gens).1.fl |||
    ({ c with start := max c.start (per * (lo + 64)) }.run m gens).1.fl

/-- The group of data that a storing word moves, with its element width. -/
def QEntry.storeGroup (q : QEntry) (c : ArrCtx) : Nat × Nat :=
  if q.w.op = .vstr then (q.w.a.toNat, width c.r.t1) else (q.w.d.toNat, width q.memType)

/-- Width of the destination bits of an array word's elements. -/
def ArrCtx.destBits (c : ArrCtx) : Nat := if c.w.op.isCompare || c.w.op == .vsearch then 1 else width c.r.td

/-- The state with the SRAM changed. -/
def State.setSram (s : State) (m : Memory) : State := { s with core := { s.core with sram := m } }

/-- The failing check of a word that runs in `c` (R174): the first element of its 64 columns and the row's kind, both free
(log entry 133); none for a word that reads no row there. -/
def ArrCtx.failing (c : ArrCtx) (way sub n : Nat) : Option (Nat × ParityRow) :=
  (c.groupAt way sub (Config.parityGroup n % 4)).bind (fun lo =>
    (c.rows[Config.parityRow n % c.rows.length]?).map (fun r => (lo, r)))

/-- ARRAY_PARITY_FAILURE of a word of broadcast mode (R174): entry `k` begins in `ways`; the destination bits of the affected
elements become any pattern and the flags that they raise any that the word can raise, while every other element is right;
a scalar result is 0, and the issuing hart has trap 0x14 pending.  The parity bits follow from the rows, and which 64
columns and which row the failed check met is free; an affected element of a load makes no access (log entry 133). -/
def State.parityBegin (s : State) (k way sub : Nat) (ways : List Nat) (q : QEntry) : State :=
  let c := s.ctx (s.inWays q ways)
  let n := s.free
  let before := s.core.sram
  match c.failing way sub n with
  | none => s
  | some (lo, row) =>
    let p := c.affected before lo row
    let s0 := { s with free := s.free + c.vl + 1 }
    let (g, w) := q.storeGroup c
    let s1 := if q.w.op.stores then s0.setSram (c.refill p g ((w + 3) / 4) (scrambled n w) before)
      else if q.w.op.loads then s0.setEntry k { q with addrs := q.addrs.filter (fun a => !p a.elem) }
      else s0
    match execArrayInstructionBegin k s1 with
    | .next s2 =>
      let m := s2.core.sram
      let m :=
        if q.w.op.stores then c.refill p g ((w + 3) / 4) (c.get before g w) m
        else match q.destGroup with
          | some (d, r) => c.refill p d r (scrambled n c.destBits) m
          | none => m
      let e := (s2.core.queue[k]?).getD q
      let kept := q.flags ||| (if q.w.op.space.isSome then 0 else c.otherFlags before s.core.gens lo row)
      let s3 := (s2.setSram m).setEntry k
        { e with flags := kept ||| (Config.parityFlags (n + c.vl) &&& flagMask q.w.op), value := 0 }
      s3.modHart q.hart (fun x => { x with
        parityEv := some (match x.parityEv with
          | none => { detail := BitVec.ofNat 8 sub, faddr := 0, finfo := word way, stride := 0 }
          | some e => { e with detail := e.detail ||| 0x80 }) })
    | _ => s

/-- The same in a block of a private micro-thread (R240): the word makes no other change, and the micro-thread faults with
cause 4. -/
def State.parityPrivate (s : State) (way sub : Nat) : State :=
  let x := s.mt way
  match (x.image[x.pos]?).bind arrayWord with
  | none => s
  | some w =>
    let q := s.privateEntry way w
    let c := s.privateCtx way q
    let n := s.free
    let before := s.core.sram
    match c.failing way sub n with
    | none => s
    | some (lo, row) =>
      let p := c.affected before lo row
      let s0 := { s with free := s.free + c.vl + 1 }
      let s1 :=
        if q.w.op.stores then
          let (g, b) := q.storeGroup c
          let (l, _) := s0.place 0 q c
          let hit := if l.fault.isSome then [] else l.addrs.filter (fun a => p a.elem)
          let s1 := (s0.setSram (c.refill p g ((b + 3) / 4) (scrambled n b) before)).moveAll q c hit
          s1.setSram (c.refill p g ((b + 3) / 4) (c.get before g b) s1.core.sram)
        else match q.destGroup with
          | some (d, r) => s0.setSram (c.refill p d r (scrambled n c.destBits) before)
          | none => s0
      (s1.mtFault way 4).blockFault way x.pos none

/-- The ways in which an entry may begin now: all that are left to it, or those that are free (R234). -/
def State.beginWays (s : State) (k : Nat) (q : QEntry) : List Nat :=
  if s.mayBegin k q then s.restWays q else s.freeWays k q

/-- A parity check fails in a way of this core: in the private micro-thread's present word, else in the first queued word
that may begin there and reads rows. -/
def State.parityFailure (s : State) (way sub : Nat) : State :=
  if (s.mt way).state = 1 then s.parityPrivate way sub
  else
    let hit := s.core.queue.zipIdx.find? (fun e =>
      (s.beginWays e.2 e.1).contains way && !(s.ctx e.1).rows.isEmpty)
    match hit with
    | some (q, k) => s.parityBegin k way sub (s.beginWays k q) q
    | none => s

/-! ### Errors (R460, Table 19-2) -/

/-- What a kind of error counts towards: the kind of its part, the counter of Table 20-5, the threshold of Table 19-2.
Kinds: 0 corrected SRAM error, 1 array parity, 2 accumulator parity, 3 uncorrectable LLC, 4 corrected HBM, 5
uncorrectable HBM, 6 far-port retrain, 7 Ilbel retrain, 8 layer-bus beat repeated, 9 machine check. -/
def errorKind : Nat → Option (Nat × Option Nat × Option Nat)
  | 0 => some (3, some 0, some 8)
  | 1 => some (3, some 1, some 8)
  | 2 => some (4, some 2, some 8)
  | 3 => some (7, some 3, some 4)
  | 4 => some (8, some 4, none)
  | 5 => some (8, some 5, some 16)
  | 6 => some (9, some 6, some 32)
  | 7 => some (10, some 6, some 32)
  | 8 => some (5, some 7, some 64)
  | 9 => some (2, none, some 1)
  | _ => none

/-- Adds 1 to an error counter, which holds at 2^64 − 1 (R460). -/
def State.countError (s : State) (q n : Nat) : State :=
  let old := (Store.get s.ctr.errors (8 * q + n)).toNat
  { s with ctr := { s.ctr with errors := Store.set s.ctr.errors (8 * q + n) (word (min (old + 1) (2 ^ 64 - 1))) } }

/-- The windowed count of a part: errors of the last 2^30 ticks, this one among them (Table 19-2). -/
def State.windowed (s : State) (kind num : Nat) : Nat × State :=
  let now := s.ctr.cycle.toNat
  let live := s.ctr.window.filter (fun e => decide (now < e.2.2 + 2 ^ 30)) ++ [(kind, num, now)]
  (live.countP (fun e => e.1 == kind && e.2.1 == num), { s with ctr := { s.ctr with window := live } })

/-- HARDWARE_ERROR (R449, R450, R460): the error is counted, a parity failure takes its effect on the word that met it, and
a part that reaches its threshold is retired under FMODE[3] = 0, and under FMODE[3] = 1 reported to the host, in a word that
the spec does not give (Table 04-2; log entry 142).  `sub` is the subarray of a way. -/
def execHardwareError (kind : BitVec 4) (part : BitVec 16) (sub : BitVec 4) (s : State) : Result :=
  match errorKind kind.toNat with
  | none => .next s
  | some (pk, ctr, limit) =>
    let p := part.toNat
    if !partOk pk p then .next s
    else
      let s := match ctr with
        | some n => s.countError (partQuadrant pk p) n
        | none => s
      let s := if kind = 1 ∧ p / 32 = s.core.coreId.toNat then s.parityFailure (p % 32) sub.toNat else s
      match limit with
      | none => .next s
      | some t =>
        let (n, s) := s.windowed pk (if pk = 3 then p * 16 + sub.toNat else p)
        if bit s.mgmt.fmode.toNat 3 = false then .next (if t ≤ n then s.markPart pk p else s)
        else .next (if n = t then s.recordEvent (Config.failureWord pk p) else s)

/-! ### The ends of stalls (R20, R277, R284) -/

/-- RELOCATION_STALL_END (R284): firmware has copied the cluster's layer space to the spill region, where it lies from now
on; DEGRADE and the management event say so, and copies of the core with a layer endpoint revise their promises (Table
15-7). -/
def execRelocationStallEnd (cluster : BitVec 7) (s : State) : Result :=
  let c := cluster.toNat
  if !s.mgmt.relocating.contains c then .next s
  else
    let d := wset (wset (wset s.mgmt.degrade 6 1 1) (16 + c / 32) 1 1) 0 1 1
    let s1 := { s with mgmt := { s.mgmt with
      relocating := s.mgmt.relocating.filter (· != c), relocated := s.mgmt.relocated ++ [c], degrade := d } }
    let s2 := if c = s1.ownCluster ∧ s1.hostPort = false then
        ((s1.scratchWays true).foldl State.toSlot s1).revise (fun x => x.ranges.any (fun r => r.space == 2)) else s1
    .next (s2.serviceEvent 6 c)

/-- XRATIO_STALL_END (R20, R277): the layer buses of an island run again. -/
def execXratioStallEnd (island : BitVec 4) (s : State) : Result :=
  .next { s with mgmt := { s.mgmt with stalled := s.mgmt.stalled.filter (· != island.toNat) } }

/-! ### Power (R483, R484) -/

/-- The supply of core island `i` in mV (R483, Table 25-8): it follows XRATIO, linear between the rows, to the nearest
5 mV. -/
def State.supply (s : State) (i : Nat) : Nat :=
  let line (mv x dmv dx : Nat) : Nat := mv + (2 * (dmv * (s.xratio i - x)) + 5 * dx) / (10 * dx) * 5
  if s.xratio i ≤ 70 then line 450 36 100 34 else line 550 70 200 14

/-- The event of a change of an island's clock (R484); `i` numbers core islands 4 × quadrant + i, the event word
8 × quadrant + i (R483). -/
def State.islandTo (s : State) (i x : Nat) : State :=
  let w := word (0x40 + (i / 4 * 8 + i % 4) * 2 ^ 8 + x * 2 ^ 16)
  ((s.setXratio i x).recordEvent w).hostPortEvent (i / 4) w

/-- An island lowered by one unit, never below 36. -/
def State.lowerIsland (s : State) (i : Nat) : State :=
  if s.xratio i ≤ 36 then s
  else
    let s1 := s.islandTo i (s.xratio i - 1)
    { s1 with mgmt := { s1.mgmt with lowered := i :: s1.mgmt.lowered.filter (· != i) } }

/-- The first of a list whose value is the greatest, in order from `n` up, against the best so far. -/
def firstGreatest : List (BitVec 16) → Nat → Nat × BitVec 16 → Nat
  | [], _, best => best.1
  | p :: ps, n, best => firstGreatest ps (n + 1) (if best.2 < p then (n, p) else best)

/-- The core island of highest power over the last millisecond; ties go to the lower number (R484). -/
def hottest (powers : List (BitVec 16)) : Nat := firstGreatest powers 0 (0, 0)

/-- The comparison of POWER with PLIM (R484); `top` is the core island of highest power.  Answers the island it lowered. -/
def State.comparePower (s : State) (top : Nat) : Option Nat × State :=
  let p := s.mgmt.power.toNat
  let limit := s.mgmt.plim.toNat
  let calm (n : Nat) (s : State) : State := { s with mgmt := { s.mgmt with below := n } }
  if limit < p then (some top, calm 0 (s.lowerIsland top))
  else if 100 * p < 95 * limit then
    if s.mgmt.below < 9 then (none, calm (s.mgmt.below + 1) s)
    else
      match s.mgmt.lowered.find? (fun i => decide (s.xratio i < s.mgmt.fmaxr.toNat)) with
      | some i => (none, calm 0 (s.islandTo i (s.xratio i + 1)))
      | none => (none, calm 10 s)
  else (none, calm 0 s)

/-- POWER_COMPARISON (R484): one comparison, with the powers of the 16 core islands in the order of their numbers; an island
above FMAXR is lowered regardless of power. -/
def execPowerComparison (power : BitVec 16) (islands : List (BitVec 16)) (s : State) : Result :=
  if islands.length ≠ 16 then .next s
  else
    let s := { s with mgmt := { s.mgmt with power := power.zeroExtend 64 } }
    let (done, s) := s.comparePower (hottest islands)
    .next ((List.range 16).foldl (fun s i =>
      if s.mgmt.fmaxr.toNat < s.xratio i ∧ done ≠ some i then s.lowerIsland i else s) s)

end Sys2Proof.Machine
end

