-- ==== Sys2Proof/Machine/Windows.lean ====
section
/-! DEFINITION. What the host, and harts of other cores, do through the device's windows and the management block
(R387 to R390, R407, R411, R445, R452, R457, R460, R471 to R479, R482). -/

namespace Sys2Proof.Machine

/-- An access through the windows of the quadrant blocks, or BAR0 or BAR4: in recovery it gets no answer (R481). -/
def State.viaWindow (s t : State) : Result := .next (if s.mgmt.recovery then s else t)

/-! ### Mailboxes (R388, R389) -/

/-- MAILBOX_REQUEST (R388): the host writes a mailbox state word. -/
def execMailboxRequest (q : BitVec 2) (slot : BitVec 8) (w : BitVec 64) (s : State) : Result :=
  s.viaWindow (s.mailboxRequest q.toNat slot.toNat w)

/-- MAILBOX_NEXT (R389): a hart reads NEXT. -/
def execMailboxNext (q : BitVec 2) (s : State) : Result := .next (s.mailboxNext q.toNat).2

/-- MAILBOX_NOTIFY (R389): a hart writes NOTIFY. -/
def execMailboxNotify (q : BitVec 2) (n : BitVec 64) (s : State) : Result := .next (s.mailboxNotify q.toNat n.toNat)

/-! ### Fault windows and the host fault buffer (R407, R411, R475) -/

/-- FAULT_WINDOW_TAKE (R407): hart `h` reads TAKE of its core's window. -/
def execFaultWindowTake (h : BitVec 1) (s : State) : Result := .next (s.faultTake h).2

/-- A reply word sets out for this core (R408): from the host by way of quadrant `src` − 1024, or from core `src` − 2048. -/
def State.sendReply (s : State) (src : Nat) (w : Word) : State :=
  { s with net := { s.net with replies := s.net.replies ++ [{ src := src, before := 0, word := w }] } }

/-- FAULT_WINDOW_REPLY (R407): a hart of another core writes REPLY of this core's window, which core being a free value; one
of this core does so by its own store. -/
def execFaultWindowReply (w : BitVec 64) (s : State) : Result :=
  let (n, s1) := s.draw
  .next (s1.sendReply (2048 + Config.replySource n) w)

/-- HTAKE (R475): the oldest record not yet taken goes to HRECORD with its COREID; answers its slot. -/
def State.hostTake (s : State) (q : Nat) : Option Nat × State :=
  match s.host.faultBuf.find? (fun e => e.quadrant == q && !e.rec_.taken) with
  | none => (none, s)
  | some e =>
    let r := e.rec_
    let buf := s.host.faultBuf.map (fun x =>
      if x.quadrant = q ∧ x.slot = e.slot then { x with rec_ := { x.rec_ with taken := true } } else x)
    (some e.slot, { s with host := { s.host with
      faultBuf := buf, hrecord := [r.w0, r.w1, r.w2, r.w3, e.core.zeroExtend 64, 0, 0, 0] } })

/-- HOST_FAULT_TAKE (R475). -/
def execHostFaultTake (q : BitVec 2) (s : State) : Result :=
  s.viaWindow (s.hostTake q.toNat).2

/-- HREPLY (R411, R475): a reply word with its core in bits [57:48]; one for another core does not reach this one. -/
def State.hostReply (s : State) (w : Word) : State :=
  if wf w 48 10 = s.core.coreId.toNat then s.sendReply (1024 + s.quadrant) (wset w 48 16 0) else s

/-- HOST_FAULT_REPLY (R475). -/
def execHostFaultReply (_q : BitVec 2) (w : BitVec 64) (s : State) : Result :=
  s.viaWindow (s.hostReply w)

/-! ### Directory windows and violation logs (R445, R452) -/

/-- DIRECTORY_TAKE (R445): a reader takes the oldest event: 0 and 1 are the core's harts, 2 the host, any other a hart of
another core, whose RECORD is not in this model. -/
def execDirectoryTake (slice : BitVec 8) (reader : Nat) (s : State) : Result :=
  s.viaWindow (match s.dirTake slice.toNat with
    | (none, s) => s
    | (some (_, r), s) =>
      if reader = 2 then { s with dir := { s.dir with hostRecord := r } }
      else if reader < 2 then s.modHart (BitVec.ofNat 1 reader) (fun x => { x with dirRecord := r })
      else s)

/-- DIRECTORY_ACK (R445, R446). -/
def execDirectoryAck (slice : BitVec 8) (w : BitVec 64) (s : State) : Result :=
  s.viaWindow (s.dirAck slice.toNat w)

/-- VIOLATION_LOG_TAKE (R452): a reader takes the oldest entry; readers as for DIRECTORY_TAKE. -/
def execViolationLogTake (q : BitVec 2) (reader : Nat) (s : State) : Result :=
  s.viaWindow (match s.vlogTake q.toNat with
    | (none, s) => s
    | (some r, s) =>
      if reader = 2 then { s with host := { s.host with vlogRecord := r } }
      else if reader < 2 then s.modHart (BitVec.ofNat 1 reader) (fun x => { x with vlogRecord := r })
      else s)

/-! ### Error and heat windows (R457, R460) -/

/-- ERROR_COUNTERS_CLEAR (R460). -/
def execErrorCountersClear (q : BitVec 2) (s : State) : Result := s.viaWindow (s.errorsClear q.toNat)

/-- HEAT_ENTRY_READ (R457): word j of the window of controller or port `c`. -/
def execHeatEntryRead (c : BitVec 8) (j : BitVec 10) (s : State) : Result :=
  s.viaWindow (if c.toNat < 132 then (s.heatRead c.toNat j.toNat).2 else s)

/-- HEAT_SEED_WRITE (R457). -/
def execHeatSeedWrite (c : BitVec 8) (v : BitVec 64) (s : State) : Result :=
  s.viaWindow (if c.toNat < 132 then s.heatSeed c.toNat v else s)

/-- HEAT_CLEAR (R457). -/
def execHeatClear (c : BitVec 8) (s : State) : Result :=
  s.viaWindow (if c.toNat < 132 then s.heatClear c.toNat else s)

/-! ### MSI-X (R474) -/

/-- Unmasks a vector: a held message is sent. -/
def State.unmask (s : State) (v : Nat) : State :=
  let s1 := { s with host := { s.host with msixOpen := Store.set s.host.msixOpen v 1 } }
  if Store.get s1.host.msixPending v = 1 then
    { s1 with host := { s1.host with
        msixPending := Store.set s1.host.msixPending v 0, msixSent := s1.host.msixSent ++ [v] } }
  else s1

/-- MSIX_VECTOR_UNMASK (R474). -/
def execMsixVectorUnmask (v : BitVec 9) (s : State) : Result :=
  s.viaWindow (if v.toNat < 328 then s.unmask v.toNat else s)

/-- A host write of 8 bytes of the MSI-X table: the second word of an entry holds the vector's mask at bit 32. -/
def State.msixWrite (s : State) (o : Nat) (v : Word) : State :=
  let n := o / 16
  if o % 16 ≠ 8 ∨ 328 ≤ n then s
  else if bit v.toNat 32 then { s with host := { s.host with msixOpen := Store.set s.host.msixOpen n 0 } }
  else s.unmask n

/-! ### The management block (R476, R482) -/

/-- EVLOG_READ (R476). -/
def execEvlogRead (s : State) : Result := .next s.evlogRead.2

/-- The bytes of a value, lowest first. -/
def leBytes (v n : Nat) : List Byte := (bytesOf v n).map (·.2)

/-- A sparse store of bytes from a list. -/
def storeOf (bs : List Byte) : Store 8 := bs.zipIdx.filterMap (fun e => if e.1 = 0 then none else some (e.2, e.1))

/-- Bytes of a stored range. -/
def bytesAt (m : Store 8) (a n : Nat) : List Byte := (List.range n).map (fun i => Store.get m (a + i))

/-- The retirement map as bytes, for its digest: the spec gives the digest, not the form (R482). -/
def mapBytes (m : List (Nat × Nat)) : List Byte := m.flatMap (fun e => leBytes e.1 1 ++ leBytes e.2 2)

/-- The signed part of the attestation report (Table 25-7, bytes 0x000 to 0x119). -/
def State.reportBody (s : State) : List Byte :=
  let digest (f : Nat → Byte) : List Byte := (List.range 64).map f
  leBytes 0x41544D4F 4 ++ leBytes 1 4 ++ bytesAt s.mgmt.nonce 0 64 ++ digest Config.firmwareDigest ++
  (if s.mgmt.resident.isEmpty then List.replicate 64 0 else s.mgmt.resident) ++
  leBytes Config.caps.toNat 8 ++ leBytes s.ctr.cycle.toNat 8 ++ digest (Config.sha3 (mapBytes s.mgmt.map)) ++
  leBytes s.mgmt.devnum.toNat 2

/-- The controller fills and signs the report (R482). -/
def State.attest (s : State) : State :=
  let body := s.reportBody
  let bytes := body ++ (List.range 4627).map (Config.signature body)
  { s with mgmt := { s.mgmt with report := storeOf bytes, reportLen := bytes.length } }

/-- ATTESTATION_REQUEST (R482). -/
def execAttestationRequest (s : State) : Result := .next s.attest

end Sys2Proof.Machine
end

