-- ==== Sys2Proof/Machine/Bringup.lean ====
section
/-! DEFINITION. Device reset, the host's load of the resident image, the start of the resident program, and the host's
writes of registers that have no step of their own (R90, R91, R473, R476, R479, R481, R486, R487). -/

namespace Sys2Proof.Machine

/-! ### Device reset (R449, R461, R481) -/

/-- The ways of this core that a retirement map marks. -/
def State.retiredWays (s : State) (map : List (Nat × Nat)) : Nat :=
  (List.range 32).foldl (fun a w => a + b2n (map.contains (3, s.core.coreId.toNat * 32 + w)) * 2 ^ w) 0

/-- The bands of this core's tile unit that a retirement map marks. -/
def State.retiredBands (s : State) (map : List (Nat × Nat)) : Nat :=
  (List.range 8).foldl (fun a b => a + b2n (!s.hostPort && map.contains (4, s.ownCluster * 8 + b)) * 2 ^ b) 0

/-- The surviving retirement map in force: parts out of service, DEGRADE, relocated layer space, and the core's own ways
and bands (R160, R461, R477). -/
def State.applyMap (s : State) (map : List (Nat × Nat)) : State :=
  let out := s.retiredWays map
  let off := (List.range 32).foldl (fun (x : Word) w => if bit out w then wset x (2 * w) 2 3 else x) s.core.wayrole
  let moved := lostClusters map
  { s with
    core := { s.core with out := BitVec.ofNat 32 out, marked := 0, wayrole := off }
    tile := { s.tile with out := BitVec.ofNat 8 (s.retiredBands map), marked := 0 }
    mgmt := { s.mgmt with map := map, dead := map, emptying := [], relocated := moved, relocating := [], degrade := degradeOf map moved } }

/-- The event word of a failed step of bring-up, and recovery (R481). -/
def State.failBringup (s : State) (step : Nat) : State :=
  let s1 := s.recordEvent (word (0xE000 + step))
  { s1 with mgmt := { s1.mgmt with recovery := true } }

/-- The state that bring-up begins from: everything at its reset value, but for what survives a device reset: the
retirement map, what lies outside the device (the far memory that is present, the host), and the model's own fields. -/
def State.cleared (s : State) : State :=
  { State.reset with
    -- at reset the layer bus's previous grant counts as core 1's (R278)
    core := { CoreState.reset with coreId := s.core.coreId, lastGrant := bit s.core.coreId.toNat 0 }
    home := { Home.reset with farUnits := s.home.farUnits }
    host := { HostSide.reset with hostMem := s.host.hostMem, msixSent := s.host.msixSent }
    scan := s.scan, agenda := s.agenda, dt := s.dt, free := s.free }

/-- DEVICE_RESET (R481): steps 1 to 6 of Table 25-6, of which one may fail.  Self-test may retire further parts, each with
its event (R449, R462), and a cluster that loses both buses so has the event of its relocation. -/
def execDeviceReset (s : State) : Result :=
  let (m, s1) := (s.cleared.applyMap s.mgmt.map).draw
  let failed := Config.failedStep m
  if 1 ≤ failed ∧ failed ≤ 2 then .next (s1.failBringup failed)
  else
    let (n, s2) := s1.draw
    let s3 := (Config.selfTestFailures n).foldl (fun s e => if partOk e.1 e.2 then s.markPart e.1 e.2 else s) s2
    let lost := (lostClusters s3.mgmt.map).filter (fun c => !(lostClusters s.mgmt.map).contains c)
    let s4 := lost.foldl (fun s c => s.serviceEvent 6 c) (s3.applyMap s3.mgmt.map)
    .next (if 3 ≤ failed ∧ failed ≤ 6 then s4.failBringup failed else s4)

/-! ### The resident image (R486, R487) -/

/-- A field of the image at LOADADDR. -/
def State.imageField (s : State) (o n : Nat) : Nat := s.homeValue (s.mgmt.loadAddr.toNat + o) n

/-- A section of the image (Table 25-11). -/
structure Section where
  kind : Nat
  offset : Nat
  size : Nat
  addr : Nat
deriving DecidableEq, Repr

/-- The header of the image (Table 25-10). -/
structure Image where
  magic : Nat
  version : Nat
  profiles : Nat
  entry : Nat
  lower : Nat
  upper : Nat
  length : Nat
  count : Nat
  sections : List Section
deriving DecidableEq, Repr

/-- The image as it lies at LOADADDR. -/
def State.image (s : State) : Image :=
  let f := s.imageField
  let n := f 6 2
  { magic := f 0 4, version := f 4 2, profiles := f 8 8, entry := f 0x10 8, lower := f 0x18 2, upper := f 0x1A 2,
    length := f 0x20 8, count := n,
    sections := (List.range (min n 64)).map (fun k =>
      let o := 0x40 + 32 * k
      { kind := f o 1, offset := f (o + 8) 8, size := f (o + 16) 8, addr := f (o + 24) 8 }) }

/-- Whether the profiles of a header or container are all reported by CAPS, each in a version no later (R89, R141). -/
def profilesOk (p : Nat) : Bool :=
  let caps := Config.caps.toNat
  (List.range 5).all (fun k => !bit p k ||
    (bit caps (16 + k) && decide (bits p (16 + 4 * k) 4 ≤ bits caps (32 + 4 * k) 4)))

/-- Whether a section is mapped to virtual addresses: kinds 1 to 4. -/
def Section.mapped (x : Section) : Bool := decide (1 ≤ x.kind) && decide (x.kind ≤ 4)

/-- The checks of one section (R487): its kind, its bytes within the image, its alignment and address. -/
def Section.ok (x : Section) (length lower upper : Nat) : Bool :=
  let ways (m : Nat) : Nat := (List.range 16).countP (fun k => bit m k)
  decide (1 ≤ x.kind) && decide (x.kind ≤ 6) &&
  (x.kind == 4 || decide (x.offset + x.size ≤ length)) &&
  (!decide (x.kind ≤ 3) || x.offset % 4096 == 0) &&
  (!x.mapped || (canonical (word x.addr) && x.addr % 4096 == 0 &&
    decide (x.addr + x.size ≤ if x.addr < 2 ^ 47 then 2 ^ 47 else 2 ^ 64))) &&
  (x.kind != 5 || decide (x.size ≤ 262144 * ways lower)) &&
  (x.kind != 6 || decide (x.size ≤ 262144 * ways upper))

/-- Whether two sections share virtual addresses. -/
def Section.meets (x y : Section) : Bool :=
  x.mapped && y.mapped && decide (x.addr < y.addr + y.size) && decide (y.addr < x.addr + x.size)

/-- Whether no two sections of a list overlap. -/
def apart : List Section → Bool
  | [] => true
  | x :: xs => xs.all (fun y => !x.meets y) && apart xs

/-- COREIDs of the work cores and host-port cores (R9, R10). -/
def coreIds : List Nat := List.range 512 ++ [0x200, 0x280, 0x300, 0x380]

/-- The first virtual address of a hart's stack (R487). -/
def stackBase (hart : Nat) : Nat := 0x7F0000000000 + 0x20000 * hart

/-- Whether a section shares no virtual address with a stack (R487: addresses free of overlap). -/
def Section.offStacks (x : Section) : Bool :=
  !x.mapped || coreIds.all (fun c => [2 * c, 2 * c + 1].all (fun h =>
    decide (x.addr + x.size ≤ stackBase h) || decide (stackBase h + 65536 ≤ x.addr)))

/-- The header checks of R487, with the profiles of R89; `loaded` is the number of bytes written through LOADWIN. -/
def Image.ok (i : Image) (loaded : Nat) : Bool :=
  i.magic == 0x4A424F44 && i.version == 1 && decide (1 ≤ i.count) && decide (i.count ≤ 64) &&
  decide (i.length ≤ loaded) && i.sections.all (fun x => x.ok i.length i.lower i.upper && x.offStacks) && apart i.sections &&
  profilesOk i.profiles

/-! ### Page tables and stacks (R392, R487) -/

/-- A 4 KiB page to be mapped: its virtual page number, the physical address of its frame, R, W and X. -/
structure Mapping where
  vpn : Nat
  pa : Nat
  perm : Nat
deriving DecidableEq, Repr

/-- The pages of a range of `n` bytes from `va`, whose frames are given by `frame`. -/
def pagesOf (va n perm : Nat) (frame : Nat → Nat) : List Mapping :=
  (List.range ((n + 4095) / 4096)).map (fun i => { vpn := va % 2 ^ 48 / 4096 + i, pa := frame i, perm := perm })

/-- The least multiple of 2 MiB at or above an address. -/
def up2M (a : Nat) : Nat := (a + 2 ^ 21 - 1) / 2 ^ 21 * 2 ^ 21

/-- Frame `i` of `n` from `base` in the order that firmware takes them: it begins its round anywhere. -/
def turned (turn base n i : Nat) : Nat := base + 4096 * ((i + turn) % max 1 n)

/-- The tables of a list of mapped pages as (level, prefix), the root first (R392): a table of a level serves the
addresses with one value of the bits above its index. -/
def tablesOf (vpns : List Nat) : List (Nat × Nat) :=
  let at_ (l : Nat) : List (Nat × Nat) := ((vpns.map (fun v => v / 512 ^ (l + 1))).eraseDups).map (fun p => (l, p))
  (3, 0) :: (at_ 2 ++ at_ 1 ++ at_ 0)

/-- The entries of a table that are not 0, as (index, entry): pointers to the tables beneath it, or leaves. -/
def tableEntries (tables : List (Nat × Nat)) (place : Nat → Nat) (pages : List Mapping) (t : Nat × Nat) :
    List (Nat × Nat) :=
  if t.1 = 0 then
    (pages.filter (fun m => m.vpn / 512 == t.2)).map (fun m => (m.vpn % 512, m.pa + m.perm + 1))
  else
    tables.zipIdx.filterMap (fun e =>
      if e.1.1 + 1 = t.1 ∧ e.1.2 / 512 = t.2 then some (e.1.2 % 512, place e.2 + 1) else none)

/-- The bytes of a frame that holds 8-byte entries at indices. -/
def frameBytes (base : Nat) (entries : List (Nat × Nat)) : Memory :=
  (sortBy (fun x y => decide (x.1 ≤ y.1)) entries).flatMap (fun e =>
    (bytesOf e.2 8).filterMap (fun b => if b.2 = 0 then none else some (base + 8 * e.1 + b.1, b.2)))

/-- Cells in rising order from key `a` up, with no zero among them: of two with one key the first stays. -/
def rising : Nat → Memory → Memory
  | _, [] => []
  | a, c :: m => if a ≤ c.1 ∧ c.2 ≠ 0 then c :: rising (c.1 + 1) m else rising a m

/-- Memory with everything from `a` to `b − 1` replaced. -/
def replaceRange (m : Memory) (a b : Nat) (new : Memory) : Memory :=
  m.filter (fun c => decide (c.1 < a)) ++ (rising a new).filter (fun c => decide (c.1 < b)) ++
    m.filter (fun c => decide (max a b ≤ c.1))

/-- What firmware lays out for a resident image (R487, steps 2 and 3): memory with the tables, the root's address, and
the first address it leaves unused. -/
def layOut (i : Image) (load : Nat) (turn : Nat) (mem : Memory) : Memory × Nat × Nat :=
  let area := up2M (load + i.length)
  let file := i.sections.flatMap (fun x =>
    if x.kind = 1 then pagesOf x.addr x.size 10 (fun k => load + x.offset + 4096 * k)
    else if x.kind = 2 then pagesOf x.addr x.size 2 (fun k => load + x.offset + 4096 * k)
    else if x.kind = 3 then pagesOf x.addr x.size 6 (fun k => load + x.offset + 4096 * k)
    else [])
  let bss := i.sections.flatMap (fun x => if x.kind = 4 then pagesOf x.addr x.size 6 (fun _ => 0) else [])
  let stackPages := coreIds.flatMap (fun c => [2 * c, 2 * c + 1].flatMap (fun h => pagesOf (stackBase h) 65536 6 (fun _ => 0)))
  let tables := tablesOf ((file ++ bss ++ stackPages).map (·.vpn))
  let t := tables.length
  let place := turned (Config.frameTurn turn) area t
  let bssAt := area + 4096 * t
  let stackAt := bssAt + 4096 * bss.length
  let bss := bss.zipIdx.map (fun e => { e.1 with pa := turned (Config.frameTurn (turn + 1)) bssAt bss.length e.2 })
  let stackPages := stackPages.zipIdx.map (fun e => { e.1 with pa := turned (Config.frameTurn (turn + 2)) stackAt stackPages.length e.2 })
  let stop := stackAt + 4096 * stackPages.length
  let pages := file ++ bss ++ stackPages
  let bytes := sortBy (fun (x y : Nat × Memory) => decide (x.1 ≤ y.1))
    (tables.zipIdx.map (fun e => (place e.2, frameBytes (place e.2) (tableEntries tables place pages e.1))))
  (replaceRange mem area stop (bytes.flatMap (·.2)), place 0, up2M stop)

/-! ### Starting the resident program (R91, R487) -/

/-- A hart as the resident program starts it (R91, R112). -/
def startHart (s : State) (h : BitVec 1) (entry top : Nat) : Hart :=
  let x := Hart.reset h
  let hart := 2 * s.core.coreId.toNat + h.toNat
  let role := if s.hostPort then 2 else if s.isStartCore && h == 0 then 1 else 0
  let g : Store 64 := (List.range 8).foldl (fun g k => Store.set g (56 + k) (Config.firmwareReg (64 * h.toNat + 56 + k))) []
  let g := Store.set (Store.set (Store.set (Store.set g 2 (word (stackBase hart + 65536))) 5 (word role)) 6 (word s.quadrant))
    7 (word top)
  { x with
    g := g, pc := field (word entry) 2 62, run := .running
    csr := { x.csr with status := wset (wset x.csr.status 0 2 1) 4 1 1 } }

/-- The role word of the scratch masks: a retired way stays off (R91). -/
def State.maskRoles (s : State) (i : Image) : Word :=
  let mask := i.lower + (if s.hostPort then 0 else i.upper * 65536)
  (List.range 32).foldl (fun (x : Word) w =>
    wset x (2 * w) 2 (if bit s.core.out.toNat w then 3 else if bit mask w then 1 else 0)) 0

/-- The `.local` and `.layer` images copied to offset 0 of their spaces, whose other bytes are 0 (R487, step 5). -/
def State.scratchImages (s : State) (i : Image) (load : Nat) : State :=
  let s := { s with core := { s.core with sram := [], wayrole := s.maskRoles i } }
  i.sections.foldl (fun s x =>
    let put (layer : Bool) : State :=
      (List.range (min x.size (s.extent layer))).foldl
        (fun s o => s.scratchStore layer o 1 (s.homeValue (load + x.offset + o) 1)) s
    if x.kind = 5 then put false else if x.kind = 6 ∧ s.hostPort = false then put true else s) s

/-- RESIDENT_START (R487): tables, stacks, PTBASE, CID, scratch ways and harts.  A core that has been marked since
the reset, or was at it, is not started (R450, R476). -/
def State.startResident (s : State) (i : Image) : State :=
  let load := s.mgmt.loadAddr.toNat
  let n := s.free
  let (mem, root, top) := layOut i load n s.home.mem
  let s := { s with free := n + 3, home := { s.home with mem := mem } }
  let s := s.scratchImages i load
  let s := { s with core := { s.core with ptbase := word root, cid := 1 } }
  if s.leaving 2 s.core.coreId.toNat then s
  else { s with h0 := startHart s 0 i.entry top, h1 := startHart s 1 i.entry top }

/-- The image's bytes, for the resident measurement. -/
def State.imageBytes (s : State) (i : Image) : List Byte :=
  (List.range (min i.length s.mgmt.loaded)).map (fun k => BitVec.ofNat 8 (s.imageField k 1))

/-- START (R481): LOADWIN closes, the resident measurement is recorded, and step 8 of bring-up runs. -/
def State.loadStart (s : State) : State :=
  if s.mgmt.started || s.mgmt.recovery then s
  else
    let i := s.image
    let bytes := s.imageBytes i
    let digest := (List.range 64).map (Config.sha3 bytes)
    let s1 := { s with mgmt := { s.mgmt with started := true, resident := digest } }
    if i.ok s.mgmt.loaded then s1.startResident i else s1.failBringup 8

/-- LOAD_START (R481, R487). -/
def execLoadStart (s : State) : Result := .next s.loadStart

/-! ### Registers that the host writes (R473, R476, R479, R481, R482) -/

/-- A violation by the host (R451): logged with source, CID and kind 0. -/
def State.hostViolation (s : State) (pa : Nat) : State :=
  let b := (windowOf pa).blame 0
  s.logViolation b.1 0 0 b.2 (word pa) 0

/-- A service command (Table 25-4). -/
def State.svcCommand (s : State) (v : Word) : State :=
  let part := wf v 16 16
  match wf v 0 8 with
  | 1 => s.svcRetire (wf v 8 8) part
  | 2 => s.svcClear (wf v 8 8) part
  | 3 => s.svcRelease part
  | _ => s.svcAnswer true

/-- A write through LOADWIN (R481): the bytes go to LOADADDR onwards; one that its home cannot take yet is not performed. -/
def State.loadWindow (s : State) (o : Nat) (v : Word) : State :=
  let pa := s.mgmt.loadAddr.toNat + o
  match s.homeError pa with
  | some e =>
    let q := match regionOf pa with
      | .none => 0
      | _ => e.1
    s.logViolation q 0 0 e.2 (word pa) 0
  | none =>
    match s.homeWrite 0 0 pa 8 v.toNat with
    | (.full, _) => s
    | (_, s1) => { s1 with mgmt := { s1.mgmt with loaded := max s1.mgmt.loaded (o + 8) } }

/-- A host write of 8 bytes of a codec's block (R479). -/
def State.codecWrite (s : State) (k o : Nat) (v : Word) : State :=
  let c := s.codec k
  if o < 0x20 then
    let put (st : Store 16) (j : Nat) : Store 16 := Store.set st (o / 2 + j) (BitVec.ofNat 16 (bits v.toNat (16 * j) 16))
    s.setCodec k { c with staging := (List.range 4).foldl put c.staging }
  else s

/-- A host write of the management block (Table 25-4): none for a forbidden one. -/
def State.mgmtHostWrite (s : State) (o : Nat) (v : Word) : Option State :=
  let m := s.mgmt
  if o = 0 then some (s.svcCommand v)
  else if o = 0x20 then some { s with mgmt := { m with devnum := BitVec.ofNat 12 (wf v 0 12) } }
  else if 0x10000 ≤ o ∧ o < 0x18000 then
    some { s with mgmt := { m with route := Store.set m.route ((o - 0x10000) / 8) (BitVec.ofNat 16 (wf v 0 16)) } }
  else if 0x20000 ≤ o ∧ o < 0x2C000 then
    let k := (o - 0x20000) / 0x1000
    let x := (o - 0x20000) % 0x1000
    if x < 0x20 then some (s.codecWrite k x v)
    else if x = 0x20 then
      match execCodecInstallWrite (BitVec.ofNat 4 k) s with
      | .next s => some s
      | _ => none
    else none
  else if 0x30000 ≤ o ∧ o < 0x30040 then
    some { s with mgmt := { m with nonce := storeOf ((List.range 64).map (fun i =>
      if o - 0x30000 ≤ i ∧ i < o - 0x30000 + 8 then BitVec.ofNat 8 (bits v.toNat (8 * (i - (o - 0x30000))) 8)
      else Store.get m.nonce i)) } }
  else if o = 0x30040 then some (if v = 1 then s.attest else s)
  else if o = 0x40000 then if m.started then none else some { s with mgmt := { m with loadAddr := v } }
  else if o = 0x40008 then if m.started then none else some s.loadStart
  else if 0x800000 ≤ o then if m.started then none else some (s.loadWindow (o - 0x800000) v)
  else
    match s.mgmtWrite o v with
    | (true, s) => some s
    | (false, _) => none

/-- A host write of 8 bytes of a window of a quadrant block: the access rules are the window's (R473); none for a
forbidden one. -/
def State.windowHostWrite (s : State) (pa : Nat) (v : Word) : Option State :=
  match windowOf pa with
  | .mailbox q o => if o < 0x10000 ∧ o % 256 = 0 then some (s.mailboxRequest q (o / 256) v) else
      (match s.mmioWrite pa 8 v with
       | (true, s) => some s
       | (false, _) => none)
  -- REPLY is for harts (R407); the host's replies go to HREPLY
  | .fault _ _ 0x10 => none
  | .errors _ _ | .fault _ _ _ | .directory _ _ | .heat _ _ | .vlog _ _ | .hole _ =>
    (match s.mmioWrite pa 8 v with
     | (true, s) => some s
     | (false, _) => none)
  | _ => some s

/-- REGISTER_WRITE (R473, R476): a host write of 8 bytes at an address of the MMIO region, through BAR0 or BAR2, or of the
MSI-X table of BAR4 below 0x4000.  One that is not aligned to its 8 bytes is a violation (R445, R452, R476).  In recovery only the
management block answers (R481). -/
def execRegisterWrite (addr : BitVec 48) (v : BitVec 64) (s : State) : Result :=
  let a := addr.toNat
  if a < 0x4000 then .next (if s.mgmt.recovery then s else s.msixWrite a v)
  else if a < 0xF00000000000 then .next s
  else match windowOf a with
    | .management o =>
      .next (((if a % 8 = 0 then s.mgmtHostWrite o v else none)).getD (s.hostViolation a))
    | _ =>
      .next (if s.mgmt.recovery then s
        else (if a % 8 = 0 then s.windowHostWrite a v else none).getD (s.hostViolation a))

end Sys2Proof.Machine
end

