-- ==== Sys2Proof/Machine/Context.lean ====
section
/-! DEFINITION. The firmware services 0x10 and 0x11: saving the core's context into a container and restoring one (R109,
R152 to R155, R245, R267, R302, R351, R409, R429). -/

namespace Sys2Proof.Machine

/-! ### Firmware services (R144, R152) -/

/-- The service returns behind the ECALL, with a status in g5. -/
def State.firmwareReturn (s : State) (h : BitVec 1) (st : Word) : State :=
  (s.modHart h (fun x => { x.setReg 5 st with csr := { x.csr with epc := x.csr.epc + 4 } })).returnTrap h

/-- Firmware's accesses for hart `h`: those of the calling hart at level 1. -/
def State.firmwareId (s : State) (h : BitVec 1) : EngineId :=
  { kind := h.toNat, ptbase := s.core.ptbase, cid := s.cid16, level := 1 }

/-- Goes on with the value of an access of firmware's: `bad` answers for one that fails, and one that has to wait is made
again with the whole service, of which only the lookups stay (R399). -/
def EngineResult.firmware (r : EngineResult) (s0 : State) (bad : State → Result) (k : Nat → State → Result) : Result :=
  match r with
  | .ok v s => k v s
  | .error s => bad s
  | .fault _ s => bad s
  | .wait s => .next (s0.waitsAs s)

/-- Whether hart `h` has called a service whose arguments are no longer pending (R116, R144). -/
def State.calls (s : State) (h : BitVec 1) : Bool := s.firmwareCall h && (s.hart h).ready [5, 6, 7, 8]

/-- Whether nothing of the core is under way that a container does not record: queued array and tile words, blocks of
private micro-threads, late results, SCFG requests (R108, R118, R152, R267). -/
def State.quiet (s : State) : Bool :=
  s.stream.reqs.isEmpty && s.core.queue.isEmpty && s.core.mqueue.isEmpty && s.core.answers.isEmpty && s.h0.late.isEmpty && s.h1.late.isEmpty &&
  (arrayWays s.core.wayrole).all (fun w => (s.mt w).image.isEmpty)

/-! ### Rebinding (R154) -/

/-- An entry of a registry: hash, base, length. -/
structure RegEntry where
  hash : Nat
  base : Nat
  length : Nat
deriving DecidableEq, Repr

/-- Goes on with the registry at an address; one that cannot be read has no entries. -/
def State.registry (s : State) (e : EngineId) (a n : Word) (s0 : State) (k : List RegEntry → State → Result) : Result :=
  if a = 0 then k [] s
  else
    let r := s.loadWords e a (3 * n.toNat) []
    r.1.firmware s0 (k []) (fun _ s => k ((List.range n.toNat).map (fun j =>
      { hash := r.2.getD (3 * j) 0, base := r.2.getD (3 * j + 1) 0, length := r.2.getD (3 * j + 2) 0 })) s)

/-- The slot of an address field: {word, hash}. -/
def slotOf (reg : List RegEntry) (address : Bool) (v : Word) : List Nat :=
  match if address then reg.find? (fun e => decide (e.base ≤ v.toNat) && decide (v.toNat < e.base + e.length)) else none with
  | some e => [v.toNat - e.base, e.hash]
  | none => [v.toNat, 0]

/-- The value of slot `k` of a list of slots; none when its hash is missing from the registry. -/
def slotValue (reg : List RegEntry) (ws : List Nat) (k : Nat) : Option Word :=
  let w := ws.getD (2 * k) 0
  let h := ws.getD (2 * k + 1) 0
  if h = 0 then some (word w) else (reg.find? (fun e => e.hash == h)).map (fun e => word (e.base + w))

/-! ### Sections as words -/

/-- The values of a hart's section with the mark of an address field: g1 to g63, its CSRs in the order of their numbers,
and the record it is parked on. -/
def hartFields (x : Hart) (mask : Nat) : List (Bool × Word) :=
  let c := x.csr
  let parked : Word := match x.run with
    | .parked (some q) => word (q.toNat + 1)
    | _ => 0
  (List.range 63).map (fun k => (bit mask (k + 1), x.reg (k + 1))) ++
  [(false, c.status), (false, c.cause), (true, c.epc), (true, c.faddr), (false, c.finfo), (false, c.fstride),
   (false, c.fremain), (true, c.tvec), (true, c.scratch), (false, c.pfx), (false, c.ie), (false, c.flags),
   (false, c.rmode), (false, c.cpyt), (false, c.waitto), (false, c.tickcmp)] ++
  (List.range 4).map (fun k => (false, Store.get c.psel k)) ++ (List.range 4).map (fun k => (false, Store.get c.pcnt k)) ++
  [(false, parked)]

/-- A hart's section. -/
def hartSection (reg : List RegEntry) (x : Hart) (mask : Nat) : List Nat :=
  (hartFields x mask).flatMap (fun f => slotOf reg f.1 f.2)

/-- The core CSRs' section: the core CSRs that a hart may write, XRATIO among them, the counters, and for R155 the mask of
the saving core's retired ways. -/
def coreSection (c : CoreState) (xratio retired : Nat) : List Nat :=
  [c.shape, c.boolt, c.akey, c.akmask, c.scaleg, c.bandsc, c.tshape, c.mtsel, c.mtstat, c.cid, c.ptbase, c.prefcap].map
    (·.toNat) ++
  (List.range 4).map (fun k => (Store.get c.psel (k + 4)).toNat) ++
  (List.range 4).map (fun k => (Store.get c.pcnt (k + 4)).toNat) ++ [c.firstFault.toNat, xratio, retired]

/-- The retired ways of the core as a mask (R155, R175). -/
def State.retiredMask (s : State) : Nat := (List.range 32).foldl (fun a k => a + b2n (s.retiredWay k) * 2 ^ k) 0

/-- `n` words of a byte store from `a`. -/
def wordsAt (m : Memory) (a n : Nat) : List Nat := (List.range n).map (fun i => Memory.load m (a + 8 * i) 8)

/-- The section of a layer's 16 ways from `lo`: role bytes, then the rows of scratch and array ways (R153). -/
def waySection (s : State) (lo : Nat) : List Nat :=
  let ways := (List.range 16).map (· + lo)
  let half (k : Nat) : Nat := ((List.range 8).map (fun i => s.role (lo + 8 * k + i) * 256 ^ i)).sum
  [half 0, half 1] ++
  (ways.filter (fun w => s.role w == 1 || s.role w == 2)).flatMap (fun w => wordsAt (s.wayBytes w) 0 32768)

/-- The record of a micro-thread (R245). -/
def mtRecord (x : MicroThread) : List Nat :=
  let pair (a b : Nat) : Nat := a + b * 2 ^ 32
  (List.range 4).map (fun k => pair (x.reg (2 * k)).toNat (x.reg (2 * k + 1)).toNat) ++
  [pair x.link.toNat x.bpc.toNat,
   pair (x.state.toNat + b2n x.pred * 2 ^ 4 + x.fcause.toNat * 2 ^ 8 + x.widx.toNat * 2 ^ 16)
     (x.vlp.toNat + x.type.toNat * 2 ^ 16),
   x.flags.toNat, 0]

/-- The word of an array word of a block (Table 03-1), from its row of the opcode table. -/
def ArrWord.raw (w : ArrWord) : Nat :=
  let masked := w.p == 2
  match arrayRows.find? (fun r => r.op == w.op && (r.form != .vx || !masked) && (r.form != .vxm || masked)) with
  | none => 0
  | some r =>
    let d := w.d.toNat * 2 ^ 19
    let a := w.a.toNat * 2 ^ 12
    let b := w.b.toNat * 2 ^ 5
    let k1 := b2n w.k1 * 2 ^ 4
    r.value + match r.form with
      | .v3 => d + a + b + k1 + b2n w.k2 * 2 ^ 3 + w.p.toNat * 2
      | .v2 => d + a + k1 + w.p.toNat * 2
      | .vm => d + a + (if r.mask &&& 0xFE0 = 0 then b else 0) + w.p.toNat
      | .waitv => d + a + b + k1
      | .vstr => d + a + b + w.p.toNat * 2
      | _ => d + a + (if r.mask &&& 0xFE0 = 0 then b else 0)

/-- The words of an open block (R245). -/
def blockWords (b : List Collected) : List Nat :=
  b.flatMap (fun c => (match c.fmt with
    | some f => [0x1A * 2 ^ 26 + f.toNat]
    | none => []) ++ [c.w.raw])

/-- The micro-thread section: 32 records, then the open-block record (R245). -/
def mtSection (s : State) : List Nat :=
  let ws := blockWords s.core.block
  let ways := arrayWays s.core.wayrole
  (List.range 32).flatMap (fun k => mtRecord ((ways[k]?.map s.mt).getD MicroThread.new)) ++
  [ws.length + s.core.blockMask.toNat * 2 ^ 32] ++
  (List.range 32).map (fun k => ws.getD (2 * k) 0 + ws.getD (2 * k + 1) 0 * 2 ^ 32) ++ [0]

/-- The tile section: COUNT, then the granted rows of t0 and of t1 (R267). -/
def tileSection (s : State) : List Nat :=
  let n := s.grantCount
  n :: [0, 1].flatMap (fun t => (List.range n).flatMap (fun r => (List.range 128).map (fun j =>
    let k := accKey t (s.grantFirst + r) (2 * j)
    (Store.get s.tile.acc k).toNat + (Store.get s.tile.acc (k + 1)).toNat * 2 ^ 32)))

/-- The command block of a transfer as words, SRC and DST as the slots' words (Table 15-2). -/
def cmdWords (c : CopyCmd) (src dst result : Nat) : List Nat :=
  [src, dst, c.sstride.toNat, c.dstride.toNat,
   c.rows + c.cols * 2 ^ 16 + c.vrows * 2 ^ 32 + c.vcols * 2 ^ 48, c.ctl.toNat + c.scale.toNat * 2 ^ 32, c.fill.toNat, result]

/-- The live transfers with their slots. -/
def State.liveCopies (s : State) : List (Nat × CopySlot) :=
  s.copy.slots.filterMap (fun e => e.2.map (fun c => (e.1, c)))

/-- The stage of a transfer as Table 15-9 numbers it, with the record it is stalled on. -/
def CopyStage.code : CopyStage → Nat × Nat
  | .waiting => (1, 0)
  | .running => (2, 0)
  | .stalled q => (3, q.toNat)

/-- The copy section (R351): the count, a 96-byte record each, with the state of Table 15-9, and the core's issue sequence
number; then, for each transfer, the 16-byte slots of its SRC and DST (R154) and what else this model's engine holds (log
entry 139). -/
def copySection (s : State) (reg : List RegEntry) : List Nat :=
  let l := s.liveCopies
  [l.length] ++
  l.flatMap (fun e => cmdWords e.2.cmd e.2.cmd.src.toNat e.2.cmd.dst.toNat e.2.cmd.result.toNat ++
    [(ticketOf e.2.seq e.1).toNat + e.2.progress * 2 ^ 32, e.2.cid.toNat + e.2.state * 2 ^ 16, 0, 0]) ++
  [s.copy.nextSeq.toNat] ++
  l.flatMap (fun e => slotOf reg (e.2.cmd.sspace == 0) e.2.cmd.src ++ slotOf reg (e.2.cmd.dspace == 0) e.2.cmd.dst ++
    [e.2.block, e.2.level.toNat + e.2.hart.toNat * 4 + b2n e.2.ended * 8 + e.2.stage.code.1 * 16 + e.2.stage.code.2 * 2 ^ 16,
     e.2.nsat, e.2.status.toNat, e.2.planned, e.2.order, e.2.attempt])

/-- Words of a transfer behind the issue sequence number. -/
def copyTail : Nat := 11

/-- The spill queue's descriptor: its address and the CID it is written with (R370, R371). -/
def spillSection (s : State) (reg : List RegEntry) : List Nat :=
  match s.net.spill with
  | some (a, cid) => slotOf reg true a ++ [cid.toNat, 1]
  | none => [0, 0, 0, 0]

/-- Goes on with the reply list's descriptor: its address (R409), 0 where no list can be read. -/
def replySection (s : State) (reg : List RegEntry) (s0 : State) (k : List Nat → State → Result) : Result :=
  match s.net.spill with
  | none => k [0, 0] s
  | some (a, cid) =>
    if a = 0 ∨ a.toNat % 64 ≠ 0 then k [0, 0] s
    else (s.engineLoad (s.spillId cid) (a + 0x18) 8).firmware s0 (k [0, 0]) (fun l s =>
      k (if l % 16 = 0 then slotOf reg true (word l) else [0, 0]) s)

/-- The fault queue with the core's next sequence number (R409). -/
def queueSection (s : State) : List Nat :=
  [s.mmu.queue.length, s.mmu.nextSeq.toNat] ++
  s.mmu.queue.flatMap (fun r => [r.w0.toNat, r.w1.toNat, r.w2.toNat, r.w3.toNat, b2n r.taken])

/-- Entries of the section table with their offsets, from offset `o` (Table 06-9).  DESIGN CHOICE (log entry 139): every
section has version 1. -/
def sectionTable : Nat → List (Nat × List Nat) → List Nat
  | _, [] => []
  | o, (t, ws) :: r => [t + 2 ^ 16, o] ++ sectionTable (o + 8 * ws.length) r

/-- THE CONTAINER of the core's context, as 8-byte words (R153): `m0` and `m1` are the g-rebind masks, `replies` the reply
list's descriptor. -/
def State.container (s : State) (h : BitVec 1) (reg : List RegEntry) (rebind : Bool) (m0 m1 : Nat) (replies : List Nat) :
    List Nat :=
  let s' := s.modCsr h (fun c => { c with epc := c.epc + 4 })
  let secs : List (Nat × List Nat) :=
    [(1, hartSection reg s'.h0 m0), (2, hartSection reg s'.h1 m1), (3, coreSection s.core s.ownXratio s.retiredMask), (4, waySection s 0),
     (5, waySection s 16), (6, mtSection s), (7, tileSection s), (8, copySection s reg), (9, spillSection s reg),
     (10, replies), (11, queueSection s)]
  let total := 256 + 8 * (secs.map (fun x => x.2.length)).sum
  let flags := b2n rebind + b2n s.h0.isParked * 2 + b2n s.h1.isParked * 4 + s.control.toNat * 8
  let table := sectionTable 256 secs
  [0x584D4F43 + 1 * 2 ^ 32 + Config.caps.toNat % 2 ^ 16 * 2 ^ 48, bits Config.caps.toNat 16 36,
   s.cid16.toNat + flags * 2 ^ 16, total, m0, m1, secs.length, 0] ++
  table ++ List.replicate (24 - table.length) 0 ++ secs.flatMap (·.2)

/-! ### Save (R152, R250, R302, R450) -/

/-- A paused stream that is cancelled with status 1 (R429): its completion word is to be written. -/
def StreamSlot.cancelled (c : StreamSlot) : StreamSlot := { c.endWith 1 with paused := false, doneOn := none }

/-- What a save changes on the core beside the container: a granted band that is marked goes out of service for later
grants (R250), and a core that the retirement map marks stops, its streams cancelled (R429, R450). -/
def State.afterSave (s : State) : State :=
  let t := s.tile
  let mine (b : Nat) : Bool := bit t.marked.toNat b && (Store.get t.owner b).toNat == s.position + 1
  let out := (List.range 8).foldl (fun x b => if mine b then setBits x b 1 1 else x) t.out.toNat
  let s := if s.hostPort then s else { s with tile := { t with out := BitVec.ofNat 8 out } }
  if s.leaving 2 s.core.coreId.toNat then
    { s.outOfService 2 s.core.coreId.toNat with
      h0 := { s.h0 with run := .held }, h1 := { s.h1 with run := .held }
      stream := { s.stream with slots := s.stream.slots.map (fun e => (e.1, e.2.map (fun c =>
        if c.core = s.core.coreId then c.cancelled else c))) } }
  else s

/-- CONTEXT_SAVE (R152): service 0x10; a service that does not exist answers −1. -/
def execContextSave (h : BitVec 1) (s : State) : Result :=
  let x := s.hart h
  let o := s.hart (other h)
  if !s.calls h || x.reg 5 == 0x11 then .next s
  else if x.reg 5 ≠ 0x10 then .next (s.firmwareReturn h 0xFFFFFFFFFFFFFFFF)
  else if !(o.isAsleep || o.stopped) then .next (s.firmwareReturn h 7)
  else if !s.quiet then .next s
  else match s.settleAll.bind (fun s => s.overLines (fun _ => true) State.cleanLine) with
    | none => .next s
    | some s1 =>
      let e := s1.firmwareId h
      let a := x.reg 6
      let bad (t : State) : Result := .next (t.firmwareReturn h 1)
      if a.toNat % 4096 ≠ 0 then bad s1
      else
        let masks := s1.loadWords e (a + 0x20) 2 []
        masks.1.firmware s bad (fun _ s2 =>
          s2.registry e (x.reg 7) (x.reg 8) s (fun reg s3 =>
            replySection s3 reg s (fun replies s4 =>
              let ws := s4.container h reg (x.reg 7 != 0) (masks.2.getD 0 0) (masks.2.getD 1 0) replies
              (s4.spillWords e a ws).firmware s bad (fun _ s5 => .next ((s5.firmwareReturn h 0).afterSave)))))

/-! ### Restore: reading a container -/

/-- The words of a section, up to the container's end; none when the table does not list it.  DESIGN CHOICE (log entry
139): its version is not read, since this revision knows one layout. -/
def sectionOf (ws : List Nat) (t : Nat) : Option (List Nat) :=
  let n := min (ws.getD 6 0 % 2 ^ 32) 12
  ((List.range n).find? (fun k => ws.getD (8 + 2 * k) 0 % 2 ^ 16 == t)).map (fun k => ws.drop (ws.getD (9 + 2 * k) 0 / 8))

/-- The roles of a layer's ways in a container. -/
def savedRoles (ws : List Nat) (layer : Nat) : List Nat :=
  match sectionOf ws (4 + layer) with
  | some l => (List.range 16).map (fun k => bits (l.getD (k / 8) 0) (8 * (k % 8)) 2)
  | none => List.replicate 16 0

/-- The ways of a layer that hold data, in order. -/
def savedWays (ws : List Nat) (layer : Nat) : List Nat :=
  let rs := savedRoles ws layer
  (List.range 16).filter (fun k => rs.getD k 0 == 1 || rs.getD k 0 == 2)

/-- The live ways of a layer (R155, R175). -/
def State.liveWays (s : State) (layer : Nat) : List Nat := ((List.range 16).map (· + 16 * layer)).filter (fun k => !s.retiredWay k)

/-- Whether the ways of a container's layer fit (Table 06-10, status 4).  DESIGN CHOICE (log entry 163): array-role ways do
not fit on a host-port core, whose ways cannot take that role. -/
def State.waysFit (s : State) (ws : List Nat) (layer : Nat) : Bool :=
  decide ((savedWays ws layer).length ≤ (s.liveWays layer).length) && !(s.hostPort && (savedRoles ws layer).contains 2)

/-- The retired ways of the core that saved a container; those of this one where it does not say. -/
def State.savedRetired (s : State) (ws : List Nat) : Nat := ((sectionOf ws 3).bind (fun l => l[22]?)).getD s.retiredMask

/-- Where the data ways of a layer go: each to its own way on a core with the same retired ways, else to the lowest live
ways, keeping their order (R155). -/
def State.placement (s : State) (ws : List Nat) (layer : Nat) : List (Nat × Nat) :=
  let l := (savedWays ws layer).map (· + 16 * layer)
  let live := s.liveWays layer
  if s.savedRetired ws == s.retiredMask && l.all live.contains then l.map (fun k => (k, k)) else l.zip live

/-- The role of way `k` after the restore.  DESIGN CHOICE (log entry 139): where the data ways have moved, every other live
way is a cache way. -/
def State.restoredRole (s : State) (ws : List Nat) (k : Nat) : Nat :=
  let layer := k / 16
  let p := s.placement ws layer
  let saved (j : Nat) : Nat := (savedRoles ws layer).getD (j % 16) 0
  if s.retiredWay k then 3
  else match p.find? (fun e => e.2 == k) with
    | some e => saved e.1
    | none => if p.all (fun e => e.1 == e.2) then saved k else 0

/-- The slots of a hart's section; the reset values where there is none. -/
def hartSlots (ws : List Nat) (h : BitVec 1) : List Nat :=
  (sectionOf ws (1 + h.toNat)).getD (hartSection [] (Hart.reset h) 0)

/-- Slots of a hart's section. -/
def hartSlotCount : Nat := 88

/-- The address slots beyond the harts': a transfer's SRC and DST, and the queues' descriptors, as (word, hash). -/
def otherSlots (ws : List Nat) : List (Nat × Nat) :=
  let l := (sectionOf ws 8).getD []
  let n := l.getD 0 0
  let ext := l.drop (1 + 12 * n + 1)
  (List.range n).flatMap (fun k =>
    let x := ext.drop (copyTail * k)
    [(x.getD 0 0, x.getD 1 0), (x.getD 2 0, x.getD 3 0)]) ++
  [9, 10].map (fun t => let d := (sectionOf ws t).getD []; (d.getD 0 0, d.getD 1 0))

/-- Whether every hash of a container is in the registry (Table 06-10, status 6). -/
def hashesKnown (reg : List RegEntry) (ws : List Nat) : Bool :=
  ([0, 1] : List (BitVec 1)).all (fun h => (List.range hartSlotCount).all (fun k => (slotValue reg (hartSlots ws h) k).isSome)) &&
  (otherSlots ws).all (fun p => p.2 == 0 || reg.any (fun e => e.hash == p.2))

/-- An address from its word and hash. -/
def bound (reg : List RegEntry) (w h : Nat) : Word := (slotValue reg [w, h] 0).getD (word w)

/-! ### Restore: the state that a container gives -/

/-- STATUS from its saved word: the fields of Table 06-3, PL and PPL where they name a level, else as they were, AO as the
container's owner and PARKED-peer as its parked harts have it (R138, R152). -/
def restoredStatus (old v : Word) (owner peerParked : Bool) : Word :=
  let level (lo : Nat) : Nat := if wf v lo 2 = 3 then wf old lo 2 else wf v lo 2
  word (level 0 + level 2 * 4 + wf v 4 3 * 2 ^ 4 + b2n owner * 2 ^ 7 + wf v 8 1 * 2 ^ 8 + b2n peerParked * 2 ^ 9)

/-- The hart CSRs that a write can set, in the order of their words in a hart's section from word 64, but for CPYT. -/
def hartCsrNumbers : List (Nat × Nat) :=
  [(64, 0x001), (65, 0x002), (66, 0x003), (67, 0x004), (68, 0x005), (69, 0x006), (70, 0x007), (71, 0x008), (72, 0x009),
   (73, 0x00A), (74, 0x010), (75, 0x011), (77, 0x028), (78, 0x02C)] ++
  (List.range 4).map (fun k => (79 + k, 0x040 + k)) ++ (List.range 4).map (fun k => (83 + k, 0x048 + k))

/-- A hart from its section, before it goes on (R155): each CSR takes the fields that its layout has, as a write gives them
to it, so that bits of no field stay 0 (R4, R141). -/
def restoreHart (x : Hart) (reg : List RegEntry) (ws : List Nat) (h : BitVec 1) (parked peerParked : Bool) : Hart :=
  let l := hartSlots ws h
  let v (k : Nat) : Word := (slotValue reg l k).getD 0
  let g : Store 64 := (List.range 63).foldl (fun g k => Store.set g (k + 1) (v k)) []
  let rec_ : Option (BitVec 16) := if v 87 = 0 then none else some (BitVec.ofNat 16 ((v 87).toNat - 1))
  let owner := BitVec.ofNat 1 (bits (ws.getD 2 0) 19 1) == h
  let csr := hartCsrNumbers.foldl (fun c e => hartCsrWrite c e.2 (v e.1) 0)
    { x.csr with status := restoredStatus x.csr.status (v 63) owner peerParked, cpyt := field (v 76) 0 32 }
  { x with
    g := g, pc := csr.epc, pending := 0, late := [], fmt := none, jumped := false, csr := csr, waits := none
    run := if parked then .parked rec_ else .held }

/-- The cells of words from a byte address. -/
def cellsOf (base : Nat) (ws : List Nat) : Memory :=
  ws.zipIdx.flatMap (fun e => (bytesOf e.1 8).filterMap (fun b =>
    if b.2 = 0 then none else some (base + 8 * e.2 + b.1, b.2)))

/-- The data rows of both layers in their new ways. -/
def State.restoredRows (s : State) (ws : List Nat) : Memory :=
  let ways := [0, 1].flatMap (fun layer =>
    let rows := ((sectionOf ws (4 + layer)).getD []).drop 2
    (s.placement ws layer).zipIdx.map (fun e => (e.1.2, (rows.drop (32768 * e.2)).take 32768)))
  rising 0 ((sortBy (fun (x y : Nat × List Nat) => decide (x.1 ≤ y.1)) ways).flatMap (fun e => cellsOf (e.1 * 262144) e.2))

/-- A micro-thread from its record (R245). -/
def mtOf (r : List Nat) (owner : BitVec 1) : MicroThread :=
  let st := r.getD 5 0
  { m := (List.range 8).foldl (fun m k =>
      Store.set m k (BitVec.ofNat 32 (bits (r.getD (k / 2) 0) (32 * (k % 2)) 32))) []
    link := BitVec.ofNat 32 (r.getD 4 0), bpc := BitVec.ofNat 22 (bits (r.getD 4 0) 32 32), pred := bit st 4,
    state := BitVec.ofNat 2 st, fcause := BitVec.ofNat 4 (bits st 8 4), widx := BitVec.ofNat 7 (bits st 16 7),
    vlp := BitVec.ofNat 13 (bits st 32 13), type := BitVec.ofNat 5 (bits st 48 5), flags := BitVec.ofNat 6 (r.getD 6 0),
    owner := owner, stopReq := false, image := [], pos := 0, fmt := none }

/-- The collected words of an open block, from its words. -/
def readBlock : Option (BitVec 26) → List Nat → List Collected
  | _, [] => []
  | f, w :: ws =>
    if f.isNone && bits w 26 6 == 0x1A then readBlock (some (BitVec.ofNat 26 w)) ws
    else match arrayWord (BitVec.ofNat 32 w) with
      | some a => { w := a, fmt := f } :: readBlock none ws
      | none => readBlock none ws

/-- The core CSRs that a write can set whole, with their words in the core's section. -/
def coreCsrNumbers : List (Nat × Nat) :=
  [(0, 0x012), (1, 0x014), (2, 0x015), (3, 0x016), (4, 0x017), (5, 0x018), (6, 0x01B), (7, 0x01D), (9, 0x023), (10, 0x024),
   (11, 0x027)] ++
  (List.range 4).map (fun k => (12 + k, 0x044 + k)) ++ (List.range 4).map (fun k => (16 + k, 0x04C + k))

/-- The core's state from a container: roles and rows, CSRs, each with the fields that its layout has (R4, R141),
micro-threads, the open block (R153, R155, R245).  A core left with no scratch way has no receive slots (R365, R367). -/
def State.restoreCore (s : State) (ws : List Nat) : State :=
  let c := s.core
  let l := (sectionOf ws 3).getD (coreSection CoreState.reset 70 0)
  let v (k : Nat) : Word := word (l.getD k 0)
  let roles := (List.range 32).foldl (fun (x : Word) k => wset x (2 * k) 2 (s.restoredRole ws k)) 0
  let noScratch := (List.range 16).all (fun k => s.restoredRole ws k != 1)
  let m := (sectionOf ws 6).getD []
  let owner := BitVec.ofNat 1 (bits (ws.getD 2 0) 19 1)
  let mts := (arrayWays roles).zipIdx.foldl (fun (t : Map MicroThread) e =>
    Map.set MicroThread.new t e.1 (mtOf ((m.drop (8 * e.2)).take 8) owner)) []
  let open_ := m.drop 256
  let words := (List.range 32).flatMap (fun k => [open_.getD (k + 1) 0 % 2 ^ 32, open_.getD (k + 1) 0 / 2 ^ 32])
  let s := if noScratch then s.dropSlots else s
  let s := { s with core := { c with
      wayrole := roles, out := c.out ||| c.marked, marked := 0, sram := s.restoredRows ws, mts := mts
      firstFault := BitVec.ofNat 5 (l.getD 20 0)
      blockMask := BitVec.ofNat 32 (bits (open_.getD 0 0) 32 32)
      block := readBlock none (words.take (open_.getD 0 0 % 2 ^ 32)), preempted := false } }
  let s := coreCsrNumbers.foldl (fun s e => { s with core := s.coreCsrWrite e.2 (v e.1) }) s
  let s := { s with core := { s.core with mtstat := field (v 8) 32 32 ||| field (v 8) 0 7 } }
  s.csrWrite 0 0x026 (v 21) 0

/-- The tile unit without the core's grant, and the grant of a container's rows: none when they are not free (R155,
R267). -/
def State.restoreTile (s : State) (ws : List Nat) : Option State :=
  let l := (sectionOf ws 7).getD []
  let n := l.getD 0 0
  if s.hostPort then if n = 0 then some s else none
  else
    let t := s.tile.release (s.position + 1)
    if n = 0 then some { s with tile := t, core := { s.core with tgrant := 0 } }
    else match t.block n with
      | none => none
      | some f =>
        let t := t.assign f n (s.position + 1)
        let acc := (List.range (2 * n * 128)).foldl (fun (a : Store 32) i =>
          let w := l.getD (1 + i) 0
          let k := accKey (i / (n * 128)) (f + i / 128 % n) (2 * (i % 128))
          Store.set (Store.set a k (BitVec.ofNat 32 w)) (k + 1) (BitVec.ofNat 32 (w / 2 ^ 32))) t.acc
        some { s with tile := { t with acc := acc }, core := { s.core with tgrant := word (n + f * 256) } }

/-- A transfer from its record and what follows it. -/
def copyOf (reg : List RegEntry) (r x : List Nat) : Nat × CopySlot :=
  let at_ (k : Nat) : Nat := r.getD k 0
  let ticket := at_ 8 % 2 ^ 32
  let cmd : CopyCmd := {
    src := bound reg (x.getD 0 0) (x.getD 1 0), dst := bound reg (x.getD 2 0) (x.getD 3 0), sstride := word (at_ 2),
    dstride := word (at_ 3), rows := bits (at_ 4) 0 16, cols := bits (at_ 4) 16 16, vrows := bits (at_ 4) 32 16,
    vcols := bits (at_ 4) 48 16, ctl := BitVec.ofNat 32 (at_ 5), scale := BitVec.ofNat 32 (at_ 5 / 2 ^ 32), fill := word (at_ 6),
    result := word (at_ 7) }
  let y := x.getD 5 0
  let state := bits (at_ 9) 16 8
  let stage : CopyStage := match if state = 4 then bits y 4 4 else state with
    | 1 => .waiting
    | 3 => .stalled (BitVec.ofNat 16 (bits y 16 16))
    | _ => .running
  (ticket % 64, {
    seq := BitVec.ofNat 26 (ticket / 64), cmd := cmd, ranges := cmd.ranges, block := x.getD 4 0, cid := BitVec.ofNat 16 (at_ 9),
    level := BitVec.ofNat 2 y, hart := BitVec.ofNat 1 (bits y 2 1), stage := stage, cancel := state == 4,
    progress := at_ 8 / 2 ^ 32, nsat := x.getD 6 0, status := BitVec.ofNat 8 (x.getD 7 0), promise := 0,
    planned := x.getD 8 0, attempt := x.getD 10 0, resumed := true, ended := bit y 3, paused := true, order := x.getD 9 0 })

/-- The copy engine from a container (R351): its transfers wait for their resumption, in their order, and the core's later
words come behind them. -/
def State.restoreCopies (s : State) (reg : List RegEntry) (ws : List Nat) : State :=
  let l := (sectionOf ws 8).getD []
  let n := l.getD 0 0
  let ext := l.drop (1 + 12 * n + 1)
  let slots := (List.range n).foldl (fun (t : Map (Option CopySlot)) k =>
    let c := copyOf reg ((l.drop (1 + 12 * k)).take 12) ((ext.drop (copyTail * k)).take copyTail)
    Map.set none t c.1 (some { c.2 with promise := s.newPromise c.2 })) []
  let order := slots.foldl (fun a e => match e.2 with
    | some c => max a (c.order + 1)
    | none => a) s.core.nextSeq
  { s with
    core := { s.core with nextSeq := order }
    copy := { slots := slots, nextSeq := BitVec.ofNat 26 (l.getD (1 + 12 * n) 0) } }

/-- The fault queue from a container (R409). -/
def State.restoreQueue (s : State) (ws : List Nat) : State :=
  let l := (sectionOf ws 11).getD []
  let rs := (List.range (l.getD 0 0)).map (fun k =>
    let v (j : Nat) : Nat := l.getD (2 + 5 * k + j) 0
    { w0 := word (v 0), w1 := word (v 1), w2 := word (v 2), w3 := word (v 3), taken := v 4 == 1 : FaultRec })
  { s with mmu := { s.mmu with queue := rs, nextSeq := BitVec.ofNat 16 (l.getD 1 0) } }

/-- The streams that this core opened: those of any other context than the restored one are cancelled with status 1
(R429). -/
def State.restoreStreams (s : State) : State :=
  { s with stream := { s.stream with slots := s.stream.slots.map (fun e => (e.1, e.2.map (fun c =>
      if c.core ≠ s.core.coreId ∨ c.cid = s.cid16 then c else c.cancelled))) } }

/-- A hart's requests when a context is restored (R110, R297, R442): those that wait in the directory for it, those of it
that have been granted here, and those of other contexts. -/
def State.waitingSync (s : State) (h : BitVec 1) : List SyncReq :=
  let p := s.party h
  let queued (pa : Nat) (kind : BitVec 2) : SyncReq := { pa := pa, cid := p.cid, kind := kind, stage := .queued }
  (s.hart h).sync.filter (fun r => r.cid != p.cid || r.stage == .granted) ++
  s.dir.entries.filterMap (fun e =>
    (e.waiters.find? (fun w => w.who == p)).map (fun w => queued e.pa (if w.excl then 0 else 1))) ++
  s.dir.held.filterMap (fun x => if x.who = p then some (queued x.pa (if x.excl then 0 else 1)) else none) ++
  s.dir.events.filterMap (fun v => if v.who = p then some (queued v.pa (if v.release then 3 else 1)) else none)

/-- A packet that a faulted spill write has kept waits in the network again (R371). -/
def State.releaseHeld (s : State) : State :=
  let n := s.net
  match n.held with
  | some (_, some p) =>
    { s with net := if p.entry = 0 then { n with held := none, waiting := p :: n.waiting }
                    else { n with held := none, flight := p :: n.flight } }
  | _ => { s with net := { n with held := none } }

/-- The network interface after a restore: replies that were parked are replayed, and spilled packets are redelivered
under FMODE[4] = 0 (R109, R372, R409). -/
def State.restoreNetwork (s : State) (reg : List RegEntry) (ws : List Nat) : Sweep :=
  let d := (sectionOf ws 9).getD []
  let area : Option (Word × BitVec 16) :=
    if d.getD 3 0 = 1 then some (bound reg (d.getD 0 0) (d.getD 1 0), BitVec.ofNat 16 (d.getD 2 0)) else none
  let s := { s.releaseHeld with net := { s.releaseHeld.net with spill := area } }
  match area with
  | none => .done { s with net := { s.net with redeliver := none } }
  | some (a, cid) =>
    match (s.setArea cid a).replayReplies a cid with
    | .wait s => .wait s
    | .done s => .done { s with net := { s.net with redeliver := if bit s.mgmt.fmode.toNat 4 then none else some (a, cid) } }

/-- The core and its harts from a container; upper scratch ways' rows go to the core's slot where its layer space lies there
(R152, R155, R284). -/
def State.restoreHarts (s : State) (reg : List RegEntry) (ws : List Nat) (p0 p1 : Bool) : State :=
  let s := s.restoreCore ws
  let s := (s.scratchWays true).foldl State.toSlot s
  { s with h0 := restoreHart s.h0 reg ws 0 p0 p1, h1 := restoreHart s.h1 reg ws 1 p1 p0 }

/-- What follows the network interface in a restore: streams, waiting requests, and the harts go on, at once where nothing is
to be redelivered (R109). -/
def State.restoreRest (s : State) (p0 p1 : Bool) : State :=
  let s := s.restoreStreams
  let s := s.modHart 0 (fun x => { x with sync := s.waitingSync 0 })
  let s := s.modHart 1 (fun x => { x with sync := s.waitingSync 1 })
  let s := { s with core := { s.core with resuming := some (p0, p1) } }
  if s.net.redeliver.isSome then s else s.resumeContext

/-- The core with a container's context, whose checks have passed (R109, R152, R155, R302); it may have to wait for a
write-back, or for a lookup of the reply list. -/
def State.restored (s : State) (reg : List RegEntry) (ws : List Nat) : Sweep :=
  let p0 := bit (ws.getD 2 0) 17
  let p1 := bit (ws.getD 2 0) 18
  match (s.settleAll.bind (fun s => s.overLines (fun _ => true) State.flushLine)).bind (fun s => s.restoreTile ws) with
  | none => .wait s
  | some s1 =>
    match (((s1.restoreHarts reg ws p0 p1).restoreCopies reg ws).restoreQueue ws).restoreNetwork reg ws with
    | .wait s2 => .wait s2
    | .done s2 => .done (s2.restoreRest p0 p1)

/-- The status of a restore by the checks of Table 06-10, in order; 0 when all pass. -/
def State.restoreStatus (s : State) (reg : List RegEntry) (ws : List Nat) : Nat :=
  if ws.getD 0 0 % 2 ^ 32 ≠ 0x584D4F43 then 1
  else if 1 < bits (ws.getD 0 0) 32 16 then 2
  else if !profilesOk (ws.getD 1 0) then 3
  else if !s.waysFit ws 0 || !s.waysFit ws 1 then 4
  else if (s.restoreTile ws).isNone then 5
  else if !hashesKnown reg ws then 6
  else 0

/-- CONTEXT_RESTORE (R109, R155): service 0x11. -/
def execContextRestore (h : BitVec 1) (s : State) : Result :=
  let x := s.hart h
  if !s.calls h || x.reg 5 != 0x11 then .next s
  else if !s.quiet then .next s
  else
    let e := s.firmwareId h
    let a := x.reg 6
    let bad (t : State) : Result := .next (t.firmwareReturn h 1)
    if a.toNat % 4096 ≠ 0 then bad s
    else
      let header := s.loadWords e a 4 []
      header.1.firmware s bad (fun _ s1 =>
        let length := header.2.getD 3 0
        if header.2.getD 0 0 % 2 ^ 32 ≠ 0x584D4F43 ∨ length < 256 then bad s1
        else
          let body := s1.loadWords e a (length / 8) []
          body.1.firmware s bad (fun _ s2 =>
            s2.registry e (x.reg 7) (x.reg 8) s (fun reg s3 =>
              let st := s3.restoreStatus reg body.2
              if st ≠ 0 then .next (s3.firmwareReturn h (word st))
              else .next ((s3.restored reg body.2).orIn s))))

end Sys2Proof.Machine
end

