-- ==== Sys2Proof/Machine/Control.lean ====
section
/-! DEFINITION. Jumps and branches (R126 to R128).  A taken transfer marks the hart as jumped, for the check of R81. -/

namespace Sys2Proof.Machine

/-- PC + 4 × sext(imm) (R63). -/
def target {n : Nat} (pc : Word) (imm : BitVec n) : Word := pc + 4 * imm.signExtend 64

/-- JAL (R126): PC + 4 to g1, then PC + 4 × sext(imm26). -/
def execJal (imm : BitVec 26) (s : State) : Result :=
  issue [1] s (fun h =>
    let pc := (s.hart h).pc
    .next ((s.writeReg h 1 (pc + 4)).retireAt h (target pc imm) true))

/-- JALR (R126): ga is read before gd is written; bits [1:0] of the target are cleared. -/
def execJalr (d a : BitVec 7) (imm : BitVec 12) (s : State) : Result :=
  issue [d, a] s (fun h =>
    let x := s.hart h
    let t := (x.reg a.toNat + imm.signExtend 64) &&& ~~~3
    .next ((s.writeReg h d.toNat (x.pc + 4)).retireAt h t true))

/-- A branch (R127): taken when the condition holds of ga and gb. -/
def branch (imm : BitVec 12) (a b : BitVec 7) (cond : Word → Word → Bool) (s : State) : Result :=
  issue [a, b] s (fun h =>
    let x := s.hart h
    if cond (x.reg a.toNat) (x.reg b.toNat) then .next (s.retireAt h (target x.pc imm) true)
    else .next (s.retire h))

/-- The 12-bit offset of the S format from its two fields (Table 03-1). -/
def sImm (hi : BitVec 7) (lo : BitVec 5) : BitVec 12 := hi ++ lo

/-- BEQ (R127). -/
def execBeq (hi a b : BitVec 7) (lo : BitVec 5) (s : State) : Result :=
  branch (sImm hi lo) a b (fun x y => x == y) s

/-- BNE (R127). -/
def execBne (hi a b : BitVec 7) (lo : BitVec 5) (s : State) : Result :=
  branch (sImm hi lo) a b (fun x y => x != y) s

/-- BLT (R127): signed. -/
def execBlt (hi a b : BitVec 7) (lo : BitVec 5) (s : State) : Result :=
  branch (sImm hi lo) a b (fun x y => x.slt y) s

/-- BGE (R127): signed. -/
def execBge (hi a b : BitVec 7) (lo : BitVec 5) (s : State) : Result :=
  branch (sImm hi lo) a b (fun x y => !x.slt y) s

/-- BLTN (R127): unsigned. -/
def execBltn (hi a b : BitVec 7) (lo : BitVec 5) (s : State) : Result :=
  branch (sImm hi lo) a b (fun x y => x.ult y) s

/-- BGEN (R127): unsigned. -/
def execBgen (hi a b : BitVec 7) (lo : BitVec 5) (s : State) : Result :=
  branch (sImm hi lo) a b (fun x y => !x.ult y) s

end Sys2Proof.Machine
end

