-- ==== Sys2Proof/Machine/Fetch.lean ====
section
/-! DEFINITION. Fetching an instruction word, the FMT prefix and the words that are no instruction (R59, R71 to R74, R77
to R81, R149, R151, R315, R316). -/

namespace Sys2Proof.Machine

/-! ### Fetching (R59, R149, R316) -/

/-- What the fetch of a word comes to. -/
inductive FetchResult where
  | word (w : IWord) (name : Nat) (s : State)
  /-- page fault 0x06, access violation 0x07 or bus error 0x11 -/
  | fault (cause : Nat) (s : State)
  /-- the fetch waits -/
  | wait (s : State)

/-- The word at a home address: an MS page is read at its home, any other through the core cache. -/
def State.fetchMem (s : State) (h : BitVec 1) (t : Trans) : LoadResult × State :=
  if t.ms then
    match s.homeRead h.toNat s.cid16.toNat t.name 4 with
    | (some v, s) => (.ok v, s)
    | (none, s) => (.error, s)
  else s.cacheLoad h.toNat t.name 4 s.cid16 t.vpn

/-- The word that a fetch sees: the one that memory holds, or an older one that the core's instruction cache still
holds (R149). -/
def State.fetchSees (s : State) (name v : Nat) : IWord × State :=
  let now : IWord := BitVec.ofNat 32 v
  let keep (s : State) (w : IWord) : State :=
    { s with mmu := { s.mmu with icache := Map.set none s.mmu.icache (name / 4) (some w) } }
  match Map.get none s.mmu.icache (name / 4) with
  | none => (now, keep s now)
  | some old =>
    if old = now then (now, s)
    else
      let (n, s) := s.draw
      if Config.staleFetch n then (old, s) else (now, keep s now)

/-- THE FETCH of the word at a virtual address by hart `h`. -/
def State.fetchAt (s : State) (h : BitVec 1) (va : Word) : FetchResult :=
  match s.translate h .fetch va with
  | (.wait, s) => .wait s
  | (.fault c _, s) => .fault c s
  | (.ok t, s) =>
    if t.mmio then .fault 0x11 (s.mmioViolation h.toNat t.name s.cid16)
    else match s.fetchMem h t with
      | (.ok v, s) => let r := s.fetchSees t.name v; .word r.1 t.name r.2
      | (.error, s) => .fault 0x11 s
      | (.wait, s) => .wait s

/-- The word at an address as a fetch of it would see it, if it would end with one, however long it took; nothing
changes. -/
def State.peekAt (s : State) (h : BitVec 1) (va : Word) : Option IWord :=
  (s.peekTrans s.core.ptbase s.cid16 (s.hart h).pl .fetch va).bind (fun t =>
    if t.mmio then none
    else (if t.ms then s.homeIf t.name 4 else s.cachedIf t.name 4).map (fun v => (s.fetchSees t.name v).1))

/-! ### Prefixes (R77 to R81, R151) -/

/-- Whether a word is an instruction that a hart may meet (R71): it decodes, names a CSR that exists, and is none of the
words that only a block image may hold. -/
def legalWord (w : IWord) : Bool :=
  assigned w && !(bits w.toNat 26 6 == 0x18 && (csrName (bits w.toNat 0 10)).isNone) &&
    !(bits w.toNat 26 6 == 0x39 && decide (4 ≤ bits w.toNat 0 5) && decide (bits w.toNat 0 5 ≤ 8))

/-- Whether prefix bits `b` before word `w` are misuse (R79).  Where `w` is itself an illegal word it traps as 0x01
instead. -/
def misused (b : BitVec 26) (w : IWord) : Bool :=
  if bits w.toNat 26 6 = 0x1A then true
  else if !legalWord w then false
  else match arrayWord w with
    | none => true
    | some t => !t.illegal (resolve t.op (some b) 0 0) && prefixMisuse t.op b

/-- FMT with prefix bits `b` (R79, R94, R151): misuse of the target that stands at PC + 4 traps here, then a hart
without ownership; otherwise the prefix is pending for the next word. -/
def fmtOp (b : BitVec 26) (s : State) : Result :=
  hartOnly s (fun h =>
    let x := s.hart h
    if s.hostPort then s.trap h 0x01
    else if (match s.peekAt h (x.pc + 4) with
        | some w => misused b w
        | none => false) then s.trap h 0x09
    else if !x.ao then s.trap h 0x0A
    else .next ((s.retire h).modHart h (fun y => { y with fmt := some { bits := b, reapplied := false } })))

/-- FMT (R77, R151): destination, source-1 and source-2 type, rounding, saturation and scale mode. -/
def execFmt (t u v : BitVec 5) (r : BitVec 3) (sat : BitVec 1) (c : BitVec 2) (s : State) : Result :=
  fmtOp (t ++ u ++ v ++ r ++ sat ++ c ++ (0 : BitVec 5)) s

/-! ### What stands between a fetch and the word's execution -/

/-- What hart `h` meets at its PC. -/
inductive Met where
  /-- the word is to be executed in state `s` -/
  | word (w : IWord) (s : State)
  /-- the hart has jumped to the word behind an FMT: it traps 0x09, unless the word is illegal or privileged (R74, R81) -/
  | skipped (w : IWord) (s : State)
  | fault (cause : Nat) (s : State)
  /-- a prefix fault has been taken, or the fetch waits -/
  | next (s : State)

/-- Whether the hart has jumped behind an FMT (R81). -/
def State.skippedFmt (s : State) (h : BitVec 1) : Bool :=
  let x := s.hart h
  x.jumped && x.pc.toNat % 4096 != 0 &&
    (match s.peekAt h (x.pc - 4) with
     | some w => bits w.toNat 26 6 == 0x1A
     | none => false)

/-- THE FETCH at a hart's PC, with the checks of its pending prefix (R79, R81, R146). -/
def State.meet (s : State) (h : BitVec 1) : Met :=
  let x := s.hart h
  match s.fetchAt h x.pc with
  | .fault c s => .fault c s
  | .wait s => .next s
  | .word w _ s1 =>
    if s.skippedFmt h then .skipped w s1
    else match x.fmt with
      | none => .word w s1
      | some p =>
        if misused p.bits w then .next (s1.enterTrap h 0x09 0 (if p.reapplied then x.pc else x.pc - 4) none)
        else .word w s1

/-- A word that a hart has jumped to behind an FMT (R81), given what it would come to in `s`: a trap as illegal or privileged
comes before the 0x09 of the misuse (R74). -/
def State.behindFmt (s : State) (h : BitVec 1) (r : Result) : Result :=
  match r with
  | .next t =>
    if t = s.trapAt h 0x01 0 ∨ t = s.trapAt h 0x02 0 then r else .next (s.enterTrap h 0x09 0 (s.hart h).pc none)
  | r => r

/-- Whether a hart issues at its boundary: it runs, or executes a sleeping instruction again (R93). -/
def Hart.issues (x : Hart) : Bool :=
  match x.run with
  | .running => true
  | .asleep .retry => true
  | _ => false

/-- A word that is no instruction (R71, R79): an FMT whose bits [4:0] are not 0 is prefix misuse; any other traps as
illegal instruction 0x01. -/
def illegalWord (w : IWord) (s : State) : Result :=
  if bits w.toNat 26 6 = 0x1A then fmtOp (w.truncate 26) s else hartOnly s (fun h => s.trap h 0x01)

/-- ILLEGAL_INSTRUCTION (R71): the hart that executes now meets `w`, which is no instruction. -/
def execIllegalInstruction (w : BitVec 32) (s : State) : Result :=
  let h := s.curHart
  if !(s.hart h).issues || assigned w then .next s
  else match s.meet h with
    | .word v s1 => if v = w then illegalWord w { s1 with cur := .hart h } else .next s
    | .skipped v s1 =>
      let s2 := { s1 with cur := .hart h }
      if v = w then s2.behindFmt h (illegalWord w s2) else .next s
    | _ => .next s

/-- INSTRUCTION_FETCH_FAULT (R74, R316, R317): the fetch of the hart that executes now ends with page fault 0x06, access
violation 0x07 or bus error 0x11, at the word, before any other trap. -/
def execInstructionFetchFault (s : State) : Result :=
  let h := s.curHart
  if !(s.hart h).issues then .next s
  else match s.meet h with
    | .fault c s1 => s1.hartFault h c (s.hart h).pc 0 false 2 0 0 1
    | _ => .next s

end Sys2Proof.Machine
end

