-- ==== Sys2Proof/Machine/Dispatch.lean ====
section
/-! DEFINITION. The dispatch of a step to its meaning: one arm for every row of the table of operations and events. -/

namespace Sys2Proof.Machine

/-- The meaning of every instruction word and of every step of the device. -/
def exec (i : Instr) (s : State) : Host.Outcome State Fault Refusal :=
  match i with
  | .contextSave h => Sys2Proof.Machine.execContextSave h s
  | .contextRestore h => Sys2Proof.Machine.execContextRestore h s
  | .scalarResultArrival h r => Sys2Proof.Machine.execScalarResultArrival h r s
  | .arrayInstructionBegin k => Sys2Proof.Machine.execArrayInstructionBegin k s
  | .arrayInstructionComplete k => Sys2Proof.Machine.execArrayInstructionComplete k s
  | .tileAccept pos rows => Sys2Proof.Machine.execTileAccept pos rows s
  | .tileWordComplete => Sys2Proof.Machine.execTileWordComplete s
  | .microThreadRelease k => Sys2Proof.Machine.execMicroThreadRelease k s
  | .blockFetch k => Sys2Proof.Machine.execBlockFetch k s
  | .peerFaultInterrupt h => Sys2Proof.Machine.execPeerFaultInterrupt h s
  | .meshInterrupt h => Sys2Proof.Machine.execMeshInterrupt h s
  | .cycleCompare h => Sys2Proof.Machine.execCycleCompare h s
  | .mailboxInterrupt h => Sys2Proof.Machine.execMailboxInterrupt h s
  | .faultQueueNonEmpty h => Sys2Proof.Machine.execFaultQueueNonEmpty h s
  | .microThreadSummary h => Sys2Proof.Machine.execMicroThreadSummary h s
  | .managementInterrupt h => Sys2Proof.Machine.execManagementInterrupt h s
  | .arrayParityTrap h => Sys2Proof.Machine.execArrayParityTrap h s
  | .busErrorTrap h => Sys2Proof.Machine.execBusErrorTrap h s
  | .streamFaultTrap h => Sys2Proof.Machine.execStreamFaultTrap h s
  | .directoryOverflowTrap h => Sys2Proof.Machine.execDirectoryOverflowTrap h s
  | .microThreadFaultTrap h => Sys2Proof.Machine.execMicroThreadFaultTrap h s
  | .sleepWake h => Sys2Proof.Machine.execSleepWake h s
  | .walkComplete va => Sys2Proof.Machine.execWalkComplete va s
  | .homeReadRequest pa => Sys2Proof.Machine.execHomeReadRequest pa s
  | .homeWriteArrival own pa n v => Sys2Proof.Machine.execHomeWriteArrival own pa n v s
  | .homeAtomic fn pa b c => Sys2Proof.Machine.execHomeAtomic fn pa b c s
  | .monitorMatchReply h => Sys2Proof.Machine.execMonitorMatchReply h s
  | .waitaTimeout h => Sys2Proof.Machine.execWaitaTimeout h s
  | .waitvTimeout h => Sys2Proof.Machine.execWaitvTimeout h s
  | .vstrPacketArrival own pa td x mode sat => Sys2Proof.Machine.execVstrPacketArrival own pa td x mode sat s
  | .syncRequestArrival kind pa core h cid => Sys2Proof.Machine.execSyncRequestArrival kind pa core h cid s
  | .syncGrant h => Sys2Proof.Machine.execSyncGrant h s
  | .copyChunk k => Sys2Proof.Machine.execCopyChunk k s
  | .copyComplete k => Sys2Proof.Machine.execCopyComplete k s
  | .promiseMissed h => Sys2Proof.Machine.execPromiseMissed h s
  | .faultReply w => Sys2Proof.Machine.execFaultReply w s
  | .streamUnit k u => Sys2Proof.Machine.execStreamUnit k u s
  | .streamComplete k => Sys2Proof.Machine.execStreamComplete k s
  | .scfgInstall k => Sys2Proof.Machine.execScfgInstall k s
  | .channelMessageDelivery own vn dev core handler payload => Sys2Proof.Machine.execChannelMessageDelivery own vn dev core handler payload s
  | .nputLanding own xform offset dev core payload => Sys2Proof.Machine.execNputLanding own xform offset dev core payload s
  | .meshMessageArrival own h kind payload core => Sys2Proof.Machine.execMeshMessageArrival own h kind payload core s
  | .preemptMessage own payload core => Sys2Proof.Machine.execPreemptMessage own payload core s
  | .spillRedelivery => Sys2Proof.Machine.execSpillRedelivery s
  | .nodeDispatch k => Sys2Proof.Machine.execNodeDispatch k s
  | .nodeAging id => Sys2Proof.Machine.execNodeAging id s
  | .triggerArrival slot pa => Sys2Proof.Machine.execTriggerArrival slot pa s
  | .triggerSpawnRetry slot => Sys2Proof.Machine.execTriggerSpawnRetry slot s
  | .mailboxRequest q slot w => Sys2Proof.Machine.execMailboxRequest q slot w s
  | .mailboxNext q => Sys2Proof.Machine.execMailboxNext q s
  | .mailboxNotify q n => Sys2Proof.Machine.execMailboxNotify q n s
  | .faultWindowTake h => Sys2Proof.Machine.execFaultWindowTake h s
  | .faultWindowReply w => Sys2Proof.Machine.execFaultWindowReply w s
  | .directoryTake slice reader => Sys2Proof.Machine.execDirectoryTake slice reader s
  | .directoryAck slice w => Sys2Proof.Machine.execDirectoryAck slice w s
  | .violationLogTake q reader => Sys2Proof.Machine.execViolationLogTake q reader s
  | .errorCountersClear q => Sys2Proof.Machine.execErrorCountersClear q s
  | .heatEntryRead c j => Sys2Proof.Machine.execHeatEntryRead c j s
  | .heatSeedWrite c v => Sys2Proof.Machine.execHeatSeedWrite c v s
  | .heatClear c => Sys2Proof.Machine.execHeatClear c s
  | .hostFaultTake q => Sys2Proof.Machine.execHostFaultTake q s
  | .hostFaultReply q w => Sys2Proof.Machine.execHostFaultReply q w s
  | .svcRetire bit part => Sys2Proof.Machine.execSvcRetire bit part s
  | .svcClear bit part => Sys2Proof.Machine.execSvcClear bit part s
  | .svcReleaseHart hartid => Sys2Proof.Machine.execSvcReleaseHart hartid s
  | .evlogRead => Sys2Proof.Machine.execEvlogRead s
  | .codecInstallWrite k => Sys2Proof.Machine.execCodecInstallWrite k s
  | .attestationRequest => Sys2Proof.Machine.execAttestationRequest s
  | .loadStart => Sys2Proof.Machine.execLoadStart s
  | .registerWrite addr v => Sys2Proof.Machine.execRegisterWrite addr v s
  | .deviceReset => Sys2Proof.Machine.execDeviceReset s
  | .hardwareError kind part sub => Sys2Proof.Machine.execHardwareError kind part sub s
  | .relocationStallEnd cluster => Sys2Proof.Machine.execRelocationStallEnd cluster s
  | .xratioStallEnd island => Sys2Proof.Machine.execXratioStallEnd island s
  | .powerComparison power islands => Sys2Proof.Machine.execPowerComparison power islands s
  | .codecLearningComplete k => Sys2Proof.Machine.execCodecLearningComplete k s
  | .codecResampleStart k => Sys2Proof.Machine.execCodecResampleStart k s
  | .scrubberRecode k frame sb => Sys2Proof.Machine.execScrubberRecode k frame sb s
  | .scrubberPassEnd k => Sys2Proof.Machine.execScrubberPassEnd k s
  | .codecTableInstall k => Sys2Proof.Machine.execCodecTableInstall k s
  | .illegalInstruction w => Sys2Proof.Machine.execIllegalInstruction w s
  | .instructionFetchFault => Sys2Proof.Machine.execInstructionFetchFault s
  | .homeAcknowledgement h => Sys2Proof.Machine.execHomeAcknowledgement h s
  | .msixVectorUnmask v => Sys2Proof.Machine.execMsixVectorUnmask v s
  | .add d a b => Sys2Proof.Machine.execAdd d a b s
  | .sub d a b => Sys2Proof.Machine.execSub d a b s
  | .and d a b => Sys2Proof.Machine.execAnd d a b s
  | .or d a b => Sys2Proof.Machine.execOr d a b s
  | .xor d a b => Sys2Proof.Machine.execXor d a b s
  | .andn d a b => Sys2Proof.Machine.execAndn d a b s
  | .sll d a b => Sys2Proof.Machine.execSll d a b s
  | .srl d a b => Sys2Proof.Machine.execSrl d a b s
  | .sra d a b => Sys2Proof.Machine.execSra d a b s
  | .slt d a b => Sys2Proof.Machine.execSlt d a b s
  | .sltn d a b => Sys2Proof.Machine.execSltn d a b s
  | .min d a b => Sys2Proof.Machine.execMin d a b s
  | .max d a b => Sys2Proof.Machine.execMax d a b s
  | .minn d a b => Sys2Proof.Machine.execMinn d a b s
  | .maxn d a b => Sys2Proof.Machine.execMaxn d a b s
  | .addw d a b => Sys2Proof.Machine.execAddw d a b s
  | .subw d a b => Sys2Proof.Machine.execSubw d a b s
  | .cmov d a b => Sys2Proof.Machine.execCmov d a b s
  | .mul d a b => Sys2Proof.Machine.execMul d a b s
  | .mulh d a b => Sys2Proof.Machine.execMulh d a b s
  | .mulhn d a b => Sys2Proof.Machine.execMulhn d a b s
  | .div d a b => Sys2Proof.Machine.execDiv d a b s
  | .divn d a b => Sys2Proof.Machine.execDivn d a b s
  | .rem d a b => Sys2Proof.Machine.execRem d a b s
  | .remn d a b => Sys2Proof.Machine.execRemn d a b s
  | .clz d a => Sys2Proof.Machine.execClz d a s
  | .ctz d a => Sys2Proof.Machine.execCtz d a s
  | .popc d a => Sys2Proof.Machine.execPopc d a s
  | .rev d a => Sys2Proof.Machine.execRev d a s
  | .bswap d a => Sys2Proof.Machine.execBswap d a s
  | .rotl d a b => Sys2Proof.Machine.execRotl d a b s
  | .rotr d a b => Sys2Proof.Machine.execRotr d a b s
  | .fadd d a b => Sys2Proof.Machine.execFadd d a b s
  | .fsub d a b => Sys2Proof.Machine.execFsub d a b s
  | .fmul d a b => Sys2Proof.Machine.execFmul d a b s
  | .fdiv d a b => Sys2Proof.Machine.execFdiv d a b s
  | .fma d a b => Sys2Proof.Machine.execFma d a b s
  | .fmin d a b => Sys2Proof.Machine.execFmin d a b s
  | .fmax d a b => Sys2Proof.Machine.execFmax d a b s
  | .fsqrt d a => Sys2Proof.Machine.execFsqrt d a s
  | .feq d a b => Sys2Proof.Machine.execFeq d a b s
  | .flt d a b => Sys2Proof.Machine.execFlt d a b s
  | .fle d a b => Sys2Proof.Machine.execFle d a b s
  | .fcvtis d a => Sys2Proof.Machine.execFcvtis d a s
  | .fcvtsi d a => Sys2Proof.Machine.execFcvtsi d a s
  | .fclass d a => Sys2Proof.Machine.execFclass d a s
  | .fcvtbf d a => Sys2Proof.Machine.execFcvtbf d a s
  | .fcvtfb d a => Sys2Proof.Machine.execFcvtfb d a s
  | .addi d a imm => Sys2Proof.Machine.execAddi d a imm s
  | .andi d a imm => Sys2Proof.Machine.execAndi d a imm s
  | .ori d a imm => Sys2Proof.Machine.execOri d a imm s
  | .xori d a imm => Sys2Proof.Machine.execXori d a imm s
  | .slli d a imm => Sys2Proof.Machine.execSlli d a imm s
  | .srli d a imm => Sys2Proof.Machine.execSrli d a imm s
  | .srai d a imm => Sys2Proof.Machine.execSrai d a imm s
  | .slti d a imm => Sys2Proof.Machine.execSlti d a imm s
  | .lih d imm => Sys2Proof.Machine.execLih d imm s
  | .auip d imm => Sys2Proof.Machine.execAuip d imm s
  | .jal imm => Sys2Proof.Machine.execJal imm s
  | .jalr d a imm => Sys2Proof.Machine.execJalr d a imm s
  | .beq hi a b lo => Sys2Proof.Machine.execBeq hi a b lo s
  | .bne hi a b lo => Sys2Proof.Machine.execBne hi a b lo s
  | .blt hi a b lo => Sys2Proof.Machine.execBlt hi a b lo s
  | .bge hi a b lo => Sys2Proof.Machine.execBge hi a b lo s
  | .bltn hi a b lo => Sys2Proof.Machine.execBltn hi a b lo s
  | .bgen hi a b lo => Sys2Proof.Machine.execBgen hi a b lo s
  | .lb d a imm => Sys2Proof.Machine.execLb d a imm s
  | .lh d a imm => Sys2Proof.Machine.execLh d a imm s
  | .lw d a imm => Sys2Proof.Machine.execLw d a imm s
  | .ld d a imm => Sys2Proof.Machine.execLd d a imm s
  | .lbz d a imm => Sys2Proof.Machine.execLbz d a imm s
  | .lhz d a imm => Sys2Proof.Machine.execLhz d a imm s
  | .lwz d a imm => Sys2Proof.Machine.execLwz d a imm s
  | .sb d a imm => Sys2Proof.Machine.execSb d a imm s
  | .sh d a imm => Sys2Proof.Machine.execSh d a imm s
  | .sw d a imm => Sys2Proof.Machine.execSw d a imm s
  | .sd d a imm => Sys2Proof.Machine.execSd d a imm s
  | .aadd d a b => Sys2Proof.Machine.execAadd d a b s
  | .aswap d a b => Sys2Proof.Machine.execAswap d a b s
  | .aand d a b => Sys2Proof.Machine.execAand d a b s
  | .aor d a b => Sys2Proof.Machine.execAor d a b s
  | .axor d a b => Sys2Proof.Machine.execAxor d a b s
  | .amin d a b => Sys2Proof.Machine.execAmin d a b s
  | .amax d a b => Sys2Proof.Machine.execAmax d a b s
  | .aminn d a b => Sys2Proof.Machine.execAminn d a b s
  | .amaxn d a b => Sys2Proof.Machine.execAmaxn d a b s
  | .acas d a b => Sys2Proof.Machine.execAcas d a b s
  | .aaddw d a b => Sys2Proof.Machine.execAaddw d a b s
  | .aswapw d a b => Sys2Proof.Machine.execAswapw d a b s
  | .aandw d a b => Sys2Proof.Machine.execAandw d a b s
  | .aorw d a b => Sys2Proof.Machine.execAorw d a b s
  | .axorw d a b => Sys2Proof.Machine.execAxorw d a b s
  | .aminw d a b => Sys2Proof.Machine.execAminw d a b s
  | .amaxw d a b => Sys2Proof.Machine.execAmaxw d a b s
  | .aminnw d a b => Sys2Proof.Machine.execAminnw d a b s
  | .amaxnw d a b => Sys2Proof.Machine.execAmaxnw d a b s
  | .acasw d a b => Sys2Proof.Machine.execAcasw d a b s
  | .afadd d a b => Sys2Proof.Machine.execAfadd d a b s
  | .sbind d a b => Sys2Proof.Machine.execSbind d a b s
  | .sunbind d a b => Sys2Proof.Machine.execSunbind d a b s
  | .sacq a => Sys2Proof.Machine.execSacq a s
  | .sacqs a => Sys2Proof.Machine.execSacqs a s
  | .stry d a => Sys2Proof.Machine.execStry d a s
  | .srel a => Sys2Proof.Machine.execSrel a s
  | .fence sc l k => Sys2Proof.Machine.execFence sc l k s
  | .waita d a b => Sys2Proof.Machine.execWaita d a b s
  | .csrr d c => Sys2Proof.Machine.execCsrr d c s
  | .csrw d a c => Sys2Proof.Machine.execCsrw d a c s
  | .csrs d a c => Sys2Proof.Machine.execCsrs d a c s
  | .csrc d a c => Sys2Proof.Machine.execCsrc d a c s
  | .ecall => Sys2Proof.Machine.execEcall s
  | .ebreak => Sys2Proof.Machine.execEbreak s
  | .eret => Sys2Proof.Machine.execEret s
  | .sleep => Sys2Proof.Machine.execSleep s
  | .switch => Sys2Proof.Machine.execSwitch s
  | .tlbinv a b => Sys2Proof.Machine.execTlbinv a b s
  | .icinv => Sys2Proof.Machine.execIcinv s
  | .xprobe d a => Sys2Proof.Machine.execXprobe d a s
  | .aown => Sys2Proof.Machine.execAown s
  | .halt => Sys2Proof.Machine.execHalt s
  | .fmt t u v r sat c => Sys2Proof.Machine.execFmt t u v r sat c s
  | .ldl d a imm => Sys2Proof.Machine.execLdl d a imm s
  | .stl d a imm => Sys2Proof.Machine.execStl d a imm s
  | .ldy d a imm => Sys2Proof.Machine.execLdy d a imm s
  | .sty d a imm => Sys2Proof.Machine.execSty d a imm s
  | .cpy d a => Sys2Proof.Machine.execCpy d a s
  | .cpyw a b => Sys2Proof.Machine.execCpyw a b s
  | .cpyq d a => Sys2Proof.Machine.execCpyq d a s
  | .cpyx a => Sys2Proof.Machine.execCpyx a s
  | .nsend d a b => Sys2Proof.Machine.execNsend d a b s
  | .nput d a b => Sys2Proof.Machine.execNput d a b s
  | .nrecv d a => Sys2Proof.Machine.execNrecv d a s
  | .npoll d a => Sys2Proof.Machine.execNpoll d a s
  | .nfree a => Sys2Proof.Machine.execNfree a s
  | .nint a b => Sys2Proof.Machine.execNint a b s
  | .tkspawn d a => Sys2Proof.Machine.execTkspawn d a s
  | .tkget d => Sys2Proof.Machine.execTkget d s
  | .tkdone a => Sys2Proof.Machine.execTkdone a s
  | .tkarm a b => Sys2Proof.Machine.execTkarm a b s
  | .tkbind a b => Sys2Proof.Machine.execTkbind a b s
  | .tkunbind a => Sys2Proof.Machine.execTkunbind a s
  | .tkdep a b => Sys2Proof.Machine.execTkdep a b s
  | .scfg d a b => Sys2Proof.Machine.execScfg d a b s
  | .sopen d a => Sys2Proof.Machine.execSopen d a s
  | .sclose a => Sys2Proof.Machine.execSclose a s
  | .sstat d a => Sys2Proof.Machine.execSstat d a s
  | .vadd d a b k j p => Sys2Proof.Machine.execVadd d a b k j p s
  | .vsub d a b k j p => Sys2Proof.Machine.execVsub d a b k j p s
  | .vadds d a b k j p => Sys2Proof.Machine.execVadds d a b k j p s
  | .vsubs d a b k j p => Sys2Proof.Machine.execVsubs d a b k j p s
  | .vmul d a b k j p => Sys2Proof.Machine.execVmul d a b k j p s
  | .vmulh d a b k j p => Sys2Proof.Machine.execVmulh d a b k j p s
  | .vmin d a b k j p => Sys2Proof.Machine.execVmin d a b k j p s
  | .vmax d a b k j p => Sys2Proof.Machine.execVmax d a b k j p s
  | .vminn d a b k j p => Sys2Proof.Machine.execVminn d a b k j p s
  | .vmaxn d a b k j p => Sys2Proof.Machine.execVmaxn d a b k j p s
  | .vand d a b k j p => Sys2Proof.Machine.execVand d a b k j p s
  | .vor d a b k j p => Sys2Proof.Machine.execVor d a b k j p s
  | .vxor d a b k j p => Sys2Proof.Machine.execVxor d a b k j p s
  | .vbool d a b k j p => Sys2Proof.Machine.execVbool d a b k j p s
  | .vsll d a b k j p => Sys2Proof.Machine.execVsll d a b k j p s
  | .vsrl d a b k j p => Sys2Proof.Machine.execVsrl d a b k j p s
  | .vsra d a b k j p => Sys2Proof.Machine.execVsra d a b k j p s
  | .vmerge d a b k j => Sys2Proof.Machine.execVmerge d a b k j s
  | .vmac d a b k j p => Sys2Proof.Machine.execVmac d a b k j p s
  | .vwmac d a b k j p => Sys2Proof.Machine.execVwmac d a b k j p s
  | .vdot d a b k j p => Sys2Proof.Machine.execVdot d a b k j p s
  | .vdots d a b k j p => Sys2Proof.Machine.execVdots d a b k j p s
  | .vfadd d a b k j p => Sys2Proof.Machine.execVfadd d a b k j p s
  | .vfsub d a b k j p => Sys2Proof.Machine.execVfsub d a b k j p s
  | .vfmul d a b k j p => Sys2Proof.Machine.execVfmul d a b k j p s
  | .vfma d a b k j p => Sys2Proof.Machine.execVfma d a b k j p s
  | .vfmin d a b k j p => Sys2Proof.Machine.execVfmin d a b k j p s
  | .vfmax d a b k j p => Sys2Proof.Machine.execVfmax d a b k j p s
  | .vfdiv d a b k j p => Sys2Proof.Machine.execVfdiv d a b k j p s
  | .vfms d a b k j p => Sys2Proof.Machine.execVfms d a b k j p s
  | .vcfle d a b k j p => Sys2Proof.Machine.execVcfle d a b k j p s
  | .vcfun d a b k j p => Sys2Proof.Machine.execVcfun d a b k j p s
  | .vceq d a b k j p => Sys2Proof.Machine.execVceq d a b k j p s
  | .vcne d a b k j p => Sys2Proof.Machine.execVcne d a b k j p s
  | .vclt d a b k j p => Sys2Proof.Machine.execVclt d a b k j p s
  | .vcge d a b k j p => Sys2Proof.Machine.execVcge d a b k j p s
  | .vcltn d a b k j p => Sys2Proof.Machine.execVcltn d a b k j p s
  | .vcgen d a b k j p => Sys2Proof.Machine.execVcgen d a b k j p s
  | .vcfeq d a b k j p => Sys2Proof.Machine.execVcfeq d a b k j p s
  | .vcflt d a b k j p => Sys2Proof.Machine.execVcflt d a b k j p s
  | .vmov d a k p => Sys2Proof.Machine.execVmov d a k p s
  | .vnot d a k p => Sys2Proof.Machine.execVnot d a k p s
  | .vneg d a k p => Sys2Proof.Machine.execVneg d a k p s
  | .vabs d a k p => Sys2Proof.Machine.execVabs d a k p s
  | .vfneg d a k p => Sys2Proof.Machine.execVfneg d a k p s
  | .vfabs d a k p => Sys2Proof.Machine.execVfabs d a k p s
  | .vfsqrt d a k p => Sys2Proof.Machine.execVfsqrt d a k p s
  | .vexp2 d a k p => Sys2Proof.Machine.execVexp2 d a k p s
  | .vlog2 d a k p => Sys2Proof.Machine.execVlog2 d a k p s
  | .vrcp d a k p => Sys2Proof.Machine.execVrcp d a k p s
  | .vrsqrt d a k p => Sys2Proof.Machine.execVrsqrt d a k p s
  | .vcvt d a k p => Sys2Proof.Machine.execVcvt d a k p s
  | .vclz d a k p => Sys2Proof.Machine.execVclz d a k p s
  | .vpopc d a k p => Sys2Proof.Machine.execVpopc d a k p s
  | .vsearch d a k p => Sys2Proof.Machine.execVsearch d a k p s
  | .vkwrite d a k p => Sys2Proof.Machine.execVkwrite d a k p s
  | .vcompress d a => Sys2Proof.Machine.execVcompress d a s
  | .vexpand d a => Sys2Proof.Machine.execVexpand d a s
  | .vrev d a p => Sys2Proof.Machine.execVrev d a p s
  | .viota d a p => Sys2Proof.Machine.execViota d a p s
  | .vbcast d x => Sys2Proof.Machine.execVbcast d x s
  | .vextr d r x => Sys2Proof.Machine.execVextr d r x s
  | .vinsr d r x => Sys2Proof.Machine.execVinsr d r x s
  | .vslli d r n => Sys2Proof.Machine.execVslli d r n s
  | .vsrli d r n => Sys2Proof.Machine.execVsrli d r n s
  | .vsrai d r n => Sys2Proof.Machine.execVsrai d r n s
  | .vaddi d r n => Sys2Proof.Machine.execVaddi d r n s
  | .vslideup d r x => Sys2Proof.Machine.execVslideup d r x s
  | .vslidedn d r x => Sys2Proof.Machine.execVslidedn d r x s
  | .vredsum d r => Sys2Proof.Machine.execVredsum d r s
  | .vredmin d r => Sys2Proof.Machine.execVredmin d r s
  | .vredmax d r => Sys2Proof.Machine.execVredmax d r s
  | .vredand d r => Sys2Proof.Machine.execVredand d r s
  | .vredor d r => Sys2Proof.Machine.execVredor d r s
  | .vredxor d r => Sys2Proof.Machine.execVredxor d r s
  | .vfredsum d r x => Sys2Proof.Machine.execVfredsum d r x s
  | .vfredmax d r => Sys2Proof.Machine.execVfredmax d r s
  | .vfredmin d r => Sys2Proof.Machine.execVfredmin d r s
  | .vsegsum d r x => Sys2Proof.Machine.execVsegsum d r x s
  | .vmpopc d r => Sys2Proof.Machine.execVmpopc d r s
  | .vmfirst d r => Sys2Proof.Machine.execVmfirst d r s
  | .vbcastMd d x => Sys2Proof.Machine.execVbcastMd d x s
  | .vslliMd d r n => Sys2Proof.Machine.execVslliMd d r n s
  | .vsrliMd d r n => Sys2Proof.Machine.execVsrliMd d r n s
  | .vsraiMd d r n => Sys2Proof.Machine.execVsraiMd d r n s
  | .vaddiMd d r n => Sys2Proof.Machine.execVaddiMd d r n s
  | .vslideupMd d r x => Sys2Proof.Machine.execVslideupMd d r x s
  | .vslidednMd d r x => Sys2Proof.Machine.execVslidednMd d r x s
  | .vredsumMd d r => Sys2Proof.Machine.execVredsumMd d r s
  | .vredminMd d r => Sys2Proof.Machine.execVredminMd d r s
  | .vredmaxMd d r => Sys2Proof.Machine.execVredmaxMd d r s
  | .vredandMd d r => Sys2Proof.Machine.execVredandMd d r s
  | .vredorMd d r => Sys2Proof.Machine.execVredorMd d r s
  | .vredxorMd d r => Sys2Proof.Machine.execVredxorMd d r s
  | .vfredsumMd d r x => Sys2Proof.Machine.execVfredsumMd d r x s
  | .vfredmaxMd d r => Sys2Proof.Machine.execVfredmaxMd d r s
  | .vfredminMd d r => Sys2Proof.Machine.execVfredminMd d r s
  | .vsegsumMd d r x => Sys2Proof.Machine.execVsegsumMd d r x s
  | .vmpopcMd d r => Sys2Proof.Machine.execVmpopcMd d r s
  | .vmfirstMd d r => Sys2Proof.Machine.execVmfirstMd d r s
  | .vld d b p => Sys2Proof.Machine.execVld d b p s
  | .vlds d b r p => Sys2Proof.Machine.execVlds d b r p s
  | .vldx d b x p => Sys2Proof.Machine.execVldx d b x p s
  | .vldl d b p => Sys2Proof.Machine.execVldl d b p s
  | .vldy d b p => Sys2Proof.Machine.execVldy d b p s
  | .vldys d b r p => Sys2Proof.Machine.execVldys d b r p s
  | .vldff d b p => Sys2Proof.Machine.execVldff d b p s
  | .vst d b p => Sys2Proof.Machine.execVst d b p s
  | .vsts d b r p => Sys2Proof.Machine.execVsts d b r p s
  | .vstx d b x p => Sys2Proof.Machine.execVstx d b x p s
  | .vstl d b p => Sys2Proof.Machine.execVstl d b p s
  | .vsty d b p => Sys2Proof.Machine.execVsty d b p s
  | .vstys d b r p => Sys2Proof.Machine.execVstys d b r p s
  | .waitv d a b k => Sys2Proof.Machine.execWaitv d a b k s
  | .vstr d a b p => Sys2Proof.Machine.execVstr d a b p s
  | .ashape d a b => Sys2Proof.Machine.execAshape d a b s
  | .await => Sys2Proof.Machine.execAwait s
  | .arole d a b => Sys2Proof.Machine.execArole d a b s
  | .aflush a b => Sys2Proof.Machine.execAflush a b s
  | .aclr => Sys2Proof.Machine.execAclr s
  | .ainval a b => Sys2Proof.Machine.execAinval a b s
  | .mbegin a => Sys2Proof.Machine.execMbegin a s
  | .mend => Sys2Proof.Machine.execMend s
  | .msplit a b => Sys2Proof.Machine.execMsplit a b s
  | .mjoin d a => Sys2Proof.Machine.execMjoin d a s
  | .mstop => Sys2Proof.Machine.execMstop s
  | .mnext a => Sys2Proof.Machine.execMnext a s
  | .mbr a b => Sys2Proof.Machine.execMbr a b s
  | .mlinkr d l => Sys2Proof.Machine.execMlinkr d l s
  | .mlinkw => Sys2Proof.Machine.execMlinkw s
  | .msetm d a m => Sys2Proof.Machine.execMsetm d a m s
  | .mgetm d a m => Sys2Proof.Machine.execMgetm d a m s
  | .mstat d a => Sys2Proof.Machine.execMstat d a s
  | .mreset a => Sys2Proof.Machine.execMreset a s
  | .tattach d a => Sys2Proof.Machine.execTattach d a s
  | .tdetach => Sys2Proof.Machine.execTdetach s
  | .tmma t a b => Sys2Proof.Machine.execTmma t a b s
  | .tzero t => Sys2Proof.Machine.execTzero t s
  | .tread d t b => Sys2Proof.Machine.execTread d t b s
  | .tload t a b => Sys2Proof.Machine.execTload t a b s
  | .twait t => Sys2Proof.Machine.execTwait t s

end Sys2Proof.Machine
end

