-- ==== Sys2Proof/Machine/Step.lean ====
section
/-! DEFINITION. One step of the machine: time passes, and then one hart has a boundary, or one unit of the device takes
one of its steps (R92, R93).

What the spec leaves to the interplay of agents is in the state: `agenda` lists the steps to come, and where it has
ended the model takes one schedule of the many that the spec allows. -/

namespace Sys2Proof.Machine

/-! ### Time (R21, R458) -/

/-- Island clocks that a hart sees pass from tick `c` to tick `c + d` (R141: the island clock is XRATIO × 25 MHz). -/
def islandClocks (xratio c d : Nat) : Nat := (c + d) * xratio / 40 - c * xratio / 40

/-- The clocks of one hart are counted while it is not halted (Table 20-4, code 0x01). -/
def State.countClocks (s : State) (h : BitVec 1) (n : Nat) : State :=
  if (s.hart h).run = .halted then s else s.count h 0x01 n

/-- The clocks for which a hart waits at issue are counted under what it waits for (R115, R448; Table 20-4, codes 0x06 and
0x08). -/
def State.countStall (s : State) (h : BitVec 1) (n : Nat) : State :=
  match (s.hart h).stalled with
  | some ev => if (s.hart h).run = .running then s.count h ev n else s
  | none => s

/-- What passing time does for hart `h`: its clocks and stalls are counted, and posted scratch stores may reach their banks
(R308). -/
def State.hartClocks (s : State) (h : BitVec 1) (n : Nat) : State :=
  ((s.countClocks h n).countStall h n).drainStores h

/-- Time passes: as many ticks as `dt` has for this step, else one. -/
def State.tick (s : State) : State :=
  let d := s.dt.headD 1
  let n := islandClocks s.ownXratio s.ctr.cycle.toNat d
  let s1 := ((s.hartClocks 0 n).hartClocks 1 n).retireEmptied
  { s1 with ctr := { s1.ctr with cycle := s1.ctr.cycle + word d }, dt := s1.dt.tail }

/-! ### A hart's boundary (R93, R104, R142, R149) -/

/-- The word that hart `h` met in state `s` and that a fetch has brought in state `s1`: the instruction it decodes to is
executed, any other word is illegal (R71). -/
noncomputable def State.runWord (s : State) (w : IWord) (s1 : State) : Result :=
  match decode w with
  | some i => exec i s1
  | none => exec (.illegalInstruction w) s

/-- Hart `h` has a boundary: it takes an interrupt or asynchronous trap, or the firmware that it has called runs its
service, or it fetches the word at its PC and executes it. -/
noncomputable def State.boundary (s : State) (h : BitVec 1) : Result :=
  let s := { s with cur := .hart h }.modHart h (fun x => { x with stalled := none })
  match s.asyncNext h false with
  | some a => .next (s.takeAsync h a)
  | none =>
    if s.firmwareCall h then
      if (s.hart h).reg 5 = 0x11 then exec (.contextRestore h) s else exec (.contextSave h) s
    else if !(s.hart h).issues then .next s
    else match s.meet h with
      | .word w s1 => s.runWord w s1
      | .skipped w s1 =>
        match decode w with
        | some i => s1.behindFmt h (exec i s1)
        | none => exec (.illegalInstruction w) s
      | .fault _ _ => exec .instructionFetchFault s
      | .next s1 => .next s1

/-- Whether hart `h` has something to do at a boundary. -/
def State.acts (s : State) (h : BitVec 1) : Bool := (s.asyncNext h false).isSome || (s.hart h).issues

/-- The harts have a boundary: they alternate while both have something to do (R93); with neither, only time passes. -/
noncomputable def State.harts (s : State) : Result :=
  let h := if s.acts s.turn then s.turn else other s.turn
  if s.acts h then State.boundary { s with turn := other h } h else .next s

/-! ### The steps of the device that the core and its own units cause -/

/-- Indices of a list. -/
def indices {α : Type} (l : List α) : List Nat := List.range l.length

/-- Both harts. -/
def bothHarts : List (BitVec 1) := [0, 1]

/-- Late results and answers of micro-threads (R115, R246). -/
def State.arrivals (s : State) : List Instr :=
  bothHarts.flatMap (fun h => (s.hart h).late.map (fun e => .scalarResultArrival h e.reg)) ++
    s.core.answers.map (fun a => .scalarResultArrival a.hart a.reg)

/-- The walks of the miss table (R399). -/
def State.walkSteps (s : State) : List Instr := s.walks.map (fun m => .walkComplete (word (4096 * m.page)))

/-- The array issue queue (R171). -/
def State.arraySteps (s : State) : List Instr :=
  s.core.queue.zipIdx.map (fun e =>
    if e.1.stage = .begun then .arrayInstructionComplete e.2 else .arrayInstructionBegin e.2)

/-- The tile unit (R258). -/
def State.tileSteps (s : State) : List Instr :=
  if s.core.mqueue.isEmpty then []
  else [.tileWordComplete, .tileAccept (BitVec.ofNat 2 s.position) 0]

/-- Micro-threads (R235, R239). -/
def State.mtSteps (s : State) : List Instr :=
  (indices (arrayWays s.core.wayrole)).flatMap (fun k =>
    [.microThreadRelease (BitVec.ofNat 5 k), .blockFetch (BitVec.ofNat 5 k)])

/-- What ends the sleep of a hart (R150, R297, R333, R334, R354). -/
def State.sleepSteps (s : State) (h : BitVec 1) : List Instr :=
  match (s.hart h).run with
  | .asleep .sleep => [.sleepWake h]
  | .asleep (.waita _ _ _ _ _) => [.monitorMatchReply h, .waitaTimeout h]
  | .asleep (.waitv _ _ _ _) => [.monitorMatchReply h, .waitvTimeout h]
  | .asleep (.waitb _ _) => [.monitorMatchReply h, .waitvTimeout h]
  | .asleep (.sacq _) => [.syncGrant h]
  | .asleep (.cpyw _ _) => [.promiseMissed h]
  | _ => []

/-- Stores on their way to their home and their acknowledgements (R293, R298). -/
def State.postedSteps (s : State) : List Instr :=
  s.home.posted.zipIdx.map (fun e => if e.1.done then .homeAcknowledgement e.1.hart else .homeWriteArrival (some e.2) 0 0 0)

/-- Remote-reduce packets (R336). -/
def State.vstrSteps (s : State) : List Instr :=
  (indices s.home.vstr).map (fun k => .vstrPacketArrival (some k) 0 0 0 0 false)

/-- Requests to sync objects (R296). -/
def State.syncSteps (s : State) : List Instr :=
  bothHarts.flatMap (fun h => ((s.hart h).sync.filter (fun r => r.stage == .sent)).map (fun r =>
    .syncRequestArrival r.kind r.pa s.core.coreId h r.cid))

/-- The copy engine (R345, R346). -/
def State.copySteps (s : State) : List Instr :=
  s.copy.slots.flatMap (fun e => [.copyChunk (BitVec.ofNat 6 e.1), .copyComplete (BitVec.ofNat 6 e.1)])

/-- The stream fabric (R424, R428) and its configuration (R420). -/
def State.streamSteps (s : State) : List Instr :=
  s.stream.slots.flatMap (fun e => match e.2 with
    | some c => .streamComplete (BitVec.ofNat 3 e.1) :: (indices c.units).map (.streamUnit (BitVec.ofNat 3 e.1))
    | none => []) ++
  s.stream.reqs.map (fun r => .scfgInstall (BitVec.ofNat 5 r.slot))

/-- Packets of the core and those that wait before it (R361, R365, R369, R372), and fault replies (R408). -/
def State.networkSteps (s : State) : List Instr :=
  (indices (s.net.flight ++ s.net.waiting)).flatMap (fun k =>
    [.channelMessageDelivery (some k) 0 0 0 0 [], .nputLanding (some k) 0 0 0 0 [],
     .meshMessageArrival (some k) 0 0 0 0, .preemptMessage (some k) 0 0]) ++
  (if s.net.redeliver.isSome then [.spillRedelivery] else []) ++ s.net.replies.map (fun r => .faultReply r.word)

/-- The task pool (R378, R379, R385). -/
def State.poolSteps (s : State) : List Instr :=
  (if s.pool.waiters.isEmpty then [] else [.nodeDispatch 0]) ++
  s.readyIds.map (fun k => .nodeAging (BitVec.ofNat 16 k)) ++
  s.pool.fired.map (fun e => .triggerArrival (BitVec.ofNat 8 e.1) e.2) ++
  (s.pool.triggers.filter (fun e => !e.2.delayed.isEmpty)).map (fun e => .triggerSpawnRetry (BitVec.ofNat 8 e.1))

/-- Stalls that end (R20, R284). -/
def State.stallSteps (s : State) : List Instr :=
  s.mgmt.stalled.map (fun i => .xratioStallEnd (BitVec.ofNat 4 i)) ++
  s.mgmt.relocating.map (fun c => .relocationStallEnd (BitVec.ofNat 7 c))

/-- The codecs (R438, R439). -/
def State.codecSteps (s : State) : List Instr :=
  s.home.codecs.flatMap (fun e =>
    let k := BitVec.ofNat 4 e.1
    [.codecLearningComplete k, .codecResampleStart k, .codecTableInstall k, .scrubberPassEnd k] ++
      (s.codecFrames e.1).flatMap (fun f => (List.range 16).map (fun b => .scrubberRecode k f.1 (BitVec.ofNat 4 b))))

/-- The kinds of steps, in the order in which the search goes round them. -/
def deviceKinds : List (State → List Instr) :=
  [State.arrivals, State.walkSteps, State.arraySteps, State.tileSteps, State.mtSteps, fun s => s.sleepSteps 0, fun s => s.sleepSteps 1,
   State.postedSteps, State.vstrSteps, State.syncSteps, State.copySteps, State.streamSteps, State.networkSteps,
   State.poolSteps, State.stallSteps, State.codecSteps]

/-- A list, from its `n`th entry round to the one before it. -/
def rotate {α : Type} (n : Nat) (l : List α) : List α :=
  l.drop (n % l.length) ++ l.take (n % l.length)

/-- The state after the first of some steps that does anything, with where it stands among them. -/
def State.firstOf (s : State) : Nat → List (List Instr) → Option (Nat × Result)
  | _, [] => none
  | n, l :: ls =>
    match l.findSome? (fun i => match exec i s with
        | .next t => if t = s then none else some (.next t)
        | r => some r) with
    | some r => some (n, r)
    | none => State.firstOf s (n + 1) ls

/-- The next step of the device, if a unit has anything to do. -/
def State.deviceStep (s : State) : Option Result :=
  let k := deviceKinds.length
  let ls := (rotate s.scan deviceKinds).map (fun f => rotate (s.scan / k) (f s))
  match s.firstOf 0 ls with
  | some (n, .next t) => some (.next { t with scan := s.scan + n + 1 })
  | some (_, r) => some r
  | none => none

/-! ### The step -/

/-- Whether an entry of the agenda is a step of the device: those have no word (`encode` gives them 0). -/
def isEvent (i : Instr) : Bool := encode i == 0

/-- What happens at a step once time has passed: the next entry of the agenda; behind its end, the units of the device
and the harts in turn. -/
noncomputable def State.act (s : State) : Result :=
  match s.agenda with
  | some i :: rest =>
    let s := { s with agenda := rest }
    if isEvent i then exec i s else .next s
  | none :: rest => State.harts { s with agenda := rest }
  | [] =>
    if s.bg then
      match State.deviceStep { s with bg := false } with
      | some r => r
      | none => State.harts { s with bg := false }
    else if s.acts 0 || s.acts 1 then State.harts { s with bg := true }
    else (s.deviceStep).getD (.next s)

/-- ONE STEP of the machine. -/
noncomputable def step (s : State) : Host.Outcome State Fault Refusal := s.tick.act

/-! ### A word as the next one to run -/

/-- The physical page that `withFetchWord` uses. -/
def wordPage : Nat := 0x1000

/-- The state with an instruction as the next one that the machine runs, as the host's load of a program would leave it
(R481, R487): hart 0 runs at level 1 with interrupts off, the page of its PC is mapped onto a page of HBM that holds the
word, and the next step is a boundary of hart 0.  Nothing else changes. -/
def State.withFetchWord (s : State) (nbits w : Nat) : State :=
  let v := w % 2 ^ nbits
  let pa := wordPage + s.h0.pc.toNat % 4096
  let entry : TlbEntry :=
    { page := s.h0.pc.toNat / 4096 * 4096, size := 12, cid := s.cid16, all := false,
      -- V, R, W, X, MS; U = 0; HOME = 0
      leaf := word (wordPage + 0x4F) }
  { s with
    h0 := { s.h0 with
      run := .running, fmt := none, jumped := false
      csr := { s.h0.csr with status := wset (wset s.h0.csr.status 0 2 1) 4 1 0 } }
    mmu := { s.mmu with
      tlb := entry :: s.mmu.tlb
      icache := Map.set none s.mmu.icache (pa / 4) none }
    home := { s.home with mem := Memory.store s.home.mem pa 4 v }
    turn := 0
    agenda := none :: s.agenda }

end Sys2Proof.Machine
end

