-- ==== Sys2Proof/Safety.lean ====
section
/-! DEFINITION. What statements say about runs: the well-formed states, and the terms in which the statements of
Certificates/ describe a next state. -/

namespace Sys2Proof.Machine

/-! ### Well-formed states -/

/-- Every memory of the machine is in its one canonical form: keys rise and no entry is the default. -/
def State.wf (s : State) : Bool :=
  Memory.wf s.home.mem && Memory.wf s.core.sram && Memory.wf s.host.mailbox && Memory.wf s.host.hostMem &&
    Store.wf s.tile.acc && Store.wf s.h0.g && Store.wf s.h1.g

/-! ### What a hart's word starts from and leaves -/

/-- Hart `h` executes now, and none of the registers that its word names is pending (R115). -/
def State.Issues (s : State) (h : BitVec 1) (rs : List (BitVec 7)) : Prop :=
  s.cur = .hart h ∧ ∀ r ∈ rs, (s.hart h).isPending r.toNat = false

/-- Nothing but hart `h` and the core's performance counters has changed: not the other hart, no core or device
register, no byte of any memory. -/
def State.OnlyHart (s : State) (h : BitVec 1) (t : State) : Prop :=
  t = { s.setHart h (t.hart h) with core := { s.core with pcnt := t.core.pcnt } }

/-- A hart has gone on to `pc`: apart from its general registers, the scoreboard and its performance counters nothing
of it has changed; its prefix is spent. -/
def Hart.GoneOn (x : Hart) (pc : Word) (jumped : Bool) (y : Hart) : Prop :=
  y = { x with
    g := y.g, pending := y.pending, late := y.late, pc := pc, fmt := none, jumped := jumped, run := .running
    waits := none, stalled := none, csr := { x.csr with pcnt := y.csr.pcnt } }

/-- The scoreboard has not changed, and of the general registers only `r` has: it reads `v`, but for g0, which reads 0
(R61). -/
def Hart.Wrote (x : Hart) (r : Nat) (v : Word) (y : Hart) : Prop :=
  y.pending = x.pending ∧ y.late = x.late ∧
    ∀ k, y.reg k = if k = 0 then 0 else if k = r then v else x.reg k

/-- No general register has changed; `r` is pending (unless it is g0), and its value and the flags are on their way: of an
OPF word, which an access to FLAGS waits for (R135), or from the divider (R120), where the last two say so. -/
def Hart.Sent (x : Hart) (r : Nat) (v : Word) (fl : BitVec 6) (y : Hart) (opf : Bool := false) (div : Bool := false) : Prop :=
  y.g = x.g ∧ (∀ k, k < 64 → y.isPending k = (x.isPending k || (k == r && r != 0))) ∧
    y.late = if r = 0 ∧ fl = 0 ∧ opf = false ∧ div = false then x.late
      else x.late ++ [{ reg := BitVec.ofNat 6 r, val := v, flags := fl, opf := opf, divider := div }]

/-- `i` completes: the machine goes on, in a state of which `p` holds. -/
def Completes (i : Instr) (s : State) (p : State → Prop) : Prop := ∃ t, exec i s = .next t ∧ p t

/-- Hart `h` executes `i`, which writes `v` to register `d` at once and does nothing else but go on to the next word. -/
def WritesNow (i : Instr) (s : State) (h : BitVec 1) (d : BitVec 7) (v : Word) : Prop :=
  Completes i s (fun t => s.OnlyHart h t ∧ (s.hart h).GoneOn ((s.hart h).pc + 4) false (t.hart h) ∧
    (s.hart h).Wrote d.toNat v (t.hart h))

/-- Hart `h` executes `i`, whose result `v` for register `d` and flags `fl` come later (Table 05-2); it goes on to the
next word.  The last two say that the result is an OPF word's, and the divider's. -/
def WritesLate (i : Instr) (s : State) (h : BitVec 1) (d : BitVec 7) (v : Word) (fl : BitVec 6) (opf : Bool := false)
    (div : Bool := false) : Prop :=
  Completes i s (fun t => s.OnlyHart h t ∧ (s.hart h).GoneOn ((s.hart h).pc + 4) false (t.hart h) ∧
    (s.hart h).Sent d.toNat v fl (t.hart h) opf div)

/-- Hart `h` executes `i`, which does nothing but go on to the next word. -/
def OnlyAdvances (i : Instr) (s : State) (h : BitVec 1) : Prop :=
  Completes i s (fun t => s.OnlyHart h t ∧ (s.hart h).GoneOn ((s.hart h).pc + 4) false (t.hart h) ∧
    (t.hart h).g = (s.hart h).g ∧ (t.hart h).pending = (s.hart h).pending ∧ (t.hart h).late = (s.hart h).late)

/-- Hart `h` stays at its word: nothing has changed but performance counters and the note of what it waits for, under which
its clocks of waiting are counted (R448, R458). -/
def State.Stays (s : State) (h : BitVec 1) (t : State) : Prop :=
  s.OnlyHart h t ∧ t.hart h = { s.hart h with
    stalled := (t.hart h).stalled, csr := { (s.hart h).csr with pcnt := (t.hart h).csr.pcnt } }

/-! ### Traps (R80, R140, R144) -/

/-- The level that a trap of a cause enters from a level (R144). -/
def enteredLevel (cause level : Nat) : Nat :=
  if cause = 0x12 then (if level = 2 then 1 else 0) else if level = 0 then 0 else 1

/-- Hart `h` has taken a trap at its present word: EPC, CAUSE and the pending prefix are saved, PPL and PIE keep PL and
IE, IE is clear, and the PC is at TVEC or, for level 0, at the firmware entry.  The general registers, the scoreboard,
the other fields of STATUS and every register that no trap writes are as before. -/
def Hart.Entered (x : Hart) (cause detail : Nat) (y : Hart) : Prop :=
  y.csr.epc = x.pc ∧ y.csr.cause = BitVec.ofNat 64 (256 * detail + cause) ∧
  y.ppl = x.pl ∧ y.pie = x.ieOn ∧ y.ieOn = false ∧ y.pl = enteredLevel cause x.pl ∧
  y.pp = x.fmt.isSome ∧ (∀ p, x.fmt = some p → y.csr.pfx = p.bits.zeroExtend 64) ∧
  (x.fmt = none → y.csr.pfx = x.csr.pfx) ∧ wf y.csr.status 7 57 = wf x.csr.status 7 57 ∧
  y.pc = (if enteredLevel cause x.pl = 1 then x.csr.tvec else firmwarePc) ∧
  y = { x with
    pc := y.pc, run := .running, fmt := none, jumped := false, waits := none, stalled := none
    csr := { x.csr with
      status := y.csr.status, cause := y.csr.cause, epc := y.csr.epc, pfx := y.csr.pfx, faddr := y.csr.faddr
      finfo := y.csr.finfo, fstride := y.csr.fstride, fremain := y.csr.fremain, pcnt := y.csr.pcnt } }

/-- The fault CSRs (R140) are as before. -/
def Hart.FaultKept (x y : Hart) : Prop :=
  y.csr.faddr = x.csr.faddr ∧ y.csr.finfo = x.csr.finfo ∧ y.csr.fstride = x.csr.fstride ∧ y.csr.fremain = x.csr.fremain

/-- Hart `h` executes `i` and traps with `cause`; nothing else of the machine changes, and the fault CSRs do not. -/
def TrapsWith (i : Instr) (s : State) (h : BitVec 1) (cause : Nat) : Prop :=
  Completes i s (fun t => s.OnlyHart h t ∧ (s.hart h).Entered cause 0 (t.hart h) ∧ (s.hart h).FaultKept (t.hart h))

/-! ### Memory -/

/-- The hart's access of `n` bytes at `va` is aligned, meets no interlock entry and is translated to `t` (R315, R316,
R448); `s1` is the state after the translation. -/
def State.Reaches (s : State) (h : BitVec 1) (acc : Acc) (va : Word) (n : Nat) (store : Bool) (t : Trans) (s1 : State) :
    Prop :=
  va.toNat % n = 0 ∧ s.interlocked 0 va.toNat (va.toNat + n) store = false ∧ s.translate h acc va = (.ok t, s1)

/-- The byte that the core sees at a home address: its own cached copy where that holds it, else the home's (R274,
R294). -/
def State.seenByte (s : State) (a : Nat) : Byte :=
  let home : Byte := BitVec.ofNat 8 (s.homeValue a 1)
  match s.findLine (a / 256) with
  | none => home
  | some l =>
    let x := Map.get Sector.empty l.sectors (a / 64 % 4)
    if x.valid || bit x.dirty.toNat (a % 64) then BitVec.ofNat 8 (x.load (a % 64) 1) else home

/-- Byte `i` of a value. -/
def byteOf (v i : Nat) : Byte := BitVec.ofNat 8 (v / 256 ^ i)

/-- The bytes of home memory: `v` in the `n` bytes at `name`, and no other changed.  (Of bytes that lie raw in the sectors of
a compressed frame, log entry 58, it says nothing: there the frame changes with them, R436.) -/
def State.HomeStored (s : State) (name n v : Nat) (t : State) : Prop :=
  s.codedOver name (List.range n) = false → ∀ a, Memory.byte t.home.mem a =
    if s.homeKey name ≤ a ∧ a < s.homeKey name + n then byteOf v (a - s.homeKey name) else Memory.byte s.home.mem a

/-- No hart has lost or changed a general register or a CSR (performance counters apart). -/
def State.HartsKept (s t : State) : Prop :=
  ∀ k, (t.hart k).g = (s.hart k).g ∧ (t.hart k).csr = { (s.hart k).csr with pcnt := (t.hart k).csr.pcnt }

/-- Nor has any register of the core or of its tile unit, or any row of the array. -/
def State.CoreKept (s t : State) : Prop :=
  t.core = { s.core with pcnt := t.core.pcnt } ∧ t.tile = s.tile

/-! ### Scalar memory words and atomics -/

/-- R318, R319: what each scalar load makes of the n bytes that it reads. -/
def loadTable (d a : BitVec 7) (i : BitVec 9) : List (Instr × Nat × (Nat → Word)) :=
  [(.lb d a i, 1, fun v => (BitVec.ofNat 8 v).signExtend 64), (.lh d a i, 2, fun v => (BitVec.ofNat 16 v).signExtend 64),
   (.lw d a i, 4, fun v => (BitVec.ofNat 32 v).signExtend 64), (.ld d a i, 8, fun v => BitVec.ofNat 64 v),
   (.lbz d a i, 1, fun v => (BitVec.ofNat 8 v).zeroExtend 64), (.lhz d a i, 2, fun v => (BitVec.ofNat 16 v).zeroExtend 64),
   (.lwz d a i, 4, fun v => (BitVec.ofNat 32 v).zeroExtend 64)]

/-- The scalar stores with their sizes. -/
def storeTable (d a : BitVec 7) (i : BitVec 9) : List (Instr × Nat) :=
  [(.sb d a i, 1), (.sh d a i, 2), (.sw d a i, 4), (.sd d a i, 8)]

/-- Table 14-6: the function of each atomic on the old value, and the old value as gd receives it (R330). -/
def amoTable (d a b : BitVec 7) (y z : Word) : List (BitVec 5 × Instr × Nat × (Nat → Nat) × (Nat → Word)) :=
  let full : Nat → Word := fun v => BitVec.ofNat 64 v
  let half : Nat → Word := fun v => (BitVec.ofNat 32 v).signExtend 64
  let w (f : Word → Word → Word) : Nat → Nat := fun v => (f (BitVec.ofNat 64 v) y).toNat
  let u (f : BitVec 32 → BitVec 32 → BitVec 32) : Nat → Nat := fun v => (f (BitVec.ofNat 32 v) (y.truncate 32)).toNat
  [(0x00, .aadd d a b, 8, w (· + ·), full), (0x01, .aswap d a b, 8, w (fun _ y => y), full), (0x02, .aand d a b, 8, w (· &&& ·), full),
   (0x03, .aor d a b, 8, w (· ||| ·), full), (0x04, .axor d a b, 8, w (· ^^^ ·), full),
   (0x05, .amin d a b, 8, w (fun x y => if y.toInt < x.toInt then y else x), full),
   (0x06, .amax d a b, 8, w (fun x y => if x.toInt < y.toInt then y else x), full),
   (0x07, .aminn d a b, 8, w (fun x y => if y.toNat < x.toNat then y else x), full),
   (0x08, .amaxn d a b, 8, w (fun x y => if x.toNat < y.toNat then y else x), full),
   (0x09, .acas d a b, 8, w (fun x y => if x = z then y else x), full),
   (0x10, .aaddw d a b, 4, u (· + ·), half), (0x11, .aswapw d a b, 4, u (fun _ y => y), half), (0x12, .aandw d a b, 4, u (· &&& ·), half),
   (0x13, .aorw d a b, 4, u (· ||| ·), half), (0x14, .axorw d a b, 4, u (· ^^^ ·), half),
   (0x15, .aminw d a b, 4, u (fun x y => if y.toInt < x.toInt then y else x), half),
   (0x16, .amaxw d a b, 4, u (fun x y => if x.toInt < y.toInt then y else x), half),
   (0x17, .aminnw d a b, 4, u (fun x y => if y.toNat < x.toNat then y else x), half),
   (0x18, .amaxnw d a b, 4, u (fun x y => if x.toNat < y.toNat then y else x), half),
   (0x19, .acasw d a b, 4, u (fun x y => if x = z.truncate 32 then y else x), half),
   (0x1A, .afadd d a b, 4, fun v => (roundF 0x16 mRNE 0 false (Num.add false (val 0x16 v) (val 0x16 (y.toNat % 2 ^ 32))).1).1,
    fun v => (BitVec.ofNat 32 v).zeroExtend 64)]

/-! ### Sync objects -/

/-- R295, R331: the object address of a sync instruction is 64-byte aligned and translates, for reading and writing, to a
page that is neither MS nor MMIO and whose home answers.  (That the home address is then aligned too is what
`Obligations.TlbWords` says of every entry that a walk makes.) -/
def ObjectAt (s : State) (h : BitVec 1) (va : Word) (t : Trans) (s1 : State) : Prop :=
  va.toNat % 64 = 0 ∧ s.translate h .both va = (.ok t, s1) ∧ t.ms = false ∧ t.mmio = false ∧ t.name % 64 = 0 ∧
    s1.readError t.name = none

/-! ### Array words (Table 03-1) -/

/-- An array word from its fields. -/
def aw (op : ArrOp) (d a b : BitVec 7) (k j : BitVec 1) (p : BitVec 2) : ArrWord :=
  { op := op, d := d, a := a, b := b, k1 := k == 1, k2 := j == 1, p := p }

/-- The words of three array operands, with the fields as the queue holds them. -/
noncomputable def arrayTable3 (d a b : BitVec 7) (k j : BitVec 1) (p : BitVec 2) : List (Instr × ArrWord) :=
  ([(Instr.vadd, .vadd), (.vsub, .vsub), (.vadds, .vadds), (.vsubs, .vsubs), (.vmul, .vmul), (.vmulh, .vmulh),
    (.vmin, .vmin), (.vmax, .vmax), (.vminn, .vminn), (.vmaxn, .vmaxn), (.vand, .vand), (.vor, .vor), (.vxor, .vxor),
    (.vbool, .vbool), (.vsll, .vsll), (.vsrl, .vsrl), (.vsra, .vsra), (.vmac, .vmac), (.vwmac, .vwmac), (.vdot, .vdot),
    (.vdots, .vdots), (.vfadd, .vfadd), (.vfsub, .vfsub), (.vfmul, .vfmul), (.vfma, .vfma), (.vfmin, .vfmin),
    (.vfmax, .vfmax), (.vfdiv, .vfdiv), (.vfms, .vfms), (.vcfle, .vcfle), (.vcfun, .vcfun), (.vceq, .vceq),
    (.vcne, .vcne), (.vclt, .vclt), (.vcge, .vcge), (.vcltn, .vcltn), (.vcgen, .vcgen), (.vcfeq, .vcfeq),
    (.vcflt, .vcflt)] : List ((BitVec 7 → BitVec 7 → BitVec 7 → BitVec 1 → BitVec 1 → BitVec 2 → Instr) × ArrOp)).map
    (fun e => (e.1 d a b k j p, aw e.2 d a b k j p)) ++ [(.vmerge d a b k j, aw .vmerge d a b k j 0)]

/-- The words of two array operands. -/
noncomputable def arrayTable2 (d a : BitVec 7) (k : BitVec 1) (p : BitVec 2) : List (Instr × ArrWord) :=
  ([(Instr.vmov, .vmov), (.vnot, .vnot), (.vneg, .vneg), (.vabs, .vabs), (.vfneg, .vfneg), (.vfabs, .vfabs),
    (.vfsqrt, .vfsqrt), (.vexp2, .vexp2), (.vlog2, .vlog2), (.vrcp, .vrcp), (.vrsqrt, .vrsqrt), (.vcvt, .vcvt),
    (.vclz, .vclz), (.vpopc, .vpopc), (.vsearch, .vsearch)] :
      List ((BitVec 7 → BitVec 7 → BitVec 1 → BitVec 2 → Instr) × ArrOp)).map
    (fun e => (e.1 d a k p, aw e.2 d a 0 k 0 p)) ++
  [(.vkwrite d a k 0, aw .vkwrite d a 0 k 0 0), (.vkwrite d a k 1, aw .vkwrite d a 0 k 0 2),
   (.vrev d a p, aw .vrev d a 0 0 0 p), (.viota d a p, aw .viota d a 0 0 0 p),
   (.vcompress d a, aw .vcompress d a 0 0 0 0), (.vexpand d a, aw .vexpand d a 0 0 0 0)]

/-- The words with a scalar or an immediate operand or a scalar result, and their masked forms. -/
noncomputable def arrayTableX (d a b : BitVec 7) : List (Instr × ArrWord) :=
  ([(Instr.vextr, .vextr, 0), (.vinsr, .vinsr, 0), (.vslli, .vslli, 0), (.vsrli, .vsrli, 0), (.vsrai, .vsrai, 0),
    (.vaddi, .vaddi, 0), (.vslideup, .vslideup, 0), (.vslidedn, .vslidedn, 0), (.vfredsum, .vfredsum, 0),
    (.vsegsum, .vsegsum, 0), (.vslliMd, .vslli, 2), (.vsrliMd, .vsrli, 2), (.vsraiMd, .vsrai, 2), (.vaddiMd, .vaddi, 2),
    (.vslideupMd, .vslideup, 2), (.vslidednMd, .vslidedn, 2), (.vfredsumMd, .vfredsum, 2), (.vsegsumMd, .vsegsum, 2)] :
      List ((BitVec 7 → BitVec 7 → BitVec 7 → Instr) × ArrOp × BitVec 2)).map
    (fun e => (e.1 d a b, aw e.2.1 d a b 0 0 e.2.2)) ++
  ([(Instr.vredsum, .vredsum, 0), (.vredmin, .vredmin, 0), (.vredmax, .vredmax, 0), (.vredand, .vredand, 0),
    (.vredor, .vredor, 0), (.vredxor, .vredxor, 0), (.vfredmax, .vfredmax, 0), (.vfredmin, .vfredmin, 0),
    (.vmpopc, .vmpopc, 0), (.vmfirst, .vmfirst, 0), (.vredsumMd, .vredsum, 2), (.vredminMd, .vredmin, 2),
    (.vredmaxMd, .vredmax, 2), (.vredandMd, .vredand, 2), (.vredorMd, .vredor, 2), (.vredxorMd, .vredxor, 2),
    (.vfredmaxMd, .vfredmax, 2), (.vfredminMd, .vfredmin, 2), (.vmpopcMd, .vmpopc, 2), (.vmfirstMd, .vmfirst, 2)] :
      List ((BitVec 7 → BitVec 7 → Instr) × ArrOp × BitVec 2)).map
    (fun e => (e.1 d a, aw e.2.1 d a 0 0 0 e.2.2)) ++
  [(.vbcast d b, aw .vbcast d 0 b 0 0 0), (.vbcastMd d b, aw .vbcast d 0 b 0 0 2)]

/-- Every array word that touches no memory. -/
noncomputable def arrayTable (d a b : BitVec 7) (k j : BitVec 1) (p : BitVec 2) : List (Instr × ArrWord) :=
  arrayTable3 d a b k j p ++ arrayTable2 d a k p ++ arrayTableX d a b

/-- The memory words of the array: data group or source in `d`, base in `a`, stride, index or scale group in `b`; the
source of VSTR is `a` and its base is `d`. -/
noncomputable def arrayMemTable (d a b : BitVec 7) (p : BitVec 2) : List (Instr × ArrWord) :=
  ([(Instr.vlds, .vlds), (.vldx, .vldx), (.vldys, .vldys), (.vsts, .vsts), (.vstx, .vstx), (.vstys, .vstys),
    (.vstr, .vstr)] : List ((BitVec 7 → BitVec 7 → BitVec 7 → BitVec 2 → Instr) × ArrOp)).map
    (fun e => (e.1 d a b p, aw e.2 d a b 0 0 p)) ++
  ([(Instr.vld, .vld), (.vldl, .vldl), (.vldy, .vldy), (.vldff, .vldff), (.vst, .vst), (.vstl, .vstl), (.vsty, .vsty)] :
      List ((BitVec 7 → BitVec 7 → BitVec 2 → Instr) × ArrOp)).map
    (fun e => (e.1 d a p, aw e.2 d a 0 0 0 p))

/-- The operand checks of an array word of hart `h`: the trap it takes, if any. -/
def State.wordCheck (s : State) (h : BitVec 1) (w : ArrWord) : Option Nat :=
  w.check (s.hart h).fmt.isSome (resolve w.op ((s.hart h).fmt.map (·.bits)) s.core.shape ((s.hart h).csr.rmode.toNat % 8))
    s.core.scaleg

/-- The entry that hart `h` makes of an array word: its scalar operands, types and masks as they are now. -/
def State.entryOf (s : State) (h : BitVec 1) (w : ArrWord) : QEntry :=
  let x := s.hart h
  s.newEntry h w (x.fmt.map (·.bits)) s.core.shape (s.core.mtsel.truncate 32) (x.reg ((w.scalars.getD 0 0).toNat))
    (x.reg ((w.scalars.getD 1 0).toNat)) w.scalarDest

/-- Hart `h` has placed entry `q` at the tail of the array issue queue and gone on; SHAPE is now `shape`, and register
`d`, but for g0, is pending. -/
def State.Queued (s : State) (h : BitVec 1) (q : QEntry) (shape : Word) (d : Nat) (t : State) : Prop :=
  ({ s with core := t.core }).OnlyHart h t ∧
  t.core = { s.core with
    queue := s.core.queue ++ [{ q with seq := s.core.nextSeq }], nextSeq := s.core.nextSeq + 1, shape := shape
    pcnt := t.core.pcnt } ∧
  (s.hart h).GoneOn ((s.hart h).pc + 4) false (t.hart h) ∧ (t.hart h).g = (s.hart h).g ∧
  (t.hart h).late = (s.hart h).late ∧
  ∀ k, k < 64 → (t.hart h).isPending k = ((s.hart h).isPending k || (k == d && d != 0))

/-- The rows of the array outside the elements of group `g` in the ways that `c` selects are as they were. -/
def RowsKept (c : ArrCtx) (g : Group) (m n : Memory) : Prop :=
  ∀ way row col, way < 32 → row < 512 → col < 4096 →
    ¬((∃ e, c.inSel e = true ∧ c.way e = way) ∧ 4 * g.1 ≤ row ∧ row < 4 * (g.1 + g.2)) →
    rowBit n way row col = rowBit m way row col

/-- The state in which an array word makes its effects: VEXTR and VINSR may have crossed between the dies (R278, R284). -/
def State.crossed (s : State) (q : QEntry) : State := if s.crossing q then s.crossings 1 else s

/-- Entry `k` of the array issue queue begins: the rows, the generators and the entry change, and what a beat of the layer
bus counts, nothing else. -/
def State.BeginsOnly (s : State) (k : Nat) (t : State) : Prop :=
  ∃ r q, s.core.queue[k]? = some q ∧
    t = { s.crossed q with core := { (s.crossed q).core with
      sram := t.core.sram, gens := t.core.gens, queue := s.core.queue.set k r } } ∧
    r.stage = .begun ∧
      r = { q with stage := .begun, flags := r.flags, value := r.value, steps := r.steps, skips := r.skips }

/-- R30, R323: the address or offset of element `e` of a memory word whose elements are whole bytes: the base plus its
index, e times the stride, or e times the element's size. -/
def QEntry.elementAt (q : QEntry) (c : ArrCtx) (m : Memory) (e : Nat) : Word :=
  q.x0 + (match q.w.op with
    | .vldx | .vstx => if q.res.t2 = 9 then BitVec.ofNat 64 (c.get m q.w.b.toNat 32 e)
        else (BitVec.ofNat 32 (c.get m q.w.b.toNat 32 e)).signExtend 64
    | .vlds | .vsts | .vldys | .vstys => BitVec.ofNat 64 e * q.x1
    | _ => BitVec.ofNat 64 e * BitVec.ofNat 64 (width q.memType / 8))

/-- Element-wise words: each element of the destination depends on the same element of the sources alone. -/
def elementOps : List ArrOp :=
  [.vadd, .vsub, .vadds, .vsubs, .vmul, .vmulh, .vmin, .vmax, .vminn, .vmaxn, .vand, .vor, .vxor, .vbool, .vsll, .vsrl,
   .vsra, .vmac, .vwmac, .vfadd, .vfsub, .vfmul, .vfma, .vfmin, .vfmax, .vfdiv, .vfms, .vcfle, .vcfun, .vceq, .vcne,
   .vclt, .vcge, .vcltn, .vcgen, .vcfeq, .vcflt, .vmov, .vnot, .vneg, .vabs, .vfneg, .vfabs, .vfsqrt, .vexp2, .vlog2,
   .vrcp, .vrsqrt, .vcvt, .vclz, .vpopc, .vsearch, .vslli, .vsrli, .vsrai, .vaddi, .vbcast]

/-- Hart `h` has gone on to the next word with no change to its registers. -/
def State.Passed (s : State) (h : BitVec 1) (t : State) : Prop :=
  s.OnlyHart h t ∧ (s.hart h).GoneOn ((s.hart h).pc + 4) false (t.hart h) ∧ (t.hart h).g = (s.hart h).g ∧
    (t.hart h).pending = (s.hart h).pending ∧ (t.hart h).late = (s.hart h).late

/-- Hart `h` may execute a word of the array owner at level `l` or below: it owns the array and has no open block (R94). -/
def State.Owns (s : State) (h : BitVec 1) (l : Nat) (rs : List (BitVec 7)) : Prop :=
  s.Issues h rs ∧ (s.hart h).ao = true ∧ (s.hart h).mb = false ∧ (s.hart h).pl ≤ l

/-- Nothing but the micro-thread of way `w` has changed. -/
def State.OnlyMt (s : State) (w : Nat) (t : State) : Prop :=
  t = { s with core := { s.core with mts := t.core.mts } } ∧ ∀ v, v ≠ w → t.mt v = s.mt v

/-- Hart `h` has placed entry `q` at the tail of the matrix queue and gone on; register `d`, but for g0, is pending. -/
def State.QueuedTile (s : State) (h : BitVec 1) (q : QEntry) (d : Nat) (t : State) : Prop :=
  ({ s with core := t.core }).OnlyHart h t ∧
  t.core = { s.core with
    mqueue := s.core.mqueue ++ [{ q with seq := s.core.nextSeq }], nextSeq := s.core.nextSeq + 1, pcnt := t.core.pcnt } ∧
  (s.hart h).GoneOn ((s.hart h).pc + 4) false (t.hart h) ∧ (t.hart h).g = (s.hart h).g ∧
  (t.hart h).late = (s.hart h).late ∧
  ∀ k, k < 64 → (t.hart h).isPending k = ((s.hart h).isPending k || (k == d && d != 0))

/-- The tile unit has accepted entry `k` of the matrix queue, leaving `r` there; of the unit and of the core nothing has
changed but what `f` says, which is told the states before and after. -/
def State.Accepts (s : State) (k : Nat) (f : State → QEntry → Prop) : Prop :=
  Completes (.tileAccept (BitVec.ofNat 2 s.position) 0) s (fun t => t.h0 = s.h0 ∧ t.h1 = s.h1 ∧ t.home = s.home ∧
    t.cache = s.cache ∧ ∃ q r, s.core.mqueue[k]? = some q ∧ t.core.mqueue = s.core.mqueue.set k r ∧ r.stage = .begun ∧
      r.w = q.w ∧ r.dest = q.dest ∧ r.hart = q.hart ∧ f t r)


/-! ### Retirement -/

/-- The event of a retirement (R462). -/
def retireWord (kind part : Nat) : Word := BitVec.ofNat 64 (0x20 + 256 * kind + 65536 * part)

/-- R449, R461, R462: the retirement map marks a part: DEGRADE has its bit, its quadrant's and bit 0; the event word goes to
EVLOG and to the harts that R462 names.  The part is out of service, or on its way out: a core until its save (R450), a channel
or far port that firmware still empties under FMODE[3] = 0 (R286).  No byte of memory and no general register changes, but what an LLC slice
that retires writes back (R285). -/
def State.Marks (s : State) (kind part : Nat) (t : State) : Prop :=
  t.mgmt.map = s.mgmt.map ++ [(kind, part)] ∧
  (if kind = 2 ∨ ((kind = 8 ∨ kind = 9) ∧ s.mgmt.fmode.getLsbD 3 = false) then (kind, part) ∈ t.mgmt.dead ++ t.mgmt.emptying
   else (kind, part) ∈ t.mgmt.dead) ∧
  (∀ i, i < 64 → t.mgmt.degrade.getLsbD i =
    (s.mgmt.degrade.getLsbD i || decide (i = 0 ∨ i = kind ∨ i = 16 + partQuadrant kind part))) ∧
  (kind ≠ 7 ∨ s.home.llc = [] →
    t.home = s.home ∧ t.core.sram = s.core.sram ∧ (∀ h, (t.hart h).g = (s.hart h).g) ∧
    (s.pool.nodes = [] → t.mgmt.evlog = s.mgmt.evlog ++ [retireWord kind part] ∧
    ∀ h, (t.hart h).mgmtEv = (s.hart h).mgmtEv ++
      if s.quadrant = partQuadrant kind part ∧ (s.hostPort = true ∨ s.isStartCore = true) then [retireWord kind part] else []))

/-! ### Windows -/

/-- The byte that memory `m` holds at `b` once the `n` bytes at `a` are those of `v`. -/
def storedByte (m : Memory) (a n v b : Nat) : Byte :=
  if a ≤ b ∧ b < a + n then byteOf v (b - a) else Memory.byte m b


/-! ### Runs -/

/-- No fetch address, saved or present, has bits [1:0] set (R59). -/
def State.PcAligned (s : State) : Prop :=
  ∀ h, (s.hart h).pc.toNat % 4 = 0 ∧ (s.hart h).csr.epc.toNat % 4 = 0 ∧ (s.hart h).csr.tvec.toNat % 4 = 0

end Sys2Proof.Machine
end

