-- ==== Sys2Proof/Certificates/Slice0/Obligations.lean ====
section
/-! DEFINITION. The statements for the provers: what the rules of the spec say of the machine, family by family. -/

open Sys2Proof Sys2Proof.Machine

/-- R121: the integer register instructions, in a hart: each writes the value of Table 05-4 and nothing else. R124, R125:
the immediate instructions, in a hart. -/
def Obligations.IntegerWords : Prop :=
  (∀ (h : BitVec 1) (d a b : BitVec 7) (s : State), s.Issues h [d, a, b] →
     let x := (s.hart h).reg a.toNat
     let y := (s.hart h).reg b.toNat
     let z := (s.hart h).reg d.toNat
     ∀ e ∈ ([(.add d a b, x + y), (.sub d a b, x - y), (.and d a b, x &&& y), (.or d a b, x ||| y),
         (.xor d a b, x ^^^ y), (.andn d a b, x &&& ~~~y),
         (.sll d a b, x <<< (y &&& 63)), (.srl d a b, x >>> (y &&& 63)), (.sra d a b, x.sshiftRight' (y &&& 63)),
         (.slt d a b, if x.toInt < y.toInt then 1 else 0), (.sltn d a b, if x.toNat < y.toNat then 1 else 0),
         (.min d a b, if x.toInt ≤ y.toInt then x else y), (.max d a b, if y.toInt ≤ x.toInt then x else y),
         (.minn d a b, if x.toNat ≤ y.toNat then x else y), (.maxn d a b, if y.toNat ≤ x.toNat then x else y),
         (.addw d a b, ((x + y).truncate 32).signExtend 64), (.subw d a b, ((x - y).truncate 32).signExtend 64),
         (.cmov d a b, if x = 0 then z else y)] : List (Instr × Word)),
       WritesNow e.1 s h d e.2) ∧
  (∀ (h : BitVec 1) (d a : BitVec 7) (i : BitVec 12) (n : BitVec 6) (u : BitVec 19) (s : State), s.Issues h [d, a] →
     let x := (s.hart h).reg a.toNat
     ∀ e ∈ ([(.addi d a i, x + i.signExtend 64), (.andi d a i, x &&& i.zeroExtend 64), (.ori d a i, x ||| i.zeroExtend 64),
         (.xori d a i, x ^^^ i.zeroExtend 64), (.slli d a n, x <<< n), (.srli d a n, x >>> n),
         (.srai d a n, x.sshiftRight' n), (.slti d a i, if x.toInt < i.toInt then 1 else 0),
         (.lih d u, (u.zeroExtend 32 <<< 13).signExtend 64),
         (.auip d u, (s.hart h).pc + (u.zeroExtend 32 <<< 13).signExtend 64)] : List (Instr × Word)),
       WritesNow e.1 s h d e.2)

/-- R122: counts and reversals of bits and bytes, and rotations, in a hart. R122, R123: products, quotients and remainders
arrive later; division by zero and the overflowing quotient have the results of R123. R120: a divide takes the core's
divider, which must be free and the hart's turn; otherwise the hart stays at it. -/
def Obligations.BitsAndProducts : Prop :=
  (∀ (h : BitVec 1) (d a b : BitVec 7) (s : State), s.Issues h [d, a, b] →
     let x := (s.hart h).reg a.toNat
     let y := (s.hart h).reg b.toNat
     WritesNow (.rotl d a b) s h d (x.rotateLeft (y.toNat % 64)) ∧
     WritesNow (.rotr d a b) s h d (x.rotateRight (y.toNat % 64)) ∧
     (∃ n, WritesNow (.clz d a) s h d (BitVec.ofNat 64 n) ∧ n ≤ 64 ∧
       (∀ k, k < 64 → 64 - n ≤ k → x.getLsbD k = false) ∧ (n < 64 → x.getLsbD (63 - n) = true)) ∧
     (∃ n, WritesNow (.ctz d a) s h d (BitVec.ofNat 64 n) ∧ n ≤ 64 ∧
       (∀ k, k < n → x.getLsbD k = false) ∧ (n < 64 → x.getLsbD n = true)) ∧
     WritesNow (.popc d a) s h d (BitVec.ofNat 64 ((List.range 64).countP (fun k => x.getLsbD k))) ∧
     (∃ v : Word, WritesNow (.rev d a) s h d v ∧ ∀ k, k < 64 → v.getLsbD k = x.getLsbD (63 - k)) ∧
     (∃ v : Word, WritesNow (.bswap d a) s h d v ∧
       ∀ k j, k < 8 → j < 8 → v.getLsbD (8 * k + j) = x.getLsbD (8 * (7 - k) + j))) ∧
  (∀ (h : BitVec 1) (d a b : BitVec 7) (s : State), s.Issues h [d, a, b] →
     let x := (s.hart h).reg a.toNat
     let y := (s.hart h).reg b.toNat
     ∀ e ∈ ([(.mul d a b, x * y), (.mulh d a b, BitVec.ofInt 64 (x.toInt * y.toInt / 2 ^ 64)),
         (.mulhn d a b, BitVec.ofNat 64 (x.toNat * y.toNat / 2 ^ 64))] : List (Instr × Word)),
       WritesLate e.1 s h d e.2 0) ∧
  (∀ (h : BitVec 1) (d a b : BitVec 7) (s : State), s.Issues h [d, a, b] →
     let x := (s.hart h).reg a.toNat
     let y := (s.hart h).reg b.toNat
     ∀ e ∈ ([(.div d a b, if y = 0 then BitVec.allOnes 64 else x.sdiv y),
         (.divn d a b, if y = 0 then BitVec.allOnes 64 else x / y),
         (.rem d a b, if y = 0 then x else x.srem y), (.remn d a b, if y = 0 then x else x % y)] :
           List (Instr × Word)),
       (s.dividerBusy = false → s.dividerTurn h = true → WritesLate e.1 s h d e.2 0 false true) ∧
       (s.dividerBusy = true ∨ s.dividerTurn h = false → Completes e.1 s (fun t => s.OnlyHart h t ∧
         t.hart h = { s.hart h with waits := (t.hart h).waits } ∧ (t.hart h).waits.isSome = true)))

/-- R126: JAL and JALR write the return address and go to their target, whose bits [1:0] JALR clears; JALR reads ga before
it writes gd. R127: each branch goes to PC + 4 × its offset when its condition holds of ga and gb, else to the next
word, and writes no register. -/
def Obligations.JumpsAndBranches : Prop :=
  (∀ (h : BitVec 1) (d a : BitVec 7) (i : BitVec 26) (j : BitVec 12) (s : State), s.Issues h [d, a, 1] →
     let x := s.hart h
     Completes (.jal i) s (fun t => s.OnlyHart h t ∧ x.GoneOn (x.pc + (i.signExtend 64 <<< 2)) true (t.hart h) ∧
       x.Wrote 1 (x.pc + 4) (t.hart h)) ∧
     Completes (.jalr d a j) s (fun t => s.OnlyHart h t ∧
       x.GoneOn ((x.reg a.toNat + j.signExtend 64) &&& 0xFFFFFFFFFFFFFFFC) true (t.hart h) ∧
       x.Wrote d.toNat (x.pc + 4) (t.hart h))) ∧
  (∀ (h : BitVec 1) (hi a b : BitVec 7) (lo : BitVec 5) (s : State), s.Issues h [a, b] →
     let x := (s.hart h).reg a.toNat
     let y := (s.hart h).reg b.toNat
     ∀ e ∈ ([(.beq hi a b lo, x = y), (.bne hi a b lo, x ≠ y), (.blt hi a b lo, x.toInt < y.toInt),
         (.bge hi a b lo, y.toInt ≤ x.toInt), (.bltn hi a b lo, x.toNat < y.toNat), (.bgen hi a b lo, y.toNat ≤ x.toNat)] :
           List (Instr × Prop)),
       Completes e.1 s (fun t => s.OnlyHart h t ∧ (t.hart h).g = (s.hart h).g ∧
         (t.hart h).pending = (s.hart h).pending ∧ (t.hart h).late = (s.hart h).late ∧
         (e.2 → (s.hart h).GoneOn ((s.hart h).pc + ((hi ++ lo).signExtend 64 <<< 2)) true (t.hart h)) ∧
         (¬e.2 → (s.hart h).GoneOn ((s.hart h).pc + 4) false (t.hart h))))

/-- R303, R318, R319: a load from an MS page reads the home's bytes; the value, extended, comes later, and no byte of
memory and no cached copy changes. R274, R294, R318, R319: a load from any other page of memory gives the value that
the core cache answers. R390, R470: a load from an MMIO window, once the hart's earlier stores there have arrived, gives
what the window answers; one that the window does not allow is logged as a violation, gives 0 and leaves a bus error
pending. -/
def Obligations.Loads : Prop :=
  (∀ (h : BitVec 1) (d a : BitVec 7) (i : BitVec 9) (s s1 : State) (t : Trans), s.Issues h [d, a] →
     ∀ e ∈ loadTable d a i,
       s.Reaches h .read ((s.hart h).reg a.toNat + BitVec.ofNat 64 e.2.1 * i.signExtend 64) e.2.1 false t s1 →
       t.mmio = false → t.ms = true → s1.arrayTouches 0 t.name e.2.1 = false → s1.postedOver h t.name e.2.1 = false →
       s1.readError t.name = none →
       Completes e.1 s (fun u => (s.hart h).Sent d.toNat (e.2.2 (s1.homeValue t.name e.2.1)) 0 (u.hart h) ∧
         (s.hart h).GoneOn ((s.hart h).pc + 4) false (u.hart h) ∧ s.HartsKept u ∧ s.CoreKept u ∧
         u.home.mem = s.home.mem ∧ u.cache = s.cache)) ∧
  (∀ (h : BitVec 1) (d a : BitVec 7) (i : BitVec 9) (s s1 s2 : State) (t : Trans) (v : Nat), s.Issues h [d, a] →
     ∀ e ∈ loadTable d a i,
       s.Reaches h .read ((s.hart h).reg a.toNat + BitVec.ofNat 64 e.2.1 * i.signExtend 64) e.2.1 false t s1 →
       t.mmio = false → t.ms = false → s1.arrayTouches 0 t.name e.2.1 = false → s1.cacheWays ≠ [] →
       s1.cacheLoad h.toNat t.name e.2.1 s1.cid16 t.vpn = (.ok v, s2) →
       Completes e.1 s (fun u => s2.OnlyHart h u ∧ (s2.hart h).GoneOn ((s.hart h).pc + 4) false (u.hart h) ∧
         (s2.hart h).Sent d.toNat (e.2.2 v) 0 (u.hart h))) ∧
  (∀ (h : BitVec 1) (d a : BitVec 7) (i : BitVec 9) (s s1 s2 : State) (t : Trans), s.Issues h [d, a] →
     ∀ e ∈ loadTable d a i,
       let va := (s.hart h).reg a.toNat + BitVec.ofNat 64 e.2.1 * i.signExtend 64
       s.Reaches h .read va e.2.1 false t s1 → t.mmio = true → s1.postedOver h t.name e.2.1 = false →
       (∀ v, s1.mmioRead h t.name e.2.1 = (some v, s2) →
         Completes e.1 s (fun u => s2.OnlyHart h u ∧ (s2.hart h).GoneOn ((s.hart h).pc + 4) false (u.hart h) ∧
           (s2.hart h).Sent d.toNat (e.2.2 v.toNat) 0 (u.hart h))) ∧
       (s1.mmioRead h t.name e.2.1 = (none, s2) →
         let s3 := (s2.mmioViolation h.toNat t.name s.cid16).loadError h va 1 e.2.1 false
         Completes e.1 s (fun u => s3.OnlyHart h u ∧ (s3.hart h).GoneOn ((s.hart h).pc + 4) false (u.hart h) ∧
           (s2.hart h).Sent d.toNat 0 0 (u.hart h) ∧ (u.hart h).busEv.isSome = true)))

/-- R274, R318, R319: a scalar store to a cached page puts the low bytes of gd into the core cache and goes on. R293,
R303, R319: a scalar store to an MS page leaves the core as a posted store of the low bytes of gd; memory is unchanged
until it reaches its home. R390: a store to an MMIO window leaves the core as a posted store too. -/
def Obligations.Stores : Prop :=
  (∀ (h : BitVec 1) (d a : BitVec 7) (i : BitVec 9) (s s1 s2 : State) (t : Trans), s.Issues h [d, a] →
     ∀ e ∈ storeTable d a i,
       s.Reaches h .write ((s.hart h).reg a.toNat + BitVec.ofNat 64 e.2 * i.signExtend 64) e.2 true t s1 →
       t.mmio = false → t.ms = false → s1.arrayTouches 0 t.name e.2 = false → s1.cacheWays ≠ [] →
       s1.homeError t.name = none →
       s1.cachePut t.name e.2 (((s.hart h).reg d.toNat).toNat % 256 ^ e.2) s1.cid16 t.vpn = some s2 →
       Completes e.1 s (fun u => s2.OnlyHart h u ∧ (s2.hart h).GoneOn ((s.hart h).pc + 4) false (u.hart h) ∧
         (s2.hart h).Wrote 0 0 (u.hart h))) ∧
  (∀ (h : BitVec 1) (d a : BitVec 7) (i : BitVec 9) (s s1 : State) (t : Trans), s.Issues h [d, a] →
     ∀ e ∈ storeTable d a i,
       s.Reaches h .write ((s.hart h).reg a.toNat + BitVec.ofNat 64 e.2 * i.signExtend 64) e.2 true t s1 →
       t.mmio = false → t.ms = true → s1.arrayTouches 0 t.name e.2 = false →
       Map.get none s1.home.frames (frameOf t.name).1 = none →
       Completes e.1 s (fun u => u.home.mem = s.home.mem ∧ u.cache = s.cache ∧ s.HartsKept u ∧ s.CoreKept u ∧
         (s.hart h).GoneOn ((s.hart h).pc + 4) false (u.hart h) ∧
         ∃ p, u.home.posted = s.home.posted ++ [p] ∧ p.hart = h ∧ p.pa = t.name ∧ p.n = e.2 ∧ p.done = false ∧
           p.mmio = false ∧ p.v.toNat = ((s.hart h).reg d.toNat).toNat % 256 ^ e.2)) ∧
  (∀ (h : BitVec 1) (d a : BitVec 7) (i : BitVec 9) (s s1 : State) (t : Trans), s.Issues h [d, a] →
     ∀ e ∈ storeTable d a i,
       s.Reaches h .write ((s.hart h).reg a.toNat + BitVec.ofNat 64 e.2 * i.signExtend 64) e.2 true t s1 → t.mmio = true →
       Completes e.1 s (fun u => u.home.mem = s.home.mem ∧ u.host = s.host ∧ u.cache = s.cache ∧ s.HartsKept u ∧
         s.CoreKept u ∧ (s.hart h).GoneOn ((s.hart h).pc + 4) false (u.hart h) ∧
         ∃ p, u.home.posted = s.home.posted ++ [p] ∧ p.hart = h ∧ p.pa = t.name ∧ p.n = e.2 ∧ p.done = false ∧
           p.mmio = true ∧ p.v.toNat = ((s.hart h).reg d.toNat).toNat % 256 ^ e.2))

/-- R274, R294: what the core cache answers to a load within one sector is, byte by byte, the core's own copy where it
holds one, and the home's byte elsewhere. R274: a cached store changes, of what the core sees, the bytes stored and no
others, and reaches no home. R287, R304: when the core gives up its copy of a sector, its dirty bytes are at the home,
the home's other bytes are as they were, and the core sees the home; when it only writes them back, its copy stays as
it was. -/
def Obligations.CacheBytes : Prop :=
  (∀ (k name n : Nat) (cid : BitVec 16) (vpn v : Nat) (s t : State), s.cacheWays ≠ [] → name % 64 + n ≤ 64 →
     s.cacheLoad k name n cid vpn = (.ok v, t) → ∀ j, j < n → byteOf v j = s.seenByte (name + j)) ∧
  (∀ (name n v : Nat) (cid : BitVec 16) (vpn : Nat) (s : State), name % 64 + n ≤ 64 →
     (∃ l, s.findLine (name / 256) = some l ∧ s.wayHeld l.way = false) →
     ∃ t, s.cachePut name n v cid vpn = some t ∧ t.home = s.home ∧
       ∀ a, t.seenByte a = if name ≤ a ∧ a < name + n then byteOf v (a - name) else s.seenByte a) ∧
  (∀ (name : Nat) (s : State), s.homeError (name / 64 * 64) = none →
     s.codedOver (name / 64 * 64) (List.range 64) = false →
     (∀ t, s.evictSector name = some t → ∀ j, j < 64 →
       let a := name / 64 * 64 + j
       let dirty : Bool := (s.findLine (name / 256)).any (fun l =>
         bit (Map.get Sector.empty l.sectors (name / 64 % 4)).dirty.toNat j)
       BitVec.ofNat 8 (t.homeValue a 1) = (if dirty then s.seenByte a else BitVec.ofNat 8 (s.homeValue a 1)) ∧
         t.seenByte a = BitVec.ofNat 8 (t.homeValue a 1)) ∧
     (∀ t, s.cleanSector name = some t → ∀ j, j < 64 →
       let a := name / 64 * 64 + j
       let dirty : Bool := (s.findLine (name / 256)).any (fun l =>
         bit (Map.get Sector.empty l.sectors (name / 64 % 4)).dirty.toNat j)
       BitVec.ofNat 8 (t.homeValue a 1) = (if dirty then s.seenByte a else BitVec.ofNat 8 (s.homeValue a 1)) ∧
         t.seenByte a = s.seenByte a))

/-- R293: a posted store that reaches its home writes its bytes there, once, and no other byte of memory; a write of
another agent does so too. The store then waits for its acknowledgement, which takes it away (R298). R294: a read of
another agent changes no byte, and nothing at all where the slice holds the line (that such an access is none of its
controller is the model's choice, log entry 141). R390, R470: a posted store to
an MMIO window acts there when it arrives, or is a violation, and then waits for its acknowledgement. -/
def Obligations.HomeWrites : Prop :=
  (∀ (k : Nat) (p : Posted) (s : State), s.home.posted[k]? = some p → p.done = false → s.postedFirst k p = true →
    p.mmio = false → s.homeError p.pa = none → Map.get none s.home.frames (frameOf p.pa).1 = none →
    (if p.ms then s.llcStored p.pa else (s.llcLine p.pa).map (·.2)).isSome = true →
    Completes (.homeWriteArrival (some k) 0 0 0) s (fun u => s.HomeStored p.pa p.n p.v.toNat u ∧ s.HartsKept u ∧
      s.CoreKept u ∧ u.home.posted = s.home.posted.set k { p with done := true })) ∧
  (∀ (pa n : Nat) (v : BitVec 64) (s : State), n ∈ [1, 2, 4, 8] → s.homeError pa = none → (s.llcLine pa).isSome = true →
    Completes (.homeWriteArrival none pa n v) s (fun u => s.HomeStored pa n v.toNat u ∧ s.HartsKept u ∧ s.CoreKept u)) ∧
  (∀ (k : Nat) (p : Posted) (s : State), s.home.posted[k]? = some p → p.done = false → s.postedFirst k p = true →
    p.mmio = true →
    let r := s.mmioWrite p.pa p.n p.v
    let s1 := if r.1 then r.2 else (r.2.mmioViolation p.hart.toNat p.pa p.cid).loadError p.hart p.va 1 p.n true
    exec (.homeWriteArrival (some k) 0 0 0) s =
      .next { s1 with home := { s1.home with posted := s.home.posted.set k { p with done := true } } }) ∧
  (∀ (h : BitVec 1) (k : Nat) (s : State), s.home.posted.findIdx? (fun p => p.hart == h && p.done) = some k →
    exec (.homeAcknowledgement h) s = .next { s with home := { s.home with posted := s.home.posted.eraseIdx k } }) ∧
  (∀ (pa : Nat) (s : State), s.readError pa = none →
    Completes (.homeReadRequest pa) s (fun u => s.HartsKept u ∧ s.CoreKept u ∧ u.cache = s.cache ∧ u.dir = s.dir ∧
      u.home.mem = s.home.mem ∧ u.home.posted = s.home.posted ∧ u.ctr.cycle = s.ctr.cycle) ∧
    ((s.findLlc pa).any (fun l => l.has pa 1) = true → exec (.homeReadRequest pa) s = .next s))

/-- R304, R330: an atomic replaces the word at its home in one step by the function of Table 14-6 of the old value, which
gd receives later; of memory only that word changes after the core has given up its copy of the sector. R304: an
atomic of another agent is performed in one step at its home: the word becomes the function of its old value, and no
other byte changes. -/
def Obligations.Atomics : Prop :=
  (∀ (h : BitVec 1) (d a b : BitVec 7) (s s1 s2 : State) (t : Trans), s.Issues h [d, a, b] →
     ∀ e ∈ amoTable d a b ((s.hart h).reg b.toNat) ((s.hart h).reg d.toNat),
       s.Reaches h .both ((s.hart h).reg a.toNat) e.2.2.1 true t s1 → t.mmio = false →
       s1.arrayTouches 0 t.name e.2.2.1 = false → s1.postedOver h t.name e.2.2.1 = false →
       (if t.ms then some s1 else s1.evictSector t.name) = some s2 → s2.readError t.name = none →
       Map.get none s2.home.frames (frameOf t.name).1 = none →
       (if t.ms then s2.llcStored t.name else ((s2.llcRead t.name e.2.2.1).llcLine t.name).map (·.2)).isSome = true →
       Completes e.2.1 s (fun u =>
         s2.HomeStored t.name e.2.2.1 (e.2.2.2.1 (s2.homeValue t.name e.2.2.1)) u ∧
         (s2.hart h).Sent d.toNat (e.2.2.2.2 (s2.homeValue t.name e.2.2.1)) 0 (u.hart h) ∧
         (u.hart h).pc = (s.hart h).pc + 4 ∧ s2.HartsKept u ∧ s2.CoreKept u)) ∧
  (∀ (pa : Nat) (b c : BitVec 64) (s : State), s.readError pa = none →
     ∀ e ∈ amoTable 0 0 0 b c, pa % e.2.2.1 = 0 → ((s.llcRead pa e.2.2.1).llcLine pa).isSome = true →
       Completes (.homeAtomic e.1 pa b c) s (fun u =>
         s.HomeStored pa e.2.2.1 (e.2.2.2.1 (s.homeValue pa e.2.2.1)) u ∧ s.HartsKept u ∧ s.CoreKept u))

/-- R315, R316, R140: a scalar load or store that is not aligned to its size traps as 0x03 at the instruction, with its
address and its kind in the fault CSRs, and transfers nothing. R101, R102: a parkable fault of a hart that the other
can serve parks it: its PC, level and registers stay, the fault is in its CSRs and the other hart is told; where the
other cannot serve, the hart traps. -/
def Obligations.MemoryFaults : Prop :=
  (∀ (h : BitVec 1) (d a : BitVec 7) (i : BitVec 9) (s : State), s.Issues h [d, a] →
     ∀ e ∈ (loadTable d a i).map (fun e => (e.1, e.2.1, false)) ++ (storeTable d a i).map (fun e => (e.1, e.2, true)),
       let va := (s.hart h).reg a.toNat + BitVec.ofNat 64 e.2.1 * i.signExtend 64
       va.toNat % e.2.1 ≠ 0 →
       Completes e.1 s (fun u => s.OnlyHart h u ∧ (s.hart h).Entered 0x03 0 (u.hart h) ∧ (u.hart h).csr.faddr = va ∧
         (u.hart h).csr.fstride = 0 ∧ (u.hart h).csr.fremain = 1 ∧ wf (u.hart h).csr.finfo 28 1 = b2n e.2.2 ∧
         2 ^ wf (u.hart h).csr.finfo 25 3 = e.2.1 ∧ wf (u.hart h).csr.finfo 20 5 = 1)) ∧
  (∀ (h : BitVec 1) (cause : Nat) (va stride remain : Word) (kind size idx : Nat) (wr : Bool) (s : State),
     cause ∈ [0x04, 0x05, 0x06, 0x10] → bit s.mgmt.fmode.toNat 0 = false →
     (s.canServe h = true → ∃ t, s.hartFault h cause va kind wr size idx stride remain = .next t ∧
       (t.hart h).run = .parked none ∧ (t.hart h).pc = (s.hart h).pc ∧ (t.hart h).g = (s.hart h).g ∧
       (t.hart h).csr.epc = (s.hart h).pc ∧ (t.hart h).csr.cause = BitVec.ofNat 64 cause ∧ (t.hart h).csr.faddr = va ∧
       (t.hart h).csr.fstride = stride ∧ (t.hart h).csr.fremain = remain ∧ (t.hart h).pl = (s.hart h).pl ∧
       (t.hart h).ieOn = (s.hart h).ieOn ∧ (t.hart (other h)).parkedPeer = true ∧
       (t.hart (other h)).pc = (s.hart (other h)).pc ∧ t.core = s.core ∧ t.home = s.home) ∧
     ((∃ r, (s.hart (other h)).run = .parked r) ∨ (s.hart (other h)).run = .halted ∨ (s.hart (other h)).parkedPeer = true →
       ∃ t, s.hartFault h cause va kind wr size idx stride remain = .next t ∧
       s.OnlyHart h t ∧ (s.hart h).Entered cause 0 (t.hart h) ∧ (t.hart h).csr.faddr = va ∧ ∀ r, (t.hart h).run ≠ .parked r))

/-- R270, R271, R320: a load of local scratch or layer space gives the 8 bytes at its offset. R308: a store there is posted:
it goes behind the hart's earlier ones and changes no byte yet, its own hart's loads see it at once, and when it settles
its 8 bytes are written and no other (when a posted store reaches its bank is the model's choice, log entry 152). R278: a
layer access takes a beat of the layer bus. R284: layer space that has been relocated lies in the core's slot of the
spill region, and its bytes are read and written there instead (which bytes of the slot is the model's choice, log entry
99). -/
def Obligations.ScratchAccess : Prop :=
  (∀ (h : BitVec 1) (d a : BitVec 7) (i : BitVec 10) (s : State) (layer : Bool), s.Issues h [d, a] →
    let o := ((s.hart h).reg a.toNat + 8 * i.signExtend 64).toNat
    o % 8 = 0 → o + 8 ≤ s.extent layer → (layer = true → s.layerHeld = false) →
    s.arrayTouches (if layer then 2 else 1) o 8 = false →
    let mine := (s.hart h).stores.filter (fun x => x.layer == layer && x.offset == o)
    let bank (j : Nat) : Byte := if layer && s.relocated then Memory.byte s.home.mem (s.slotKey (s.scratchKey true o) + j)
      else Memory.byte s.core.sram (s.scratchKey layer o + j)
    let read (v : Word) : Prop :=
      (∀ x, mine.getLast? = some x → v = x.v) ∧ (mine = [] → ∀ j, j < 8 → byteOf v.toNat j = bank j)
    let next (t u : State) (v : Word) : Prop := t.OnlyHart h u ∧ (s.hart h).GoneOn ((s.hart h).pc + 4) false (u.hart h) ∧
      (s.hart h).Sent d.toNat v 0 (u.hart h)
    (s.interlocked (if layer then 2 else 1) o (o + 8) false = false →
      ∃ v, read v ∧ Completes (if layer then .ldy d a i else .ldl d a i) s (fun u =>
        if layer && s.relocated then next { s with ctr := u.ctr } u v ∧ u.ctr.cycle = s.ctr.cycle
        else next (if layer then s.beats 1 else s) u v)) ∧
    (s.interlocked (if layer then 2 else 1) o (o + 8) true = false →
      Completes (if layer then .sty d a i else .stl d a i) s (fun u => s.OnlyHart h u ∧
        ({ s.hart h with stores := (s.hart h).stores ++
            [{ layer := layer, offset := o, v := (s.hart h).reg d.toNat }] } : Hart).GoneOn
          ((s.hart h).pc + 4) false (u.hart h) ∧ (u.hart h).g = (s.hart h).g ∧ (u.hart h).pending = (s.hart h).pending ∧
        (u.hart h).late = (s.hart h).late))) ∧
  (∀ (h : BitVec 1) (x : ScratchStore) (s : State), (s.hart h).stores = [x] → x.offset % 8 = 0 →
    x.offset + 8 ≤ s.extent x.layer →
    (x.layer = true → s.layerHeld = true → s.settleStores h = none) ∧
    ((x.layer = true → s.layerHeld = false) → ∃ u, s.settleStores h = some u ∧ (u.hart h).stores = [] ∧
      (∀ k, (u.hart k).g = (s.hart k).g ∧ (u.hart k).pc = (s.hart k).pc ∧ (u.hart k).csr = (s.hart k).csr) ∧
      ((x.layer && s.relocated) = false → u.home = s.home ∧ ∀ b, Memory.byte u.core.sram b =
        storedByte s.core.sram (s.scratchKey x.layer x.offset) 8 x.v.toNat b) ∧
      ((x.layer && s.relocated) = true → u.core.sram = s.core.sram ∧ ∀ b, Memory.byte u.home.mem b =
        storedByte s.home.mem (s.slotKey (s.scratchKey true x.offset)) 8 x.v.toNat b)))

/-- R129 to R135: each scalar floating-point instruction sends to gd the pattern that its rule gives, with the flags
that the rounding and the operation raise; the mode is RMODE, with stochastic rounding taken as RNE (R41). R120: FDIV
and FSQRT take the core's divider, which must be free and the hart's turn; otherwise the hart stays at them. (The zero
signs that no rule gives under RDN are the model's reading, log entry 118.) -/
def Obligations.ScalarFloat : Prop :=
  ∀ (h : BitVec 1) (d a b : BitVec 7) (s : State), s.Issues h [d, a, b] →
    let X := (s.hart h).reg a.toNat
    let Y := (s.hart h).reg b.toNat
    let Z := (s.hart h).reg d.toNat
    let m := if (s.hart h).csr.rmode.toNat % 8 = 5 then 0 else (s.hart h).csr.rmode.toNat % 8
    let dn := m == 2
    let f32 (w : Word) : Machine.Num := val 0x16 (w.toNat % 2 ^ 32)
    let x := f32 X
    let y := f32 Y
    let z := f32 Z
    let out (r : Machine.Num × BitVec 6) (sticky : Bool) : Nat × BitVec 6 :=
      ((roundF 0x16 m 0 false r.1 sticky).1, (roundF 0x16 m 0 false r.1 sticky).2 ||| r.2)
    let test (nv : BitVec 6) (p : Int → Bool) : Nat × BitVec 6 :=
      if x = .nan ∨ y = .nan then (0, nv) else (if p (Machine.Num.cmp x y) then 1 else 0, 0)
    (∀ e ∈ ([(.fadd d a b, out (Machine.Num.add dn x y) false), (.fsub d a b, out (Machine.Num.add dn x y.neg) false),
        (.fmul d a b, out (Machine.Num.mul dn x y) false),
        (.fma d a b, if x = .nan ∨ y = .nan ∨ z = .nan then (0x7FC00000, 0)
          else out ((Machine.Num.add dn (Machine.Num.mul dn x y).1 z).1, (Machine.Num.mul dn x y).2 ||| (Machine.Num.add dn (Machine.Num.mul dn x y).1 z).2) false),
        (.fmin d a b, (minmaxF 0x16 false (X.toNat % 2 ^ 32) (Y.toNat % 2 ^ 32), 0)),
        (.fmax d a b, (minmaxF 0x16 true (X.toNat % 2 ^ 32) (Y.toNat % 2 ^ 32), 0)),
        (.feq d a b, test 0 (· == 0)), (.flt d a b, test flNV (· < 0)), (.fle d a b, test flNV (· ≤ 0)),
        (.fcvtis d a, toint 0x0A m 0 x),
        (.fcvtsi d a, roundF 0x16 m 0 false (if X.toInt = 0 then .fin dn 0 0 else .ofInt X.toInt)),
        (.fclass d a, (2 ^ classOf (X.toNat % 2 ^ 32), 0)),
        (.fcvtbf d a, roundF 0x14 m 0 false x),
        (.fcvtfb d a, roundF 0x16 m 0 false (val 0x14 (X.toNat % 2 ^ 16)))] : List (Instr × Nat × BitVec 6)),
      WritesLate e.1 s h d (BitVec.ofNat 64 e.2.1) e.2.2 true) ∧
    (∀ e ∈ ([(.fdiv d a b, out ((divNum dn x y).1, (divNum dn x y).2.2) (divNum dn x y).2.1),
        (.fsqrt d a, out ((sqrtNum dn x).1, (sqrtNum dn x).2.2) (sqrtNum dn x).2.1)] : List (Instr × Nat × BitVec 6)),
      (s.dividerBusy = false → s.dividerTurn h = true →
        WritesLate e.1 s h d (BitVec.ofNat 64 e.2.1) e.2.2 true true) ∧
      (s.dividerBusy = true ∨ s.dividerTurn h = false → Completes e.1 s (fun t => s.OnlyHart h t ∧
        t.hart h = { s.hart h with waits := (t.hart h).waits } ∧ (t.hart h).waits.isSome = true)))

/-- R304, R332: SBIND reads its pair by loads of the hart and answers 2 for a held or awaited object, 3 for a range that
is empty or leaves the canonical space, 1 when three ranges are bound, and else 0, with the pair added as range count.
R304, R332: SUNBIND answers 2 for a held or awaited object, 3 for an index not below the count, and else 0, with the
range removed, the ranges above it moved down and the count one less. -/
def Obligations.RangeRecords : Prop :=
  (∀ (h : BitVec 1) (d a b : BitVec 7) (s s1 s2 s3 s4 : State) (t : Trans) (base len : Nat), s.Issues h [d, a, b] →
     ObjectAt s h ((s.hart h).reg a.toNat) t s1 → ((s.hart h).reg b.toNat).toNat % 8 = 0 →
     s1.loadVa h ((s.hart h).reg b.toNat) 8 2 = .ok base s2 →
     s2.loadVa h ((s.hart h).reg b.toNat + 8) 8 2 = .ok len s3 → s3.readError t.name = none →
     s3.interlocked 0 ((s.hart h).reg a.toNat).toNat (((s.hart h).reg a.toNat).toNat + 64) true = false →
     s3.arrayTouches 0 t.name 64 = false → s3.postedOver h t.name 64 = false → s3.evictSector t.name = some s4 →
     Map.get none s4.home.frames (frameOf t.name).1 = none → s4.codedOver t.name (List.range 64) = false →
     (s4.llcLine t.name).isSome = true →
     let n := s4.homeValue (t.name + 0x30) 1
     let st := if (s4.dirEntry t.name).isSome then 2
       else if len % 2 ^ 64 = 0 ∨ ¬canonical (BitVec.ofNat 64 base) ∨
         (if base % 2 ^ 64 < 2 ^ 47 then 2 ^ 47 else 2 ^ 64) < base % 2 ^ 64 + len % 2 ^ 64 then 3
       else if n = 3 then 1 else 0
     Completes (.sbind d a b) s (fun u => (s4.hart h).Sent d.toNat (BitVec.ofNat 64 st) 0 (u.hart h) ∧
       (u.hart h).pc = (s.hart h).pc + 4 ∧ s4.HartsKept u ∧ s4.CoreKept u ∧
       (st ≠ 0 → u.home.mem = s4.home.mem) ∧
       (st = 0 → n < 3 → u.homeValue (t.name + 16 * n) 8 = base % 2 ^ 64 ∧ u.homeValue (t.name + 16 * n + 8) 8 = len % 2 ^ 64 ∧
         u.homeValue (t.name + 0x30) 1 = n + 1))) ∧
  (∀ (h : BitVec 1) (d a b : BitVec 7) (s s1 s2 : State) (t : Trans), s.Issues h [d, a, b] →
     ObjectAt s h ((s.hart h).reg a.toNat) t s1 →
     s1.interlocked 0 ((s.hart h).reg a.toNat).toNat (((s.hart h).reg a.toNat).toNat + 64) true = false →
     s1.arrayTouches 0 t.name 64 = false → s1.postedOver h t.name 64 = false → s1.evictSector t.name = some s2 →
     Map.get none s2.home.frames (frameOf t.name).1 = none → s2.codedOver t.name (List.range 64) = false →
     (s2.llcLine t.name).isSome = true →
     let k := ((s.hart h).reg b.toNat).toNat
     let n := s2.homeValue (t.name + 0x30) 1
     let st := if (s2.dirEntry t.name).isSome then 2 else if n ≤ k then 3 else 0
     Completes (.sunbind d a b) s (fun u => (s2.hart h).Sent d.toNat (BitVec.ofNat 64 st) 0 (u.hart h) ∧
       (u.hart h).pc = (s.hart h).pc + 4 ∧ s2.HartsKept u ∧ s2.CoreKept u ∧
       (st ≠ 0 → u.home.mem = s2.home.mem) ∧
       (st = 0 → n ≤ 3 → u.homeValue (t.name + 0x30) 1 = n - 1 ∧
         ∀ j, j < 3 → u.homeValue (t.name + 16 * j) 16 =
           if j < k then s2.homeValue (t.name + 16 * j) 16
           else if j < 2 then s2.homeValue (t.name + 16 * (j + 1)) 16 else 0)))

/-- R296: what the home of a sync object does: an exclusive request finds a free object and holds it; requests behind
a holder wait in their order; a release hands the object to the request at the head; a current holder's request, and a
release by a hart that holds nothing, change nothing. R441: a request that finds every entry of the slice in use waits
there, and takes the entry that a release frees; a STRY that finds them all in use is not granted. R296, R441: a
request that a hart of the core has sent reaches the object's home, where it joins the queue; a request of another
core joins as it comes. -/
def Obligations.Directory : Prop :=
  ((∀ (p : Party) (pa : Nat) (s : State), s.dirEntry pa = none → s.entryRoom pa = true →
     (s.acquireArrives p true pa).dirEntry pa = some { pa := pa, excl := true, holders := [p], ovf := false, waiters := [] }) ∧
   (∀ (p : Party) (x : Bool) (pa : Nat) (e : DirEntry) (s : State), s.dirEntry pa = some e → p ∉ e.holders →
     e.excl = true → e.holders ≠ [] →
     (s.acquireArrives p x pa).dirEntry pa = some { e with waiters := e.waiters ++ [{ who := p, excl := x }] }) ∧
   (∀ (p : Party) (x : Bool) (pa : Nat) (e : DirEntry) (s : State), s.dirEntry pa = some e → p ∈ e.holders →
     (s.acquireArrives p x pa).dir = s.dir) ∧
   (∀ (p q : Party) (ws : List Waiter) (pa : Nat) (e : DirEntry) (s : State), s.dirEntry pa = some e → e.holders = [p] →
     e.ovf = false → e.waiters = { who := q, excl := true } :: ws → (∀ x ∈ s.dir.held, x.pa ≠ pa) →
     (s.releaseAtHome p pa).1 = true ∧
     (s.releaseAtHome p pa).2.dirEntry pa = some { e with excl := true, holders := [q], waiters := ws }) ∧
   (∀ (p : Party) (pa : Nat) (e : DirEntry) (s : State), s.dirEntry pa = some e → p ∉ e.holders → e.ovf = false →
     s.releaseAtHome p pa = (true, s)) ∧
   (∀ (p : Party) (pa : Nat) (e : DirEntry) (s : State), s.dirEntry pa = some e →
     s.tryAtHome p pa = (decide (p ∈ e.holders), s)) ∧
   (∀ (p : Party) (x : Bool) (pa : Nat) (s : State), s.entryRoom pa = false →
     s.acquireArrives p x pa = { s with dir := { s.dir with held := s.dir.held ++ [{ pa := pa, who := p, excl := x }] } } ∧
     s.tryAtHome p pa = (false, s)) ∧
   (∀ (p q : Party) (pa qa : Nat) (e : DirEntry) (s : State), s.dirEntry pa = some e → e.holders = [p] → e.ovf = false →
     e.waiters = [] → s.dir.held = [{ pa := qa, who := q, excl := true }] → s.slice qa = s.slice pa → qa ≠ pa →
     s.dirEntry qa = none → (s.entriesOf (s.slice pa)).length ≤ 4096 →
     (s.releaseAtHome p pa).2.dirEntry pa = none ∧ (s.releaseAtHome p pa).2.dir.held = [] ∧
     (s.releaseAtHome p pa).2.dirEntry qa =
       some { pa := qa, excl := true, holders := [q], ovf := false, waiters := [] })) ∧
  ((∀ (h : BitVec 1) (k : BitVec 2) (pa : Nat) (cid : BitVec 16) (r : SyncReq) (s : State), pa % 64 = 0 →
     s.homeError pa = none → (s.hart h).request cid pa false = some r → r.stage = .sent → r.kind = k →
     s.storeRoom pa = true →
     ∃ s1, s.OnlyHart h s1 ∧ s1.hart h = { s.hart h with
         sync := (s.hart h).sync.map (fun q => if q.of cid pa false then { q with stage := .queued } else q) } ∧
       exec (.syncRequestArrival k pa s.core.coreId h cid) s =
         .next (s1.acquireArrives { core := s.core.coreId, hart := h, cid := cid } (k == 0) pa)) ∧
   (∀ (h : BitVec 1) (pa : Nat) (c : BitVec 10) (cid : BitVec 16) (s : State), pa % 64 = 0 → s.homeError pa = none →
     c ≠ s.core.coreId →
     let p : Party := { core := c, hart := h, cid := cid }
     (s.storeRoom pa = true → s.waits p pa = false →
       exec (.syncRequestArrival 0 pa c h cid) s = .next (s.acquireArrives p true pa) ∧
       exec (.syncRequestArrival 1 pa c h cid) s = .next (s.acquireArrives p false pa)) ∧
     exec (.syncRequestArrival 2 pa c h cid) s = .next (s.tryAtHome p pa).2 ∧
     exec (.syncRequestArrival 3 pa c h cid) s = .next (s.releaseAtHome p pa).2))

/-- R297: an acquire whose hart has no request for the object sends one and sleeps; one whose request has been granted,
and the grant's arrival at a hart that sleeps in it, self-invalidate in the object's ranges and complete. R296, R297,
R331: STRY writes 1 when its hart holds the object or the object is free and its slice has room, and then the core has
self-invalidated in the object's ranges (by a current holder too, which is the model's choice, log entry 119); otherwise
it writes 0 and changes nothing else. -/
def Obligations.Acquires : Prop :=
  (∀ (h : BitVec 1) (a : BitVec 7) (s s1 : State) (t : Trans), s.Issues h [a] →
     ObjectAt s h ((s.hart h).reg a.toNat) t s1 →
     (∀ e ∈ [(Instr.sacq a, (0 : BitVec 2)), (Instr.sacqs a, 1)],
       ((s1.hart h).request s1.cid16 t.name false = none →
         Completes e.1 s (fun u => s1.OnlyHart h u ∧ (u.hart h) = { s1.hart h with
           run := .asleep (.sacq t.name)
           sync := (s1.hart h).sync ++
             [{ pa := t.name, va := (s.hart h).reg a.toNat, cid := s1.cid16, kind := e.2, stage := .sent }] })) ∧
       (∀ r s2, (s1.hart h).request s1.cid16 t.name false = some r → r.stage = .granted →
         s1.selfInvalidate (s1.ranges t.name) = .done s2 →
         Completes e.1 s (fun u => s2.OnlyHart h u ∧ (u.hart h).request s2.cid16 t.name false = none ∧
           (u.hart h).pc = (s.hart h).pc + 4 ∧ (u.hart h).run = .running ∧ (u.hart h).g = (s2.hart h).g))) ∧
     (∀ r s2, (s.hart h).run = .asleep (.sacq t.name) → (s.hart h).request s.cid16 t.name false = some r → r.stage = .granted →
       s.selfInvalidate (s.ranges t.name) = .done s2 →
       Completes (.syncGrant h) s (fun u => s2.OnlyHart h u ∧ (u.hart h).request s2.cid16 t.name false = none ∧
         (u.hart h).pc = (s.hart h).pc + 4 ∧ (u.hart h).run = .running ∧ (u.hart h).g = (s2.hart h).g))) ∧
  (∀ (h : BitVec 1) (d a : BitVec 7) (s s1 : State) (t : Trans), s.Issues h [d, a] →
     ObjectAt s h ((s.hart h).reg a.toNat) t s1 →
     let g := (∃ e, s1.dirEntry t.name = some e ∧ s1.party h ∈ e.holders) ∨
       (s1.dirEntry t.name = none ∧ s1.entryRoom t.name = true)
     (¬g → Completes (.stry d a) s (fun u => s1.OnlyHart h u ∧ (s1.hart h).Sent d.toNat 0 0 (u.hart h) ∧
       (s1.hart h).GoneOn ((s.hart h).pc + 4) false (u.hart h))) ∧
     (∀ s2, g → s1.selfInvalidate (s1.ranges t.name) = .done s2 →
       Completes (.stry d a) s (fun u => ((s2.tryAtHome (s2.party h) t.name).2).OnlyHart h u ∧
         (s2.hart h).Sent d.toNat 1 0 (u.hart h) ∧ (u.hart h).pc = (s.hart h).pc + 4 ∧
         ∃ e, u.dirEntry t.name = some e ∧ s2.party h ∈ e.holders)))

/-- R298: SREL, once earlier stores, those to scratch too (R308), and engines have ended and the dirty bytes of the object's
ranges are at their homes, notifies the home and completes. R306: a fence goes on when no earlier access of its kind
waits, and a hart that has nothing outstanding waits at no fence; a fence that must wait changes nothing. R308: at scope
core or wider for stores, and with any layer, the hart's posted scratch stores reach their banks first. R306, R440: a
fence to layer memory has the slices write back what they hold of the hart's stores (log entry 141), and goes on when
no overflow buffer keeps any of it. -/
def Obligations.ReleasesAndFences : Prop :=
  (∀ (h : BitVec 1) (a : BitVec 7) (s s1 s2 s3 : State) (t : Trans), s.Issues h [a] →
     ObjectAt s h ((s.hart h).reg a.toNat) t s1 → (s1.hart h).request s1.cid16 t.name true = none →
     s1.releaseRanges h (s1.ranges t.name) = .done s2 → s2.releaseAtHome (s2.party h) t.name = (true, s3) →
     s1.storesPending h = false ∧ s1.arrayPending h ArrOp.stores = false ∧
       s1.enginesOver h (s1.ranges t.name) = false ∧
       (∃ s0, s1.settleStores h = some s0 ∧ s0.releaseLines (s1.ranges t.name) = .done s2) ∧
     Completes (.srel a) s (fun u => s3.OnlyHart h u ∧ (u.hart h).pc = (s.hart h).pc + 4 ∧ (u.hart h).run = .running ∧
       (u.hart h).g = (s3.hart h).g ∧ u.dir = s3.dir)) ∧
  (∀ (h : BitVec 1) (sc : BitVec 3) (l k : BitVec 2) (s : State), s.cur = .hart h →
     let banks := l ≠ 0 ∨ (sc ≠ 0 ∧ k.toNat ≤ 1)
     let ready (s0 : State) : Prop := (banks → s.settleStores h = some s0) ∧ (¬banks → s0 = s)
     (s.fenceWaits h sc.toNat l.toNat k.toNat = false →
       (∀ s0, ready s0 → l ≠ 3 → Completes (.fence sc l k) s (s0.Passed h)) ∧
       (∀ s0 s1, ready s0 → l = 3 → s0.llcCleanOf h = some s1 →
         (s1.heldOf h = false → Completes (.fence sc l k) s (s1.Passed h)) ∧
         (s1.heldOf h = true → exec (.fence sc l k) s = .next s1)) ∧
       (banks → s.settleStores h = none → exec (.fence sc l k) s = .next s)) ∧
     (s.fenceWaits h sc.toNat l.toNat k.toNat = true → exec (.fence sc l k) s = .next s) ∧
     (s.home.posted = [] → s.home.vstr = [] → s.core.queue = [] → s.copy.slots = [] → s.stream.slots = [] →
       s.net.entries = [] → s.net.flight = [] → s.fenceWaits h sc.toNat l.toNat k.toNat = false) ∧
     ((s.hart h).stores = [] → ready s))

/-- R333: WAITA asks for a monitor on its word at the home and sleeps; a match writes 1 and a time-out writes 0. A
monitor that has come free goes to a request that waits for one. R333, R334: WAITV, when every word before it has run,
has its elements placed and the core's copies written back, and the homes compare: it sleeps on them; with no used
element it goes on at once. A match that is enough, or the time-out, writes to each used element whether it has
matched, clears START, and the hart goes on. Whether another core's request leaves a monitor free is a free value (log
entry 134). -/
def Obligations.Waits : Prop :=
  ((∀ (h : BitVec 1) (d a b : BitVec 7) (s s1 s2 s3 : State) (t : Trans) (v : Nat), s.Issues h [d, a, b] →
     s.Reaches h .read ((s.hart h).reg a.toNat) 8 false t s1 → t.mmio = false → s1.arrayTouches 0 t.name 8 = false →
     s1.postedOver h t.name 8 = false → (if t.ms then some s1 else s1.cleanSector t.name) = some s2 →
     s2.homeRead h.toNat s2.cid16.toNat t.name 8 (if t.ms then Via.memory else Via.slice true 0) = (some v, s3) →
     let armed := s3.monitorFree s3.home.monitors (s3.monitorUnit t.name t.ms)
     v = s2.homeValue t.name 8 ∧
     Completes (.waita d a b) s (fun u => u.home = { s3.home with
         monitors := s3.home.monitors ++ [{ hart := h, elem := 0, name := t.name, ms := t.ms, armed := armed }] } ∧
       u.hart (other h) = s3.hart (other h) ∧ s3.CoreKept u ∧ u.cache = s3.cache ∧
       u.hart h = { s3.hart h with run := .asleep (.waita d t.name ((s.hart h).reg b.toNat) s3.ctr.cycle.toNat
         (armed && decide (BitVec.ofNat 64 v = (s.hart h).reg b.toNat))) })) ∧
   (∀ (h : BitVec 1) (d : BitVec 7) (pa since : Nat) (v : Word) (s : State),
     let ends (i : Instr) (x : Word) : Prop := Completes i s (fun t => (s.dropMonitors h).OnlyHart h t ∧
       (s.hart h).GoneOn ((s.hart h).pc + 4) false (t.hart h) ∧ (s.hart h).Wrote d.toNat x (t.hart h))
     ((s.hart h).run = .asleep (.waita d pa v since true) → ends (.monitorMatchReply h) 1) ∧
     ((s.hart h).run = .asleep (.waita d pa v since false) →
       ((s.hart h).csr.waitto ≠ 0 → since + (s.hart h).csr.waitto.toNat ≤ s.ctr.cycle.toNat → ends (.waitaTimeout h) 0) ∧
       (∀ (k : Nat) (m : Monitor), s.home.monitors[k]? = some m → m.armed = false → (s.homeError m.name).isNone = true →
         s.monitorFree (s.home.monitors.take k) (s.monitorUnit m.name m.ms) = true →
         Completes (.monitorMatchReply h) s (fun t => s.HartsKept t ∧ s.CoreKept t ∧ t.home.mem = s.home.mem ∧
           ∃ j n, s.home.monitors[j]? = some n ∧ n.armed = false ∧
             t.home.monitors = s.home.monitors.set j { n with armed := true })))) ) ∧
  ((∀ (h : BitVec 1) (d a b : BitVec 7) (k : BitVec 1) (x : Placed) (s s1 : State), s.Owns h 3 [] → s.hostPort = false →
     let w := aw .waitv d a b k 0 0
     let q := s.newEntry h w none s.core.shape (s.core.mtsel.truncate 32) 0 0 0
     w.check (s.hart h).fmt.isSome (resolve .waitv none s.core.shape 0) 0 = none → s.core.queue = [] → s.core.mqueue = [] →
     s.placeWaits q = false → s.core.mqueue.any (fun t => scoreboardHolds t q) = false →
     s.place h q (s.ctx q) = (x, s1) → x.wait = false → x.fault = none → s1.placedLocked q x = false →
     (∀ a ∈ x.addrs, s1.postedOver h a.name 4 = false ∧ s1.vstrOver a.name 4 = false) →
     (x.addrs = [] → Completes (.waitv d a b k) s
       ((({ s1 with core := { s1.core with shape := wset s1.core.shape 25 18 0 } }).dropMonitors h).Passed h)) ∧
     (∀ s2 s3 ws, x.addrs ≠ [] → s1.cleanAll x.addrs = some s2 →
       s2.compareAll q x.addrs (watches q (s.ctx q) s2.core.sram x.addrs) = (ws, s3) →
       Completes (.waitv d a b k) s (fun t => s3.OnlyHart h t ∧
         t.hart h = { s3.hart h with run := .asleep (.waitv d (k == 1) ws s3.ctr.cycle.toNat) }))) ∧
   (∀ (h : BitVec 1) (d : BitVec 7) (all : Bool) (els : List Watch) (since : Nat) (s : State),
     (s.hart h).run = .asleep (.waitv d all els since) → (s.hart h).mb = false →
     els.Pairwise (fun a b => a.elem < b.elem) → (∀ e ∈ els, e.elem < 64) →
     let way := (waysOf s.core.wayrole (wf s.core.shape 23 2)).getD 0 0
     let written (t : State) : Prop := (∀ e ∈ els, columnBits t.core.sram way e.elem (4 * d.toNat) 4 = if e.matched then 1 else 0) ∧
       (∀ v row col, v < 32 → row < 512 → col < 4096 →
         ¬(v = way ∧ 4 * d.toNat ≤ row ∧ row < 4 * d.toNat + 4 ∧ ∃ e ∈ els, e.elem = col) →
         rowBit t.core.sram v row col = rowBit s.core.sram v row col) ∧
       wf t.core.shape 25 18 = 0 ∧ wf t.core.shape 0 25 = wf s.core.shape 0 25 ∧
       ({ s.dropMonitors h with core := t.core }).OnlyHart h t ∧ (s.hart h).GoneOn ((s.hart h).pc + 4) false (t.hart h) ∧
       (t.hart h).g = (s.hart h).g
     ((if all then ∀ e ∈ els, e.matched = true else ∃ e ∈ els, e.matched = true) →
       Completes (.monitorMatchReply h) s written) ∧
     (¬(if all then ∀ e ∈ els, e.matched = true else ∃ e ∈ els, e.matched = true) →
       exec (.monitorMatchReply h) s = .next (s.armNext.getD s) ∧
       ((s.hart h).csr.waitto ≠ 0 → since + (s.hart h).csr.waitto.toNat ≤ s.ctr.cycle.toNat →
         Completes (.waitvTimeout h) s written))))

/-- R137, R147: CSRR reads a CSR that exists, at a level that may read it, and writes its value to gd. R143: a read of
the other hart's FLAGS waits for the words that it had issued before, and for no later one. R94, R137, R143, R147:
CSRW, CSRS and CSRC, at a level that may write the CSR and with the ownership that it asks for, write ga, the old
value OR ga and the old value AND NOT ga; gd receives the old value. R138, R141, R142: what a CSR of Table 06-2 reads
as after a write: its own fields of the value written; the fields that are reserved or read-only are kept. -/
def Obligations.CsrAccess : Prop :=
  (∀ (h : BitVec 1) (d : BitVec 7) (c : BitVec 10) (n : Nat) (w : Bool) (s : State), s.Issues h [d] →
     csrName c.toNat = some (n, w) → (s.hart h).pl ≤ (csrLevels n w).1 → s.csrWaits (if w then other h else h) n = false →
     WritesNow (.csrr d c) s h d (s.csrRead (if w then other h else h) n)) ∧
  (∀ (h : BitVec 1) (d : BitVec 7) (c : BitVec 10) (s : State), s.Issues h [d] → csrName c.toNat = some (0x010, true) →
     (s.hart h).pl ≤ (csrLevels 0x010 true).1 →
     (∀ seq, (s.hart h).waits = some (.flags seq) → s.awaitsFlags h seq = false →
       WritesNow (.csrr d c) s h d (s.csrRead (other h) 0x010)) ∧
     ((∀ seq, (s.hart h).waits ≠ some (.flags seq)) → s.flagsPending (other h) = true →
       exec (.csrr d c) s = .next (s.markFlags h))) ∧
  (∀ (h : BitVec 1) (d a : BitVec 7) (c : BitVec 10) (n l : Nat) (w : Bool) (s : State), s.Issues h [d, a] →
     csrName c.toNat = some (n, w) → n ≠ 0x019 → (csrLevels n w).2 = some l → (s.hart h).pl ≤ l →
     ((s.hart h).mb = true → ownerCsr n = false) → (w = true → (s.hart (other h)).stopped = true) →
     (ownerCsr n = true → s.mayOwn h n = true) → s.csrWaits (if w then other h else h) n = false →
     let k := if w then other h else h
     let old := s.csrRead k n
     let x := (s.hart h).reg a.toNat
     ∀ e ∈ [(Instr.csrw d a c, x), (Instr.csrs d a c, old ||| x), (Instr.csrc d a c, old &&& ~~~x)],
       Completes e.1 s (fun t =>
         (∀ r, (t.hart h).reg r = if r = 0 then 0 else if r = d.toNat then old else (s.hart h).reg r) ∧
         (t.hart h).pc = (s.hart h).pc + 4 ∧ ∃ s1, s.OnlyHart h s1 ∧ s1.hart (other h) = s.hart (other h) ∧
           (s1.hart h).csr = { (s.hart h).csr with pcnt := (s1.hart h).csr.pcnt } ∧
           (∀ m, t.csrRead k m = (s1.csrWrite k n e.2 (s.hart h).pl).csrRead k m) ∧ t.home = s.home ∧ t.cache = s.cache)) ∧
  (∀ (h : BitVec 1) (v : Word) (l : Nat) (s : State),
     (∀ e ∈ [(0x001, v &&& 0xFFFF), (0x002, v &&& ~~~3), (0x003, v), (0x005, v), (0x006, v), (0x007, v &&& ~~~3), (0x008, v),
         (0x009, v &&& 0x3FFFFFF), (0x00A, v &&& 0x7F), (0x010, v &&& 0x3F), (0x014, v &&& 0xFF), (0x015, v), (0x016, v),
         (0x017, v &&& 0x7F), (0x018, v &&& 0xFFFFFFFF), (0x01D, v &&& 0xFFFFFFFF), (0x023, v &&& 0xFFFF),
         (0x024, v &&& 0xFFFFFFFFF000), (0x025, v &&& 0x3F), (0x027, v &&& 0xFFFF), (0x028, v), (0x02C, v),
         (0x040, v &&& 0x1FF), (0x044, v &&& 0x1FF), (0x048, v), (0x04C, v)],
       (s.csrWrite h e.1 v l).csrRead h e.1 = e.2) ∧
     (v.toNat % 8 < 6 → (s.csrWrite h 0x011 v l).csrRead h 0x011 = v &&& 7) ∧
     (6 ≤ v.toNat % 8 → (s.csrWrite h 0x011 v l).csrRead h 0x011 = s.csrRead h 0x011) ∧
     wf ((s.csrWrite h 0x000 v l).csrRead h 0x000) 0 2 = (s.hart h).pl ∧
     wf ((s.csrWrite h 0x000 v l).csrRead h 0x000) 4 3 = wf v 4 3 ∧
     wf ((s.csrWrite h 0x000 v l).csrRead h 0x000) 7 57 = wf (s.csrRead h 0x000) 7 57 ∧
     (wf v 2 2 = 3 → wf ((s.csrWrite h 0x000 v l).csrRead h 0x000) 2 2 = (s.hart h).ppl))

/-- R144, Table 06-7: ECALL and EBREAK take their traps: that is all they do. R146: ERET takes PL and IE back from PPL and
PIE, sets PIE and sets PPL to 2, goes on at EPC, and re-applies the saved prefix; no general register and no other
field of STATUS changes. -/
def Obligations.TrapsAndReturn : Prop :=
  (∀ (h : BitVec 1) (s : State), s.cur = .hart h → TrapsWith .ecall s h 0x12 ∧ TrapsWith .ebreak s h 0x13) ∧
  (∀ (h : BitVec 1) (s : State), s.cur = .hart h → (s.hart h).pl ≤ 1 →
     Completes .eret s (fun t =>
       let x := s.hart h
       let y := t.hart h
       s.OnlyHart h t ∧ y.pl = x.ppl ∧ y.ieOn = x.pie ∧ y.pie = true ∧ y.ppl = 2 ∧ y.pp = false ∧
         wf y.csr.status 7 57 = wf x.csr.status 7 57 ∧ y.pc = x.csr.epc ∧
         y.fmt = (if x.pp then some { bits := x.csr.pfx.truncate 26, reapplied := true } else none) ∧
         y = { x with pc := y.pc, fmt := y.fmt, jumped := false, run := .running
                      csr := { x.csr with status := y.csr.status, pcnt := y.csr.pcnt } }))

/-- R71, R136, R137, R143: a word that only block images hold, a CSR that does not exist and a write of a read-only CSR
are illegal; a privileged word at a level too high, a CSR at a level too high and a write of the CSR of a hart that has
not stopped trap as 0x02; each at the instruction, with no other effect. R71, R74: a word that is no instruction traps as
0x01 at its own address, behind a jump past an FMT too (R81); a fetch that fails takes the fault that it met
before anything else. R77, R151: FMT by the hart that owns the array makes its fields the prefix of the next word;
before a word that it may not precede it traps as 0x09. -/
def Obligations.IllegalWords : Prop :=
  (∀ (h : BitVec 1) (d a b : BitVec 7) (c : BitVec 10) (x y : BitVec 3) (l : BitVec 1) (s : State), s.cur = .hart h →
     (∀ i ∈ [Instr.mstop, .mnext x, .mbr x y, .mlinkr x l, .mlinkw], TrapsWith i s h 0x01) ∧
     (csrName c.toNat = none → ∀ i ∈ [Instr.csrr d c, .csrw d a c, .csrs d a c, .csrc d a c], TrapsWith i s h 0x01) ∧
     (1 < (s.hart h).pl → TrapsWith .eret s h 0x02 ∧ TrapsWith .switch s h 0x02) ∧
     (1 < (s.hart h).pl → s.Issues h [d, a, b] →
       ∀ i ∈ [Instr.tlbinv a b, .xprobe d a, .nint a b, .scfg d a b], TrapsWith i s h 0x02) ∧
     (1 < (s.hart h).pl → (s.hart h).mb = false → ∀ i ∈ [Instr.ainval a b, .arole d a b], TrapsWith i s h 0x02) ∧
     (0 < (s.hart h).pl → TrapsWith .halt s h 0x02) ∧
     (∀ n w, csrName c.toNat = some (n, w) →
       ((csrLevels n w).1 < (s.hart h).pl → TrapsWith (.csrr d c) s h 0x02) ∧
       ∀ i ∈ [Instr.csrw d a c, .csrs d a c, .csrc d a c],
         ((csrLevels n w).2 = none → TrapsWith i s h 0x01) ∧
         (∀ l, (csrLevels n w).2 = some l → ((s.hart h).mb = true → ownerCsr n = false) →
           l < (s.hart h).pl ∨ (w = true ∧ (s.hart (other h)).stopped = false) → TrapsWith i s h 0x02))) ∧
  ((∀ (h : BitVec 1) (w : BitVec 32) (s s1 : State), s.cur = .hart h → (s.hart h).issues = true → assigned w = false →
     bits w.toNat 26 6 ≠ 0x1A → s.meet h = .word w s1 ∨ s.meet h = .skipped w s1 →
     Completes (.illegalInstruction w) s (fun t => ({ s1 with cur := .hart h }).OnlyHart h t ∧
       (s1.hart h).Entered 0x01 0 (t.hart h))) ∧
   (∀ (h : BitVec 1) (c : Nat) (s s1 : State), s.cur = .hart h → (s.hart h).issues = true → s.meet h = .fault c s1 →
     exec .instructionFetchFault s = s1.hartFault h c (s.hart h).pc 0 false 2 0 0 1 ∧
     ∃ t, exec .instructionFetchFault s = .next t)) ∧
  (∀ (h : BitVec 1) (t u v : BitVec 5) (r : BitVec 3) (sat : BitVec 1) (c : BitVec 2) (s : State), s.cur = .hart h →
     s.hostPort = false →
     let p : BitVec 26 := t ++ u ++ v ++ r ++ sat ++ c ++ (0 : BitVec 5)
     ((∀ w, s.peekAt h ((s.hart h).pc + 4) = some w → misused p w = false) → (s.hart h).ao = true →
       Completes (.fmt t u v r sat c) s (fun q => s.OnlyHart h q ∧
         q.hart h = { s.hart h with
           pc := (s.hart h).pc + 4, fmt := some { bits := p, reapplied := false }, jumped := false, run := .running
           waits := none, stalled := none
           csr := { (s.hart h).csr with pcnt := (q.hart h).csr.pcnt } })) ∧
     (∀ w, s.peekAt h ((s.hart h).pc + 4) = some w → misused p w = true → TrapsWith (.fmt t u v r sat c) s h 0x09))

/-- R94, R95, R149, R150: SLEEP sleeps unless an enabled interrupt waits; HALT halts at level 0; AOWN passes array
ownership to the other hart; ICINV, once the hart's stores are performed (R149), empties the core's instruction cache.
R101, R150: SWITCH resumes the other hart when it is parked and this hart is marked as its server, at its EPC and with
its prefix; it ends the other hart's SLEEP; it goes on in every case. R150: an enabled interrupt ends a SLEEP that
cannot take it (that one does so with IE 0 too is the model's choice, log entry 41). -/
def Obligations.HartStates : Prop :=
  (∀ (h : BitVec 1) (s : State), s.cur = .hart h →
     (s.wakes h = true → OnlyAdvances .sleep s h) ∧
     (s.wakes h = false → Completes .sleep s (fun t => s.OnlyHart h t ∧ t.hart h = { s.hart h with run := .asleep .sleep })) ∧
     ((s.hart h).pl = 0 → Completes .halt s (fun t => s.OnlyHart h t ∧ t.hart h = { s.hart h with run := .halted })) ∧
     ((s.hart h).ao = true → (s.hart h).mb = false → Completes .aown s (fun t =>
       (t.hart h).ao = false ∧ (t.hart (other h)).ao = true ∧ (t.hart h).pc = (s.hart h).pc + 4 ∧
       (∀ k, (t.hart k).g = (s.hart k).g) ∧ t.home = s.home ∧ t.cache = s.cache ∧ s.CoreKept t ∧
       (∀ k, wf (t.hart k).csr.status 0 7 = wf (s.hart k).csr.status 0 7 ∧
         wf (t.hart k).csr.status 8 56 = wf (s.hart k).csr.status 8 56))) ∧
     (s.storing h = true → exec .icinv s = .next s) ∧
     (s.storing h = false → Completes .icinv s (fun t => t.mmu.icache = [] ∧
       ({ s with mmu := { s.mmu with icache := [] } }).OnlyHart h t ∧
       (s.hart h).GoneOn ((s.hart h).pc + 4) false (t.hart h) ∧ (t.hart h).g = (s.hart h).g))) ∧
  (∀ (h : BitVec 1) (s : State), s.cur = .hart h → (s.hart h).pl ≤ 1 →
     let o := s.hart (other h)
     Completes .switch s (fun t => (t.hart h).pc = (s.hart h).pc + 4 ∧ (t.hart h).g = (s.hart h).g ∧ t.home = s.home ∧
       t.cache = s.cache ∧ s.CoreKept t ∧
       (o.run = .parked none → (s.hart h).parkedPeer = true →
         (t.hart (other h)).run = .running ∧ (t.hart (other h)).pc = o.csr.epc ∧ (t.hart (other h)).pp = false ∧
         (t.hart (other h)).g = o.g ∧ (t.hart h).parkedPeer = false ∧
         (t.hart (other h)).fmt = if o.pp then some { bits := o.csr.pfx.truncate 26, reapplied := true } else none) ∧
       (o.run = .asleep .sleep → (t.hart (other h)).run = .running ∧ (t.hart (other h)).pc = o.pc + 4 ∧
         (t.hart (other h)).g = o.g) ∧
       ((∀ r, o.run ≠ .parked r) → o.run ≠ .asleep .sleep → t.hart (other h) = o))) ∧
  (∀ (h : BitVec 1) (s : State), (s.hart h).run = .asleep .sleep → s.wakes h = true →
     ((s.hart h).ieOn = false ∨ (s.hart h).mb = true) → OnlyAdvances (.sleepWake h) s h)

/-- R142: the interrupts and asynchronous traps: the step of each takes it when it is the one that the hart is to take at
this boundary: EPC is the next instruction not yet issued, and the cause is its own. R142: no interrupt and no
asynchronous trap is taken while STATUS.IE is 0 or the hart is parked or halted, and an interrupt that is not enabled
in IE is not taken. -/
def Obligations.AsyncTraps : Prop :=
  (∀ (h : BitVec 1) (s : State),
     ∀ e ∈ [(Instr.peerFaultInterrupt h, Async.peerFault, 0x24), (.managementInterrupt h, .management, 0x26),
         (.arrayParityTrap h, .parity, 0x14), (.busErrorTrap h, .busError, 0x11), (.streamFaultTrap h, .streamFault, 0x15),
         (.directoryOverflowTrap h, .dirOverflow, 0x0F), (.microThreadFaultTrap h, .mtFault, 0x0E),
         (.meshInterrupt h, .mesh, 0x20), (.faultQueueNonEmpty h, .faultQueue, 0x23), (.cycleCompare h, .cycleCompare, 0x21),
         (.mailboxInterrupt h, .mailbox, 0x22), (.microThreadSummary h, .mtSummary, 0x25)],
       (s.asyncNext h false = some e.2.1 → Completes e.1 s (fun t =>
         (t.hart h).csr.epc = (s.hart h).pc ∧ (t.hart h).csr.cause.toNat % 256 = e.2.2 ∧ (t.hart h).ppl = (s.hart h).pl ∧
         (t.hart h).pie = true ∧ (t.hart h).ieOn = false ∧ (t.hart h).pl = enteredLevel e.2.2 (s.hart h).pl ∧
         (t.hart h).run = .running ∧ (t.hart h).g = (s.hart h).g ∧ t.hart (other h) = s.hart (other h) ∧
         t.home = { s.home with monitors := t.home.monitors } ∧ t.cache = s.cache)) ∧
       (s.asyncNext h false ≠ some e.2.1 → exec e.1 s = .next s)) ∧
  (∀ (h : BitVec 1) (b : Bool) (s : State),
     ((s.hart h).ieOn = false → s.asyncNext h b = none) ∧ ((s.hart h).stopped = true → s.asyncNext h b = none) ∧
     (∀ a k, s.asyncNext h b = some a → a.ipBit = some k → bit (s.hart h).csr.ie.toNat k = true ∧ s.ipHolds h k = true))

/-- R402: TLBINV removes the TLB entries that Table 17-4 names: with ga = 0 those of the CID in gb (match-all entries
apart), or all of them when gb[16] is 1; it keeps every other entry, no fabric keeps a matching one, and it changes no
register and no memory. R403: it waits while an access translated through an entry that it removes is still to be
performed. R404: XPROBE writes what the translation of ga comes to, once its walk is over, and never faults. R394, R398, R399: a walk of the
miss table that finds a leaf fills the TLB with it and ends the wait of every lookup that the entry answers; it covers
the address, so that the next access needs no walk, and keeps the offset within the 4 KiB page of every address that
it covers; a walk that finds none leaves what it found for its lookup, and fills nothing. -/
def Obligations.TlbWords : Prop :=
  (∀ (h : BitVec 1) (a b : BitVec 7) (s : State), s.Issues h [a, b] → (s.hart h).pl ≤ 1 →
     let x := (s.hart h).reg a.toNat
     let y := (s.hart h).reg b.toNat
     let gone (e : TlbEntry) : Bool := tlbMatch x y e.page e.size e.cid e.all
     (s.usesEntry (s.mmu.tlb.filter gone) = true → exec (.tlbinv a b) s = .next s) ∧
     (s.usesEntry (s.mmu.tlb.filter gone) = false → Completes (.tlbinv a b) s (fun t =>
       (s.invalidate x y).OnlyHart h t ∧ (s.hart h).GoneOn ((s.hart h).pc + 4) false (t.hart h) ∧
       s.HartsKept t ∧ s.CoreKept t ∧ t.home = s.home ∧ t.cache = s.cache ∧ t.mmu.queue = s.mmu.queue ∧
       t.mmu.misses = s.mmu.misses ∧ (∀ f ∈ t.stream.tlbs, ∀ e ∈ f.2, gone e = false) ∧
       (x = 0 → ∀ e, e ∈ t.mmu.tlb ↔ e ∈ s.mmu.tlb ∧
         ¬(bit y.toNat 16 = true ∨ (e.cid.toNat = y.toNat % 2 ^ 16 ∧ e.all = false))) ∧
       (x ≠ 0 → canonical x = true → 4096 ≤ x.toNat → ∀ e, e ∈ t.mmu.tlb ↔ e ∈ s.mmu.tlb ∧
         ¬(e.page ≤ x.toNat / 4096 * 4096 ∧ x.toNat / 4096 * 4096 < e.page + 2 ^ e.size ∧
           (bit y.toNat 16 = true ∨ e.cid.toNat = y.toNat % 2 ^ 16 ∨ e.all = true)))))) ∧
  (∀ (h : BitVec 1) (d a : BitVec 7) (s s1 : State) (r : TransResult), s.Issues h [d, a] → (s.hart h).pl ≤ 1 →
     s.probe h ((s.hart h).reg a.toNat) = (r, s1) →
     (r = .wait → exec (.xprobe d a) s = .next s1) ∧
     (r ≠ .wait → Completes (.xprobe d a) s (fun t => s1.OnlyHart h t ∧
       (s1.hart h).GoneOn ((s.hart h).pc + 4) false (t.hart h) ∧ (s1.hart h).Sent d.toNat (probeWord r) 0 (t.hart h))) ∧
     (canonical ((s.hart h).reg a.toNat) = false ∨
       s.mmu.tlb.any (fun e => e.covers ((s.hart h).reg a.toNat).toNat s.cid16) = true → r ≠ .wait) ∧
     (∀ c n, r = .fault c n → bit (probeWord r).toNat 63 = true ∧ wf (probeWord r) 0 8 = c % 256)) ∧
  (∀ (va : Word) (m : Miss) (s : State), s.walks.find? (fun m => m.page == va.toNat / 4096) = some m →
     (∀ e s1, s.walk m.ptbase m.cid (4096 * m.page) m.acc = (.ok e, s1) →
       Completes (.walkComplete va) s (fun t => t.mmu.tlb.head? = some e ∧ e.covers va.toNat m.cid = true ∧
         (∀ b, e.covers b m.cid = true → (e.trans b).name % 4096 = b % 4096) ∧
         (∀ x ∈ t.mmu.misses, x ∈ s.mmu.misses ∧ e.covers (4096 * x.page) x.cid = false) ∧
         s.HartsKept t ∧ s.CoreKept t ∧ t.home.mem = s.home.mem)) ∧
     (∀ c n s1, s.walk m.ptbase m.cid (4096 * m.page) m.acc = (.error (c, n), s1) →
       Completes (.walkComplete va) s (fun t => t = { s1 with mmu := { s1.mmu with misses := t.mmu.misses } } ∧
         (∃ w, w.cause = c ∧ w.level = n ∧ { m with ended := some w } ∈ t.mmu.misses) ∧ t.mmu.tlb = s.mmu.tlb ∧
         t.mmu.misses.length = s.mmu.misses.length ∧ s.HartsKept t ∧ s.CoreKept t ∧ t.home.mem = s.home.mem)))

/-- R392 to R398: translation: an address that is not canonical is a page fault; a TLB entry that covers the address
answers, under the permissions of Table 17-3; it changes no register, no memory and no cached copy, whatever it
answers. R399: a lookup that misses waits, and takes an entry of the miss table where none serves it and there is
room. -/
def Obligations.Translation : Prop :=
  ∀ (h : BitVec 1) (acc : Acc) (va : Word) (s : State),
    (canonical va = false → s.translate h acc va = (.fault acc.pageFault 3, s)) ∧
    (∀ e, canonical va = true → s.mmu.tlb.find? (fun e => e.covers va.toNat s.cid16) = some e →
      s.translate h acc va =
        if permits e.leaf acc (s.hart h).pl then (.ok (e.trans va.toNat), s) else (.fault acc.pageFault 0, s)) ∧
    (canonical va = true → s.mmu.tlb.find? (fun e => e.covers va.toNat s.cid16) = none →
      let serves (m : Miss) : Bool := m.page == va.toNat / 4096 && m.cid == s.cid16 && m.acc == acc
      (s.mmu.misses.any serves = true → (∀ m ∈ s.mmu.misses, serves m = true → m.ended = none) →
        s.translate h acc va = (.wait, s)) ∧
      (s.mmu.misses.any serves = false → s.mmu.misses.length < Config.missEntries →
        (s.translate h acc va).1 = .wait ∧ (s.translate h acc va).2.mmu = { s.mmu with misses := s.mmu.misses ++
          [{ page := va.toNat / 4096, ptbase := s.core.ptbase, cid := s.cid16, acc := acc, ended := none }] })) ∧
    s.HartsKept (s.translate h acc va).2 ∧ s.CoreKept (s.translate h acc va).2 ∧
    (s.translate h acc va).2.home.mem = s.home.mem ∧ (s.translate h acc va).2.cache = s.cache

/-- R74, R94, R170, R171, R232: an array word that touches no memory, in the hart that owns the array and outside a block,
takes its place at the tail of the array issue queue with its scalar operands; inside an open block every array word
is collected; a word that fails its operand checks traps at the word, and a hart that does not own the array traps as
0x0A. -/
def Obligations.ArrayIssue : Prop :=
  ∀ (h : BitVec 1) (d a b : BitVec 7) (k j : BitVec 1) (p : BitVec 2) (s : State), s.cur = .hart h → s.hostPort = false →
    ∀ e ∈ arrayTable d a b k j p ++ arrayMemTable d a b p,
      let x := s.hart h
      (x.ao = true → s.wordCheck h e.2 = none → x.mb = false → (∀ r ∈ e.2.scalars, x.isPending r.toNat = false) →
        x.isPending e.2.scalarDest = false → s.core.queue.length < Config.arrayQueueEntries → e.2.op.space = none →
        Completes e.1 s (s.Queued h (s.entryOf h e.2) (wset s.core.shape 25 18 0) e.2.scalarDest)) ∧
      (x.ao = true → s.wordCheck h e.2 = none → x.mb = true → s.core.block.length < 32 →
        Completes e.1 s (fun t =>
          ({ s with core := { s.core with
              block := s.core.block ++ [({ w := e.2, fmt := (s.hart h).fmt.map Prefix.bits } : Collected)] } }).OnlyHart h t ∧
          x.GoneOn (x.pc + 4) false (t.hart h) ∧ (t.hart h).g = x.g ∧ (t.hart h).pending = x.pending)) ∧
      (∀ c, x.ao = true → s.wordCheck h e.2 = some c → x.mb = false → TrapsWith e.1 s h c) ∧
      (x.ao = false → s.wordCheck h e.2 ≠ some 0x01 → TrapsWith e.1 s h 0x0A)

/-- R30, R315, R323 to R325: the translation phase takes the active elements in ascending order, element e at the base plus
its index, e times the stride or e times the size; in global memory an element that is aligned and has a translation
that allows the access is placed there; the first that is misaligned (0x03), is not canonical or is not allowed (the
page fault of the access) is the word's fault, with the elements below it placed. R327: VLDFF is cut off at such an
element, but for the first. R326: an element of local scratch or layer space is placed where its extent holds it; one
that does not fit is 0x07. R170, R324: a memory word that is placed takes its place in the queue, behind its hart's
scratch stores where it works there (R308); one that faults queues the elements below the fault, names its element in
SHAPE.START and in the fault CSRs, and its hart takes the fault. -/
def Obligations.ArrayMemoryIssue : Prop :=
  (∀ (h : BitVec 1) (d a b : BitVec 7) (p : BitVec 2) (s s0 : State), s.cur = .hart h →
    s.hostPort = false → (s.hart h).ao = true → (s.hart h).mb = false →
    ∀ e ∈ arrayMemTable d a b p, s.wordCheck h e.2 = none →
      (∀ r ∈ e.2.scalars, (s.hart h).isPending r.toNat = false) → s.core.queue.length < Config.arrayQueueEntries →
      (if e.2.op.space = some 0 then some s else s.settleStores h) = some s0 →
      (∀ q sh s1, s0.prepare h (s0.entryOf h e.2) = .ok q sh s1 → Completes e.1 s (s1.Queued h q sh 0)) ∧
      (∀ c k va q s1, s0.prepare h (s0.entryOf h e.2) = .fault c k va q s1 → s.mgmt.fmode.getLsbD 0 = false → k < 2 ^ 18 →
        c < 256 → Completes e.1 s (fun t =>
          (t.hart h).csr.faddr = va ∧ (t.hart h).csr.epc = (s.hart h).pc ∧ (t.hart h).csr.cause = BitVec.ofNat 64 c ∧
          (t.hart h).csr.fstride = q.stride ∧ (t.hart h).csr.fremain = BitVec.ofNat 64 (wf q.shape 0 18 - k) ∧
          wf (t.hart h).csr.finfo 0 18 = k ∧ wf (t.hart h).csr.finfo 20 5 = q.kind ∧ (t.hart h).g = (s.hart h).g ∧
          (e.2.op.space = some 0 → wf t.core.shape 25 18 = k ∧ wf t.core.shape 0 25 = wf q.shape 0 25 ∧
            t.core.queue = s.core.queue ++ if q.addrs = [] then [] else [{ q with seq := s1.core.nextSeq }]) ∧
          (e.2.op.space ≠ some 0 → t.core.shape = s.core.shape ∧ t.core.queue = s.core.queue)))) ∧
  (∀ (h : BitVec 1) (q : QEntry) (s : State), q.w.op ∈ [ArrOp.vldl, .vstl, .vldy, .vsty, .vldys, .vstys] →
    let layer := q.w.op.space == some 2
    let n := width q.memType / 8
    let c := s.ctx q
    let at_ (e : Nat) : Nat := (q.elementAt c s.core.sram e).toNat
    let good (e : Nat) : Prop := at_ e % n = 0 ∧ at_ e + n ≤ s.extent layer
    let l := (List.range c.vl).filter (fun e => c.active s.core.sram e)
    8 ≤ width q.memType → s.placeWaits q = false →
    (∀ lo hi, s.interlocked (if layer then 2 else 1) lo hi q.w.op.stores = false) →
    ((∀ e ∈ l, good e) →
      ∃ r, s.prepare h q = .ok r (wset q.shape 25 18 0) s ∧ r = { q with addrs := r.addrs, steps := r.steps, skips := r.skips } ∧
        r.addrs.map (fun x => (x.elem, x.name, x.lo, x.n, x.shift)) = l.map (fun e => (e, at_ e, 0, 8 * n, 0))) ∧
    (∀ k ∈ l, (∀ e ∈ l, e < k → good e) → ¬good k →
      ∃ r, s.prepare h q = .fault (if at_ k % n = 0 then 0x07 else 0x03) k (q.elementAt c s.core.sram k) r s)) ∧
  (∀ (h : BitVec 1) (q : QEntry) (s : State), q.w.op ∈ [ArrOp.vld, .vst, .vldff, .vlds, .vsts, .vldx, .vstx] →
    let n := width q.memType / 8
    let c := s.ctx q
    let at_ (e : Nat) : Word := q.elementAt c s.core.sram e
    let acc := if q.w.op.stores then Acc.write else Acc.read
    let entry (e : Nat) : Option TlbEntry := s.mmu.tlb.find? (fun t => t.covers (at_ e).toNat s.cid16)
    let good (e : Nat) : Prop := (at_ e).toNat % n = 0 ∧ canonical (at_ e) = true ∧
      ∃ t, entry e = some t ∧ permits t.leaf acc (s.hart h).pl = true
    let l := (List.range c.vl).filter (fun e => c.active s.core.sram e)
    let placed (f : Nat → Prop) (as : List ElemAddr) : Prop :=
      (∀ e, e ∈ as.map (·.elem) ↔ e ∈ l ∧ f e) ∧ as.Pairwise (fun x y => x.elem < y.elem) ∧
      ∀ x ∈ as, x.va = at_ x.elem ∧ x.lo = 0 ∧ x.n = 8 * n ∧ x.shift = 0 ∧
        ∃ t, entry x.elem = some t ∧ x.name = (t.trans x.va.toNat).name ∧ x.ms = (t.trans x.va.toNat).ms ∧
          x.mmio = (t.trans x.va.toNat).mmio
    8 ≤ width q.memType → s.placeWaits q = false → (s.hart h).pages = [] →
    s.mmu.tlb.Pairwise (fun x y => ∀ va, ¬(x.covers va s.cid16 = true ∧ y.covers va s.cid16 = true)) →
    (∀ lo hi, s.interlocked 0 lo hi q.w.op.stores = false) →
    ((∀ e ∈ l, good e) → ∃ r s1, s.prepare h q = .ok r (wset q.shape 25 18 0) s1 ∧ placed (fun _ => True) r.addrs ∧
      s1 = s.setHart h { s.hart h with waits := (s1.hart h).waits }) ∧
    (∀ k ∈ l, (∀ e ∈ l, e < k → good e) →
      ((at_ k).toNat % n ≠ 0 ∨ canonical (at_ k) = false ∨ ∃ t, entry k = some t ∧ permits t.leaf acc (s.hart h).pl = false) →
      ∃ r s1, placed (· < k) r.addrs ∧ s1 = s.setHart h { s.hart h with waits := (s1.hart h).waits } ∧
        s.prepare h q = if q.w.op = .vldff ∧ l.head? ≠ some k then .ok r (wset (wset q.shape 25 18 0) 0 18 k) s1
          else .fault (if (at_ k).toNat % n = 0 then acc.pageFault else 0x03) k (at_ k) r s1))

/-- R28, R158, R168, R171, R184, R489: when an element-wise word begins, every active element of its destination becomes
the word's function of its sources, under the value that its column's generator holds; an inactive one becomes 0 under
p = 11 and keeps its value otherwise; the flags raised are those of the active elements; no other row, no register and
no memory changes. (The generators' step and which generator a column has are the model's choice, log entry 117.) -/
def Obligations.ArrayElementwise : Prop :=
  ∀ (k : Nat) (q : QEntry) (s : State), s.core.queue[k]? = some q → s.mayBegin k q = true → q.w.op ∈ elementOps →
    q.w.check q.fmt.isSome q.res q.scaleg = none →
    let c := s.ctx q
    let m := s.core.sram
    let g := c.dst
    let one := q.w.op == .vbool
    let x (e : Nat) : Nat := c.get m q.w.a.toNat (if one then 4 else width c.r.t1) e
    let y (e : Nat) : Nat := if q.w.op.twoSources then c.get m q.w.b.toNat (if one then 4 else width c.r.t2) e else 0
    let z (e : Nat) : Nat := c.get m g.1 (if one then 4 else width c.r.td) e
    let v (e : Nat) : Nat × BitVec 6 :=
      elemFn c (genValue s.core.gens (c.column e)) (if c.r.scale = 0 then none else some (c.scaleByte m c.scaleg e))
        (x e) (y e) (z e)
    Completes (.arrayInstructionBegin k) s (fun t => s.BeginsOnly k t ∧ RowsKept c g m t.core.sram ∧
      (∀ e, c.inSel e = true → c.get t.core.sram g.1 (4 * g.2) e =
        if c.active m e then (v e).1 % 2 ^ (4 * g.2) else if q.w.p = 3 then 0 else c.get m g.1 (4 * g.2) e) ∧
      (∀ i, ((c.rounds = true ∧ c.r.mode = 5 ∧ ∃ e, c.active m e = true ∧ c.column e = i) →
          Store.get t.core.gens i = BitVec.ofNat 16 (lfsrStep (genValue s.core.gens i))) ∧
        (¬(c.rounds = true ∧ c.r.mode = 5 ∧ ∃ e, c.active m e = true ∧ c.column e = i) →
          Store.get t.core.gens i = Store.get s.core.gens i)) ∧
      ∀ r i, t.core.queue[k]? = some r → i < 6 →
        (r.flags.getLsbD i = true ↔ q.flags.getLsbD i = true ∨ ∃ e, c.active m e = true ∧ (v e).2.getLsbD i = true))

/-- R186 to R202, R225, Tables 08-2 and 08-3: the functions of the integer element-wise words. R209 to R213, Table 02-9:
the functions of the floating-point element-wise words: one rounding of the exact value, with the flags that the
operation and the rounding raise, and the special functions at their special arguments. (The sign of a zero that no rule
signs, the flags beside a NaN and the special functions between their exact points are the model's readings, log
entries 118, 24 and 115.) -/
def Obligations.ElementFunctions : Prop :=
  (∀ (c : ArrCtx) (gen x y z : Nat) (sc : Option Nat),
     let n := width c.r.t1
     let s1 (v : Nat) : Int := if 2 * (v % 2 ^ n) < 2 ^ n then (v % 2 ^ n : Nat) else (v % 2 ^ n : Nat) - (2 ^ n : Nat)
     let num (t v : Nat) : Int :=
       if t % 2 = 0 ∧ t ≤ 0x0B ∧ 2 ^ width t ≤ 2 * (v % 2 ^ width t) then (v % 2 ^ width t : Nat) - (2 ^ width t : Nat)
       else (v % 2 ^ width t : Nat)
     let i := num c.r.t1 x
     let j := num c.r.t2 y
     let k := num c.r.td z
     let wrap (n : Nat) (v : Int) : Nat × BitVec 6 := ((v % (2 ^ n : Nat)).toNat, 0)
     let clamp (v : Int) : Nat × BitVec 6 :=
       let w := width c.r.td
       let lo : Int := if c.r.td % 2 = 0 then -(2 ^ (w - 1) : Nat) else 0
       let hi : Int := if c.r.td % 2 = 0 then (2 ^ (w - 1) : Nat) - 1 else (2 ^ w : Nat) - 1
       if v < lo then ((lo % (2 ^ w : Nat)).toNat, 0x20) else if hi < v then ((hi % (2 ^ w : Nat)).toNat, 0x20)
       else ((v % (2 ^ w : Nat)).toNat, 0)
     let imm : Int := if c.w.b.toNat < 64 then c.w.b.toNat else (c.w.b.toNat : Int) - 128
     let flag (p : Prop) (_ : Decidable p) : Nat × BitVec 6 := (if p then 1 else 0, 0)
     ∀ e ∈ ([(.vadd, wrap n (i + j)), (.vsub, wrap n (i - j)), (.vaddi, wrap n (i + imm)), (.vmul, wrap n (i * j)),
         (.vmulh, wrap n (i * j / (2 ^ n : Nat))), (.vmac, wrap n (k + i * j)), (.vwmac, wrap (2 * n) (k + i * j)),
         (.vmin, (if s1 y < s1 x then y else x, 0)), (.vmax, (if s1 x < s1 y then y else x, 0)),
         (.vminn, (min x y, 0)), (.vmaxn, (max x y, 0)), (.vand, (x &&& y, 0)), (.vor, (x ||| y, 0)), (.vxor, (x ^^^ y, 0)),
         (.vmov, (x, 0)), (.vnot, (2 ^ n - 1 - x, 0)), (.vsll, (if n ≤ y then 0 else x * 2 ^ y % 2 ^ n, 0)),
         (.vsrl, (if n ≤ y then 0 else x / 2 ^ y, 0)), (.vsra, wrap n (s1 x / (2 ^ min y (n - 1) : Nat))),
         (.vslli, (if n ≤ c.w.b.toNat then 0 else x * 2 ^ c.w.b.toNat % 2 ^ n, 0)),
         (.vsrli, (if n ≤ c.w.b.toNat then 0 else x / 2 ^ c.w.b.toNat, 0)),
         (.vsrai, wrap n (s1 x / (2 ^ min c.w.b.toNat (n - 1) : Nat))), (.vneg, wrap n (-i)), (.vabs, wrap n i.natAbs),
         (.vceq, flag (x = y) inferInstance), (.vcne, flag (x ≠ y) inferInstance), (.vclt, flag (s1 x < s1 y) inferInstance),
         (.vcge, flag (s1 y ≤ s1 x) inferInstance), (.vcltn, flag (x < y) inferInstance),
         (.vcgen, flag (y ≤ x) inferInstance), (.vsearch, flag (((x ^^^ c.akey) &&& c.akmask) % 2 ^ n = 0) inferInstance),
         (.vbcast, (c.x0.toNat % 2 ^ width c.r.td, 0))] : List (ArrOp × (Nat × BitVec 6))),
       (c.w.op = e.1 → elemFn c gen sc x y z = e.2) ∧
       (c.r.td ≤ 0x0B → (c.w.op = .vadds → elemFn c gen sc x y z = clamp (i + j)) ∧
         (c.w.op = .vsubs → elemFn c gen sc x y z = clamp (i - j))) ∧
       (c.w.op = .vbool → ∀ b, b < 4 → (elemFn c gen sc x y z).1.testBit b =
         c.boolt.testBit (4 * (z.testBit b).toNat + 2 * (x.testBit b).toNat + (y.testBit b).toNat)) ∧
       (c.w.op = .vpopc → (elemFn c gen sc x y z).1 = (List.range n).countP (fun b => x.testBit b)) ∧
       (c.w.op = .vclz → (elemFn c gen sc x y z).1 ≤ n ∧
         (∀ b, b < n → n - (elemFn c gen sc x y z).1 ≤ b → x.testBit b = false) ∧
         ((elemFn c gen sc x y z).1 < n → x.testBit (n - 1 - (elemFn c gen sc x y z).1) = true))) ∧
  (∀ (c : ArrCtx) (gen x y z : Nat) (sc : Option Nat),
     let r := c.r
     let dn := r.mode == 2
     let n := width r.t1
     let fx := valF (ffmt r.t1) x
     let fy := valF (ffmt r.t2) y
     let fz := valF (ffmt r.td) z
     let out (v : Machine.Num × BitVec 6) (sticky : Bool) : Nat × BitVec 6 :=
       ((roundF r.td r.mode gen r.sat v.1 sticky).1, (roundF r.td r.mode gen r.sat v.1 sticky).2 ||| v.2)
     let product := Machine.Num.mul dn fx fy
     let total (u w : Machine.Num) : Nat × BitVec 6 :=
       if fx = .nan ∨ fy = .nan ∨ fz = .nan then out (.nan, 0) false
       else out ((Machine.Num.add dn u w).1, product.2 ||| (Machine.Num.add dn u w).2) false
     let fma := total product.1 fz
     let fms := total fz product.1.neg
     let v := valF (ffmt r.t1) y
     let test (nv : BitVec 6) (p : Int → Bool) : Nat × BitVec 6 :=
       if fx = .nan ∨ v = .nan then (0, nv) else (if p (Machine.Num.cmp fx v) then 1 else 0, 0)
     ∀ e ∈ ([(.vfadd, out (Machine.Num.add dn fx fy) false), (.vfsub, out (Machine.Num.add dn fx fy.neg) false),
         (.vfmul, out (Machine.Num.mul dn fx fy) false), (.vfma, fma), (.vfms, fms),
         (.vfdiv, out ((divNum dn fx fy).1, (divNum dn fx fy).2.2) (divNum dn fx fy).2.1),
         (.vfsqrt, out ((sqrtNum dn fx).1, (sqrtNum dn fx).2.2) (sqrtNum dn fx).2.1),
         (.vfmin, (minmaxF r.t1 false x y, 0)), (.vfmax, (minmaxF r.t1 true x y, 0)),
         (.vfneg, (x ^^^ 2 ^ (n - 1), 0)), (.vfabs, (x % 2 ^ (n - 1), 0)),
         (.vcfeq, test 0 (· == 0)), (.vcflt, test flNV (· < 0)), (.vcfle, test flNV (· ≤ 0)),
         (.vcfun, (if fx = .nan ∨ v = .nan then 1 else 0, 0))] : List (ArrOp × (Nat × BitVec 6))),
       (c.w.op = e.1 → elemFn c gen sc x y z = e.2) ∧
       (c.w.op = .vcvt → r.scale = 0 → sc = none → isFloat r.t1 = true → isFloat r.td = true →
         elemFn c gen sc x y z = roundF r.td r.mode gen r.sat fx false) ∧
       (c.w.op = .vcvt → sc = none → isFloat r.t1 = true → isInt r.td = true →
         elemFn c gen sc x y z = toint r.td r.mode gen fx) ∧
       (c.w.op = .vcvt → sc = none → isInt r.t1 = true → isFloat r.td = true →
         elemFn c gen sc x y z = roundF r.td r.mode gen r.sat
           (if intOf r.t1 x = 0 then .fin dn 0 0 else .ofInt (intOf r.t1 x)) false) ∧
       (c.w.op = .vcvt → sc = none → isInt r.t1 = true → isInt r.td = true → r.sat = false →
         elemFn c gen sc x y z = ((intOf r.t1 x % (2 ^ width r.td : Nat)).toNat, 0)) ∧
       (isFloat r.t1 = true → ∀ e ∈ ([(.vexp2, .nan, .nan, 0), (.vexp2, .inf true, .fin false 0 0, 0),
           (.vexp2, .inf false, .inf false, 0), (.vlog2, .nan, .nan, 0), (.vlog2, .inf true, .nan, flNV),
           (.vlog2, .inf false, .inf false, 0), (.vrcp, .nan, .nan, 0), (.vrcp, .inf true, .fin true 0 0, 0),
           (.vrcp, .inf false, .fin false 0 0, 0), (.vrsqrt, .nan, .nan, 0), (.vrsqrt, .inf true, .nan, flNV),
           (.vrsqrt, .inf false, .fin false 0 0, 0)] : List (ArrOp × Machine.Num × Machine.Num × BitVec 6)),
         c.w.op = e.1 → fx = e.2.1 → elemFn c gen sc x y z =
           ((roundF r.t1 0 0 r.sat e.2.2.1 false).1, (roundF r.t1 0 0 r.sat e.2.2.1 false).2 ||| e.2.2.2)) ∧
       (isFloat r.t1 = true → ∀ (neg : Bool) (i : Int), fx = .fin neg 0 i →
         ∀ e ∈ ([(.vexp2, .fin false 1 0, 0), (.vlog2, .inf true, flDZ), (.vrcp, .inf neg, flDZ), (.vrsqrt, .inf neg, flDZ)] :
           List (ArrOp × Machine.Num × BitVec 6)),
         c.w.op = e.1 → elemFn c gen sc x y z =
           ((roundF r.t1 0 0 r.sat e.2.1 false).1, (roundF r.t1 0 0 r.sat e.2.1 false).2 ||| e.2.2)))

/-- R52, R216, R218: when a reduction begins, the value that it will send to its scalar register is the reduction of the
active elements of its source; no row changes. R48, R51, R115, R118, R172, R246: a begun word completes: it leaves the
queue, its flags merge into its hart's FLAGS and its scalar result reaches its register, which is no longer pending once
no later word of its block is to write it (R116);
so does a value that is on its way, and the answer of a micro-sequencer. -/
def Obligations.ArrayReductions : Prop :=
  (∀ (k : Nat) (q : QEntry) (s : State), s.core.queue[k]? = some q → s.mayBegin k q = true →
     let c := s.ctx q
     let m := s.core.sram
     let t1 := c.r.t1
     let l := ((List.range c.vl).filter (fun e => c.active m e)).map (fun e => c.get m q.w.a.toNat (width t1) e)
     let marks := (List.range c.vl).filter (fun e => c.active m e && c.get m q.w.a.toNat 1 e == 1)
     let best (wantMax : Bool) (v : Word) : Prop :=
       if l = [] then v = if wantMax then 0xFF800000 else 0x7F800000
       else if ∀ x ∈ l, valF (ffmt t1) x = .nan then v = 0x7FC00000
       else ∃ x ∈ l, valF (ffmt t1) x ≠ .nan ∧ v = BitVec.ofNat 64 (roundF 0x16 0 0 false (valF (ffmt t1) x)).1 ∧
         ∀ y ∈ l, valF (ffmt t1) y ≠ .nan →
           if wantMax then 0 ≤ Machine.Num.cmp (valF (ffmt t1) x) (valF (ffmt t1) y)
           else Machine.Num.cmp (valF (ffmt t1) x) (valF (ffmt t1) y) ≤ 0
     ∀ e ∈ ([(.vredsum, fun v => v = BitVec.ofInt 64 (l.map (intOf t1)).sum),
         (.vredmin, fun v => v = BitVec.ofInt 64 ((l.map (intOf t1)).foldl min (intMax t1))),
         (.vredmax, fun v => v = BitVec.ofInt 64 ((l.map (intOf t1)).foldl max (intMin t1))),
         (.vredand, fun v => v = BitVec.ofInt 64 (intOf t1 (l.foldl (· &&& ·) (2 ^ width t1 - 1)))),
         (.vredor, fun v => v = BitVec.ofInt 64 (intOf t1 (l.foldl (· ||| ·) 0))),
         (.vredxor, fun v => v = BitVec.ofInt 64 (intOf t1 (l.foldl (· ^^^ ·) 0))),
         (.vmpopc, fun v => v = BitVec.ofNat 64 marks.length),
         (.vmfirst, fun v => v = match marks with
           | [] => 0xFFFFFFFFFFFFFFFF
           | e :: _ => BitVec.ofNat 64 e),
         (.vfredmax, best true), (.vfredmin, best false),
         (.vfredsum, fun v => v = BitVec.ofNat 64
           (saturate32 c.r.sat (tree 18 ((List.range ((c.vl + 7) / 8)).map (c.leaf m)))).1),
         (.vextr, fun v => v = if c.x0.toNat < c.vl then
           BitVec.ofInt 64 (if isSigned t1 then intOf t1 (c.get m q.w.a.toNat (width t1) c.x0.toNat)
             else c.get m q.w.a.toNat (width t1) c.x0.toNat) else 0)] : List (ArrOp × (Word → Prop))),
       q.w.op = e.1 → (e.1 ∈ [ArrOp.vredsum, .vredmin, .vredmax, .vredand, .vredor, .vredxor] → isInt t1 = true) →
         Completes (.arrayInstructionBegin k) s (fun t => s.BeginsOnly k t ∧ t.core.sram = m ∧
           ∃ r, t.core.queue[k]? = some r ∧ e.2 r.value)) ∧
  ((∀ (k : Nat) (q : QEntry) (s : State), s.core.queue[k]? = some q → q.stage = .begun →
     (s.core.queue.take k).any q.sameDest = false →
     Completes (.arrayInstructionComplete k) s (fun t =>
       t.core = { s.core with queue := s.core.queue.eraseIdx k, pcnt := t.core.pcnt } ∧
       ({ s with core := t.core }).OnlyHart q.hart t ∧
       (t.hart q.hart).csr = { (s.hart q.hart).csr with
         flags := (s.hart q.hart).csr.flags ||| q.flags.zeroExtend 64, pcnt := (t.hart q.hart).csr.pcnt } ∧
       (∀ r, (t.hart q.hart).reg r = if r = q.dest.toNat ∧ r ≠ 0 then q.value else (s.hart q.hart).reg r) ∧
       (∀ r, r < 64 → (t.hart q.hart).isPending r =
         ((s.hart q.hart).isPending r && (decide (r ≠ q.dest.toNat) || (s.core.queue.eraseIdx k).any q.sameDest))))) ∧
   (∀ (h : BitVec 1) (r : BitVec 6) (k : Nat) (e : Late) (s : State),
     (s.hart h).late.findIdx? (fun e => e.reg == r) = some k → (s.hart h).late[k]? = some e →
     Completes (.scalarResultArrival h r) s (fun t => s.OnlyHart h t ∧
       (t.hart h).late = (s.hart h).late.eraseIdx k ∧ (t.hart h).pc = (s.hart h).pc ∧
       (t.hart h).csr = { (s.hart h).csr with flags := (s.hart h).csr.flags ||| e.flags.zeroExtend 64 } ∧
       (∀ i, (t.hart h).reg i = if i = r.toNat ∧ i ≠ 0 then e.val else (s.hart h).reg i) ∧
       (∀ i, i < 64 → (t.hart h).isPending i = ((s.hart h).isPending i && decide (i ≠ r.toNat))))) ∧
   (∀ (h : BitVec 1) (r : BitVec 6) (a : MtAnswer) (s : State), (s.hart h).late.findIdx? (fun e => e.reg == r) = none →
     s.core.answers.find? (fun a => a.hart == h && a.reg == r) = some a → s.answerReady a = true → r ≠ 0 →
     Completes (.scalarResultArrival h r) s (fun t =>
       (∀ i, (t.hart h).reg i = if i = r.toNat then s.mtAnswer a.num.toNat a.m else (s.hart h).reg i) ∧
       (t.hart h).isPending r.toNat = false ∧ a ∉ t.core.answers ∧ t.hart (other h) = s.hart (other h) ∧
       t.home = s.home ∧ t.core = { s.core with answers := t.core.answers })))

/-- R221 to R225, R489: what the words that move elements write: a slide or a reversal gives each active element the
source element that it names, VIOTA the count of marked elements below, VCOMPRESS packs the marked elements from START
on, VEXPAND spreads the source elements from START on over the marked ones, VINSR writes one element. R53, R190, R195,
R202, R217: VMERGE takes every element of START ≤ e < VL from the source that a0 names; VKWRITE puts the key into the
selected bits of the marked elements; VDOT and VDOTS add four products to every fourth element; VSEGSUM writes the sum
of each block of 32. -/
def Obligations.ArrayMoves : Prop :=
  (∀ (k : Nat) (q : QEntry) (s : State), s.core.queue[k]? = some q → s.mayBegin k q = true →
     q.w.check q.fmt.isSome q.res q.scaleg = none →
     let c := s.ctx q
     let m := s.core.sram
     let g := c.dst
     let n := 4 * g.2
     let src (e : Nat) : Nat := c.get m q.w.a.toNat (width c.r.t1) e
     let sh := min c.x0.toNat (4096 * c.ways.length)
     let marks := (List.range c.vl).filter (fun e => c.inRange e && c.get m 0 1 e == 1)
     let old (e : Nat) : Nat := c.get m g.1 n e
     (∀ e ∈ ([(.vslideup, fun e => if sh ≤ e then src (e - sh) else old e),
         (.vslidedn, fun e => if e + sh < c.vl then src (e + sh) else 0),
         (.vrev, fun e => src (c.start + c.vl - 1 - e)),
         (.viota, fun e => ((List.range e).filter (fun i => c.active m i && c.get m q.w.a.toNat 1 i == 1)).length %
           2 ^ width c.r.td)] : List (ArrOp × (Nat → Nat))),
       q.w.op = e.1 → Completes (.arrayInstructionBegin k) s (fun t => s.BeginsOnly k t ∧ RowsKept c g m t.core.sram ∧
         ∀ i, c.inSel i = true → c.get t.core.sram g.1 n i =
           if c.active m i then e.2 i else if q.w.p = 3 then 0 else old i)) ∧
     (q.w.op = .vcompress → Completes (.arrayInstructionBegin k) s (fun t => s.BeginsOnly k t ∧
       RowsKept c g m t.core.sram ∧ ∀ i, c.inSel i = true → c.get t.core.sram g.1 n i =
         if c.start ≤ i ∧ i < c.start + marks.length then src (marks.getD (i - c.start) 0) else old i)) ∧
     (q.w.op = .vexpand → Completes (.arrayInstructionBegin k) s (fun t => s.BeginsOnly k t ∧
       RowsKept c g m t.core.sram ∧ ∀ i, c.inSel i = true → c.get t.core.sram g.1 n i =
         if i ∈ marks then src (c.start + marks.idxOf i) else old i)) ∧
     (q.w.op = .vinsr → Completes (.arrayInstructionBegin k) s (fun t => s.BeginsOnly k t ∧
       RowsKept c g m t.core.sram ∧ ∀ i, c.inSel i = true → c.get t.core.sram g.1 n i =
         if i = c.x1.toNat ∧ i < c.vl then c.x0.toNat % 2 ^ width c.r.td else old i))) ∧
  (∀ (k : Nat) (q : QEntry) (s : State), s.core.queue[k]? = some q → s.mayBegin k q = true →
     q.w.check q.fmt.isSome q.res q.scaleg = none →
     let c := s.ctx q
     let m := s.core.sram
     let g := c.dst
     let n := width c.r.t1
     let old (e : Nat) : Nat := c.get m g.1 (4 * g.2) e
     let marked (e : Nat) : Bool := c.get m 0 1 e == 1
     let sum (e : Nat) : Int := intOf c.r.td (c.get m g.1 (width c.r.td) e) +
       ((List.range 4).map (fun i => if c.active m (e + i) then
         intOf c.r.t1 (c.get m q.w.a.toNat n (e + i)) * intOf c.r.t2 (c.get m q.w.b.toNat n (e + i)) else 0)).sum
     let seg (gen e : Nat) : Nat := (roundF c.r.td c.r.mode gen c.r.sat (val 0x16 (c.block m e).1) false).1
     ∀ e ∈ ([(.vmerge, fun e => if c.inRange e then c.get m (if marked e then q.w.a else q.w.b).toNat n e else old e),
         (.vkwrite, fun e => if c.inRange e && marked e && decide (c.akmask % 2 ^ n ≠ 0) then
           ((c.akey &&& c.akmask) ||| (c.get m g.1 n e &&& (2 ^ 64 - 1 - c.akmask % 2 ^ 64))) % 2 ^ n else old e),
         (.vdot, fun e => if e % 4 = 0 ∧ c.active m e then (sum e % (2 ^ width c.r.td : Nat)).toNat
           else if q.w.p = 3 ∧ e % 4 = 0 then 0 else old e),
         (.vdots, fun e => if e % 4 = 0 ∧ c.active m e then (satInt c.r.td (sum e)).1
           else if q.w.p = 3 ∧ e % 4 = 0 then 0 else old e),
         (.vsegsum, fun e => if e < (c.vl + 31) / 32 then seg (genValue s.core.gens (c.column e)) e else old e)] :
           List (ArrOp × (Nat → Nat))),
       q.w.op = e.1 → Completes (.arrayInstructionBegin k) s (fun t => s.BeginsOnly k t ∧ RowsKept c g m t.core.sram ∧
         ∀ i, c.inSel i = true → c.get t.core.sram g.1 (4 * g.2) i = e.2 i))

/-- R270, R323, R328: a load whose elements are whole bytes writes each placed element with the bytes at its place; a store
writes each element's bytes to its place, and no others. Of local scratch and layer space the place is in the core's
banks, or, of layer space that has been relocated, in its slot of the spill region (R284; which bytes of the slot is
the model's choice, log entry 99). R277: it begins while no element that it moves must wait for the layer bus. R303,
R324: of global memory it is at the home for an MS page, where a later element of a store overwrites an earlier one,
and what the core sees for a page that it has cached (R274). -/
def Obligations.ArrayMemoryData : Prop :=
  (∀ (k : Nat) (q : QEntry) (s : State), s.core.queue[k]? = some q → s.mayBegin k q = true →
    q.w.check q.fmt.isSome q.res q.scaleg = none → 8 ≤ width q.memType →
    q.w.op ∈ [ArrOp.vldl, .vldy, .vldys, .vstl, .vsty, .vstys] →
    let layer := q.w.op.space == some 2
    let c := s.ctx q
    let n := width q.memType / 8
    (∀ a ∈ q.addrs, c.inSel a.elem = true ∧ a.lo = 0 ∧ a.n = 8 * n ∧ a.shift = 0 ∧ a.name % n = 0 ∧
      a.name + n ≤ s.extent layer ∧ s.elemHeld q.w.op (c.way a.elem) = false) →
    q.addrs.Pairwise (fun a b => a.elem < b.elem ∧ (a.name + n ≤ b.name ∨ b.name + n ≤ a.name)) →
    let frame (t : State) : Prop :=
      t = { s with
        free := t.free, ctr := t.ctr, home := { s.home with mem := t.home.mem }
        core := { s.core with
          sram := t.core.sram, pcnt := t.core.pcnt, lastGrant := t.core.lastGrant
          queue := s.core.queue.set k { q with stage := .begun, addrs := [], seen := [] } } } ∧
      t.ctr.cycle = s.ctr.cycle
    (q.w.op.loads = true → Completes (.arrayInstructionBegin k) s (fun t => frame t ∧ t.home = s.home ∧
      RowsKept c (q.w.d.toNat, 2 * n) s.core.sram t.core.sram ∧
      ∀ e, c.inSel e = true → c.get t.core.sram q.w.d.toNat (8 * n) e =
        match q.addrs.find? (fun a => a.elem == e) with
        | some a => s.scratchLoad layer a.name n
        | none => c.get s.core.sram q.w.d.toNat (8 * n) e)) ∧
    (q.w.op.loads = false → Completes (.arrayInstructionBegin k) s (fun t => frame t ∧
      (∀ a ∈ q.addrs, t.scratchLoad layer a.name n = c.get s.core.sram q.w.d.toNat (8 * n) a.elem) ∧
      ((layer && s.relocated) = false → t.home = s.home ∧
        ∀ b, (∀ a ∈ q.addrs, b < s.scratchKey layer a.name ∨ s.scratchKey layer a.name + n ≤ b) →
          Memory.byte t.core.sram b = Memory.byte s.core.sram b) ∧
      ((layer && s.relocated) = true → t.core.sram = s.core.sram ∧
        ∀ b, (∀ a ∈ q.addrs, b < s.slotKey (s.scratchKey true a.name) ∨ s.slotKey (s.scratchKey true a.name) + n ≤ b) →
          Memory.byte t.home.mem b = Memory.byte s.home.mem b)))) ∧
  (∀ (k : Nat) (q : QEntry) (s : State), s.core.queue[k]? = some q → s.mayBegin k q = true →
    q.w.check q.fmt.isSome q.res q.scaleg = none → 8 ≤ width q.memType →
    q.w.op ∈ [ArrOp.vld, .vlds, .vldx, .vldff, .vst, .vsts, .vstx] →
    let c := s.ctx q
    let n := width q.memType / 8
    let d := q.w.d.toNat
    (∀ a ∈ q.addrs, c.inSel a.elem = true ∧ a.lo = 0 ∧ a.n = 8 * n ∧ a.shift = 0 ∧ a.name % n = 0 ∧ a.mmio = false ∧
      s.elemHeld q.w.op (c.way a.elem) = false ∧ s.postedOver q.hart a.name n = false ∧ s.vstrOver a.name n = false ∧
      s.homeError a.name = none ∧ (q.w.op.loads = true → s.readError a.name = none)) →
    q.addrs.Pairwise (fun a b => a.elem < b.elem) →
    let frame (t : State) : Prop := s.HartsKept t ∧ t.tile = s.tile ∧ t.ctr.cycle = s.ctr.cycle ∧
      t.core = { s.core with
        sram := t.core.sram, pcnt := t.core.pcnt, lastGrant := t.core.lastGrant
        queue := s.core.queue.set k { q with stage := .begun, addrs := [], seen := [] } }
    let loaded (t : State) (v : ElemAddr → Nat → Byte) : Prop := frame t ∧ t.home.mem = s.home.mem ∧ t.cache = s.cache ∧
      RowsKept c (d, 2 * n) s.core.sram t.core.sram ∧
      ∀ e, c.inSel e = true → ∀ j, j < n → byteOf (c.get t.core.sram d (8 * n) e) j =
        match q.addrs.find? (fun a => a.elem == e) with
        | some a => v a j
        | none => byteOf (c.get s.core.sram d (8 * n) e) j
    let last (key : Nat → Nat) (b : Nat) : Option ElemAddr :=
      (q.addrs.filter (fun a => decide (key a.name ≤ b) && decide (b < key a.name + n))).getLast?
    let stored (t : State) (key : Nat → Nat) (before after : Nat → Byte) : Prop := frame t ∧ t.core.sram = s.core.sram ∧
      ∀ b, after b = match last key b with
        | some a => byteOf (c.get s.core.sram d (8 * n) a.elem) (b - key a.name)
        | none => before b
    ((∀ a ∈ q.addrs, a.ms = true) → s.home.frames = [] → s.home.llc = [] →
      (q.w.op.loads = true → Completes (.arrayInstructionBegin k) s (fun t =>
        loaded t (fun a j => Memory.byte s.home.mem (s.homeKey a.name + j)))) ∧
      (q.w.op.loads = false → Completes (.arrayInstructionBegin k) s (fun t => t.cache = s.cache ∧
        stored t s.homeKey (Memory.byte s.home.mem) (Memory.byte t.home.mem)))) ∧
    (s.cacheWays ≠ [] → (∀ a ∈ q.addrs, a.ms = false ∧ s.cachedPart a = true ∧
        ∃ l, s.findLine (a.name / 256) = some l ∧ s.wayHeld l.way = false) →
      (q.w.op.loads = true → Completes (.arrayInstructionBegin k) s (fun t =>
        loaded t (fun a j => s.seenByte (a.name + j)))) ∧
      (q.w.op.loads = false → Completes (.arrayInstructionBegin k) s (fun t => t.home.mem = s.home.mem ∧
        stored t id s.seenByte t.seenByte))))

/-- R304, R305, R335, R336: an element of a VSTR is added to the value at its home in one step: an integer with wrap,
or clamped under the saturate bit; a floating-point value with one rounding. Only its own bytes change. R480: an
element for a peer leaves this device and changes nothing here, unless the peer answers with an error: then trap 0x11
is pending with the element's address (log entry 38). -/
def Obligations.RemoteReduce : Prop :=
  let value (td m : Nat) (sat : Bool) (x : Machine.Num) (old : Nat) : Nat :=
    if td = 8 then
      match x with
      | .fin neg n _ => if sat then (satInt 8 (intOf 8 old + (if neg then -(n : Int) else n))).1
          else ((intOf 8 old + (if neg then -(n : Int) else n)) % (2 ^ 32 : Nat)).toNat
      | _ => old
    else (roundF td (if m = 5 then 0 else m) 0 sat (Machine.Num.add ((if m = 5 then 0 else m) == 2) (val td old) x).1 false).1
  (∀ (pa : Nat) (td : BitVec 5) (x : BitVec 32) (m : BitVec 3) (sat : Bool) (s : State), td = 0x16 ∨ td = 0x14 ∨ td = 8 →
    pa % (width td.toNat / 8) = 0 → s.readError pa = none →
    ((s.llcRead pa (width td.toNat / 8)).llcLine pa).isSome = true →
    Completes (.vstrPacketArrival none pa td x m sat) s (fun u =>
      let n := width td.toNat / 8
      s.HomeStored pa n (value td.toNat m.toNat sat (val td.toNat (x.toNat % 2 ^ width td.toNat)) (s.homeValue pa n)) u ∧
      s.HartsKept u ∧ s.CoreKept u)) ∧
  (∀ (k : Nat) (v : VstrItem) (s s1 : State), s.home.vstr[k]? = some v → s.home.vstr.filter v.together = [v] →
    (∀ x ∈ s.home.vstr.take k, x.pa + 4 ≤ v.pa ∨ v.pa + 4 ≤ x.pa) → v.td = 0x16 ∨ v.td = 0x14 ∨ v.td = 8 →
    s.evictSector v.pa = some s1 → s1.readError v.pa = none → Map.get none s1.home.frames (frameOf v.pa).1 = none →
    (if v.ms then s1.llcStored v.pa else ((s1.llcRead v.pa (width v.td.toNat / 8)).llcLine v.pa).map (·.2)).isSome = true →
    Completes (.vstrPacketArrival (some k) 0 0 0 0 false) s (fun u =>
      let n := width v.td.toNat / 8
      s1.HomeStored v.pa n (value v.td.toNat v.mode.toNat v.sat v.value (s1.homeValue v.pa n)) u ∧
      u.home.vstr = s.home.vstr.filter (fun x => !v.together x) ∧ s1.HartsKept u ∧ s1.CoreKept u)) ∧
  (∀ (k : Nat) (v : VstrItem) (s : State), s.home.vstr[k]? = some v → s.home.vstr.filter v.together = [v] →
    (∀ x ∈ s.home.vstr.take k, x.pa + 4 ≤ v.pa ∨ v.pa + 4 ≤ x.pa) → regionOf v.pa = .mmio → s.findLine (v.pa / 256) = none →
    s.peerSlot v.pa = true → s.ownDevice (s.peerPlace v.pa).1 = false →
    Completes (.vstrPacketArrival (some k) 0 0 0 0 false) s (fun u =>
      u.home = { s.home with vstr := s.home.vstr.filter (fun x => !v.together x) } ∧ s.CoreKept u ∧ u.cache = s.cache ∧
      u.hart (other v.hart) = s.hart (other v.hart) ∧
      (s.peerRefuses v.pa s.free = false → u.hart v.hart = s.hart v.hart) ∧
      (s.peerRefuses v.pa s.free = true → (u.hart v.hart).busEv.isSome = true ∧ ((s.hart v.hart).busEv = none →
        (u.hart v.hart).busEv.map (fun e => e.faddr) = some v.va))))

/-- R137, R160 to R162: AROLE, and a write of WAYROLE, once every array word, copy, stream and store accepted before
it has ended and no way that changes has a private micro-thread, give each way the requested role, refused ways apart,
and clip SHAPE: VL to the elements of the ways that are left, and START to VL. A way that changes keeps its rows
between the scratch and array roles and loses them otherwise, and holds no cache line; the ways that keep their role
keep their contents. R284: the bytes of an upper scratch way lie in the core's slot while layer space is relocated
(which ones is the model's choice, log entry 99). -/
def Obligations.WayRoles : Prop :=
  (∀ (h : BitVec 1) (d a b : BitVec 7) (s s1 : State), s.Owns h 1 [d, a, b] →
    let lo := ((s.hart h).reg a.toNat).toNat
    let hi := ((s.hart h).reg b.toNat).toNat
    (∀ w ∈ s.changing lo hi, (s.mt w).state ≠ 1) → s.roleWaits (s.rolePlace h) = false → s.turnWays lo hi = some s1 →
    (∀ k, k < 32 → s1.role k =
      let r := if k < 16 then bits lo (2 * k) 2 else bits hi (2 * (k - 16)) 2
      if s.retiredWay k then 3 else if s.hostPort = true ∧ k < 16 ∧ r = 2 then s.role k else r) ∧
    wf s1.core.shape 0 18 =
      min (wf s.core.shape 0 18) (4096 * (waysOf s1.core.wayrole (wf s.core.shape 23 2)).length) ∧
    wf s1.core.shape 25 18 = min (wf s.core.shape 25 18) (wf s1.core.shape 0 18) ∧
    wf s1.core.shape 18 7 = wf s.core.shape 18 7 ∧
    Completes (.arole d a b) s (fun t => s1.OnlyHart h t ∧
      (s1.hart h).Sent d.toNat (BitVec.ofNat 64 (s.roleStatus lo hi)) 0 (t.hart h) ∧
      (s1.hart h).GoneOn ((s1.hart h).pc + 4) false (t.hart h))) ∧
  (∀ (h : BitVec 1) (d a : BitVec 7) (s s1 : State), s.Owns h 1 [d, a] →
    let x := (s.hart h).reg a.toNat
    let old := s.csrRead h 0x019
    ∀ e ∈ [(Instr.csrw d a 0x019, x), (Instr.csrs d a 0x019, old ||| x), (Instr.csrc d a 0x019, old &&& ~~~x)],
      let lo := wf e.2 0 32
      let hi := wf e.2 32 32
      (∀ w ∈ s.changing lo hi, (s.mt w).state ≠ 1) → s.roleWaits (s.rolePlace h) = false → s.turnWays lo hi = some s1 →
      Completes e.1 s (fun t => s1.OnlyHart h t ∧ (s1.hart h).Wrote d.toNat old (t.hart h) ∧
        (s1.hart h).GoneOn ((s1.hart h).pc + 4) false (t.hart h))) ∧
  (∀ (k r : Nat) (s t : State), k < 32 → r < 4 → s.turnWay k r = some t →
    wf t.core.wayrole (2 * k) 2 = r ∧ (∀ j, j < 32 → j ≠ k → wf t.core.wayrole (2 * j) 2 = wf s.core.wayrole (2 * j) 2) ∧
    (∀ b, b / 262144 ≠ k → Memory.byte t.core.sram b = Memory.byte s.core.sram b) ∧
    (let byte (u : State) (role o : Nat) : Byte :=
       if u.relocated = true ∧ 16 ≤ k ∧ role = 1 then Memory.byte u.home.mem (u.slotKey (k * 262144) + o)
       else Memory.byte u.core.sram (k * 262144 + o)
     ∀ o, o < 262144 → byte t r o =
       if (s.role k = 1 ∧ r = 2) ∨ (s.role k = 2 ∧ r = 1) then byte s (s.role k) o else 0) ∧
    (s.role k = 0 → ∀ l ∈ t.cache, l.way ≠ k))

/-- R165, R177 to R180: ASHAPE sets SHAPE and sends the granted VL, AWAIT goes on when no array or tile word is queued
and sleeps otherwise, AFLUSH leaves no dirty byte in the lines of its range whose pages have a translation, ACLR is
queued and clears every row of every array way, and AINVAL drops the lines of its range and gives the array to hart 0.
(Both act on every whole superblock that the range touches, which is the model's reading, log entry 34.) -/
def Obligations.ArrayControl : Prop :=
  (∀ (h : BitVec 1) (d a b : BitVec 7) (s : State), s.Owns h 2 [d, a, b] → s.hostPort = false →
    let x := (s.hart h).reg a.toNat
    let y := (s.hart h).reg b.toNat
    (typeOk (wf y 0 5) = true ∧ wf y 5 2 ≠ 3 ∧ wf y 8 56 = 0 → s.core.queue.length < Config.arrayQueueEntries →
      Completes (.ashape d a b) s (fun t => ∃ q sh, s.Queued h q sh d.toNat t ∧
        q.w = { op := .ashape, d := d, a := a, b := b, k1 := false, k2 := false, p := 0 } ∧ q.dest = BitVec.ofNat 6 d.toNat ∧
        wf sh 0 18 = min x.toNat (4096 * (waysOf s.core.wayrole (wf y 5 2)).length) ∧ wf sh 18 5 = wf y 0 5 ∧
        wf sh 23 2 = wf y 5 2 ∧ (wf sh 25 18 = if bit y.toNat 7 then 0 else wf s.core.shape 25 18) ∧
        q.value = BitVec.ofNat 64 (wf sh 0 18))) ∧
    (¬(typeOk (wf y 0 5) = true ∧ wf y 5 2 ≠ 3 ∧ wf y 8 56 = 0) → TrapsWith (.ashape d a b) s h 0x0B)) ∧
  (∀ (h : BitVec 1) (s : State), s.Owns h 2 [] → s.hostPort = false →
    (s.core.queue = [] ∧ s.core.mqueue = [] → OnlyAdvances .await s h) ∧
    (¬(s.core.queue = [] ∧ s.core.mqueue = []) → Completes .await s (fun t => s.OnlyHart h t ∧
      t.hart h = { s.hart h with run := .asleep .retry })) ∧
    (s.core.queue.length < Config.arrayQueueEntries → Completes .aclr s (fun t =>
      ∃ q, q.w = { op := .aclr, d := 0, a := 0, b := 0, k1 := false, k2 := false, p := 0 } ∧ s.Queued h q s.core.shape 0 t))) ∧
  (∀ (k : Nat) (q : QEntry) (s : State), s.core.queue[k]? = some q → s.mayBegin k q = true →
    (q.w.op = .aclr → Completes (.arrayInstructionBegin k) s (fun t =>
      (∀ b, Memory.byte t.core.sram b =
        if b / 262144 ∈ arrayWays s.core.wayrole then 0 else Memory.byte s.core.sram b) ∧ s.BeginsOnly k t)) ∧
    (q.w.op = .ashape → Completes (.arrayInstructionBegin k) s (fun t => s.BeginsOnly k t ∧ t.core.sram = s.core.sram ∧
      ∃ r, t.core.queue[k]? = some r ∧ r.value = q.value ∧ r.flags = q.flags))) ∧
  (∀ (h : BitVec 1) (a b : BitVec 7) (s s1 : State), s.Owns h 2 [a, b] →
    let x := (s.hart h).reg a.toNat
    let y := (s.hart h).reg b.toNat
    (y = 0 → OnlyAdvances (.aflush a b) s h) ∧
    (y ≠ 0 → (∀ q ∈ s.core.queue, q.stage = .waiting → q.w.op.stores = false) →
      s.overMapped (some h) (s.lineIn x y) State.cleanLine = .done s1 →
      Completes (.aflush a b) s (s1.Passed h) ∧
      ((∀ l ∈ s.cache, s.lineIn x y l = true → canonical (BitVec.ofNat 64 l.va) = true ∧
          s.mmu.tlb.any (fun e => e.covers (BitVec.ofNat 64 l.va).toNat s.cid16) = true) →
        ∀ l ∈ s1.cache, s.lineIn x y l = true → ∀ e ∈ l.sectors, e.2.dirty = 0)) ∧
    ((s.hart h).pl ≤ 1 → s.core.queue = [] → s.core.mqueue = [] → Completes (.ainval a b) s (fun t =>
      (∀ l, l ∈ t.cache ↔ l ∈ s.cache ∧ ¬(y = 0 ∨ s.lineIn x y l = true)) ∧ t.h0.ao = true ∧ t.h1.ao = false ∧
      (t.hart h).pc = (s.hart h).pc + 4 ∧ (∀ k, (t.hart k).g = (s.hart k).g) ∧ t.home = s.home ∧ s.CoreKept t)))

/-- R232, R233: MBEGIN opens a block under the mask in ga; MEND, when the queue has room for every collected word and
each word places its elements, behind the hart's scratch stores where one works there (R308), queues them in block order
and closes the block; with no room it waits. R334: the hart
sleeps behind MEND while a WAITV of its block is in the queue (the model's reading, log entry 131). R74, R233: outside
a block MEND is illegal, before ownership is asked. -/
def Obligations.BroadcastBlocks : Prop :=
  (∀ (h : BitVec 1) (a : BitVec 7) (s : State), s.Issues h [a] → s.hostPort = false → (s.hart h).ao = true →
    ((s.hart h).mb = false → Completes (.mbegin a) s (fun t => (t.hart h).mb = true ∧
      ({ s with core := { s.core with blockMask := ((s.hart h).reg a.toNat).truncate 32, block := [] } }).OnlyHart h t ∧
      (t.hart h).pc = (s.hart h).pc + 4 ∧ (t.hart h).g = (s.hart h).g ∧
      (∀ i, i < 64 → i ≠ 8 → bit (t.hart h).csr.status.toNat i = bit (s.hart h).csr.status.toNat i))) ∧
    ((s.hart h).mb = true → TrapsWith (.mbegin a) s h 0x0B)) ∧
  (∀ (h : BitVec 1) (qs : List QEntry) (sh : Word) (s s0 s1 : State), s.cur = .hart h → s.hostPort = false →
    (s.hart h).ao = true → (s.hart h).mb = true → s.core.block.length ≤ s.queueRoom →
    (∀ r ∈ blockRegs s.core.block, (s.hart h).isPending r = false) →
    (if s.core.block.any (fun c => c.w.op.space.any (· != 0)) then s.settleStores h else some s) = some s0 →
    planBlock h s.core.blockMask 0 s.core.block [] s.core.shape s0 = .ok qs sh s1 →
    qs.map (·.w) = s.core.block.map (·.w) ∧ qs.map (·.fmt) = s.core.block.map (·.fmt) ∧
    (∀ q ∈ qs, q.sel = s.core.blockMask ∧ q.hart = h) ∧
    Completes .mend s (fun t => (t.hart h).mb = false ∧ t.core.block = [] ∧ t.core.shape = sh ∧
      t.core.queue.map (fun q => { q with seq := 0 }) =
        (s1.core.queue ++ qs).map (fun q => { q with seq := 0 }) ∧ (t.hart h).pc = (s1.hart h).pc + 4 ∧
      (t.hart h).g = (s1.hart h).g ∧ t.hart (other h) = s1.hart (other h) ∧ t.home = s1.home ∧ t.cache = s1.cache ∧
      (t.hart h).run = (if s.core.block.any (fun c => c.w.op == .waitv) then .asleep (.waitb t.ctr.cycle.toNat none) else .running) ∧
      ∀ k, k < 64 → (t.hart h).isPending k = ((s1.hart h).isPending k || qs.any (fun q => q.dest.toNat == k && k != 0)))) ∧
  (∀ (h : BitVec 1) (s : State), s.cur = .hart h → s.hostPort = false →
    ((s.hart h).mb = false → TrapsWith .mend s h 0x01) ∧
    ((s.hart h).mb = true → (s.hart h).ao = false → TrapsWith .mend s h 0x0A) ∧
    ((s.hart h).mb = true → (s.hart h).ao = true → s.queueRoom < s.core.block.length → s.asyncNext h true = none →
      exec .mend s = .next s))

/-- R235, R242, R243, R246: MSPLIT, behind its hart's scratch stores (R308), queues a release of the selected
micro-threads, which come to run at BPC under the VL
and type of SHAPE; MJOIN writes which micro-threads have stopped or faulted once none is private; MRESET returns
stopped and faulted ones to the broadcast state and asks private ones to stop; MSETM, MGETM and MSTAT write and ask. -/
def Obligations.MicroThreadControl : Prop :=
  (∀ (h : BitVec 1) (d a b : BitVec 7) (m : BitVec 3) (s : State), s.Owns h 3 [d, a, b] → s.hostPort = false →
    s.core.queue.length < Config.arrayQueueEntries →
    let x := (s.hart h).reg a.toNat
    let mask (v : Word) : Nat := v.toNat % 2 ^ (arrayWays s.core.wayrole).length
    (mask ((s.hart h).reg b.toNat) ≠ 0 →
      (∀ w ∈ s.masked (mask ((s.hart h).reg b.toNat)), (s.mt w).state = 0 ∨ (s.mt w).state = 2) →
      ∀ s0, s.settleStores h = some s0 →
      Completes (.msplit a b) s (fun t => ∃ q, s0.Queued h q s.core.shape 0 t ∧ q.w.op = .msplit ∧ q.x0 = x ∧
        q.sel.toNat = mask ((s.hart h).reg b.toNat) ∧ q.shape = s.core.shape)) ∧
    ((∃ w ∈ s.masked (mask ((s.hart h).reg b.toNat)), (s.mt w).state = 1 ∨ (s.mt w).state = 3) →
      TrapsWith (.msplit a b) s h 0x0B) ∧
    Completes (.msetm d a m) s (fun t => ∃ q, s.Queued h q s.core.shape 0 t ∧ q.w.op = .msetm ∧ q.w.b.toNat = m.toNat ∧
      q.x1 = x ∧ q.sel.toNat = mask ((s.hart h).reg d.toNat))) ∧
  (∀ (h : BitVec 1) (d a : BitVec 7) (m : BitVec 3) (s : State), s.Issues h [d, a] → s.hostPort = false →
    (s.hart h).ao = true →
    let x := (s.hart h).reg a.toNat
    ((s.hart h).mb = false → (∀ q ∈ s.core.queue, q.w.op ≠ .msplit) → (∀ w ∈ s.masked x.toNat, (s.mt w).state ≠ 1) →
      ∃ v, WritesNow (.mjoin d a) s h d v ∧ ∀ k, k < 32 →
        (v.getLsbD k = true ↔ ∃ w, s.mtWay k = some w ∧ ((s.mt w).state = 2 ∨ (s.mt w).state = 3)) ∧
        (v.getLsbD (32 + k) = true ↔ ∃ w, s.mtWay k = some w ∧ (s.mt w).state = 3)) ∧
    Completes (.mreset a) s (fun t => (t.hart h).pc = (s.hart h).pc + 4 ∧ (∀ k, (t.hart k).g = (s.hart k).g) ∧
      ∀ w, w ∈ s.masked x.toNat → (t.mt w).m = (s.mt w).m ∧ (t.mt w).link = (s.mt w).link ∧
        ((s.mt w).state = 1 → t.mt w = { s.mt w with stopReq := true }) ∧
        ((s.mt w).state = 2 ∨ (s.mt w).state = 3 → (t.mt w).state = 0 ∧ (t.mt w).fcause = 0)) ∧
    (d ≠ 0 → ∀ e ∈ [(Instr.mgetm d a m, some m), (Instr.mstat d a, none)],
      Completes e.1 s (fun t => (t.hart h).pc = (s.hart h).pc + 4 ∧ (t.hart h).g = (s.hart h).g ∧
        t.hart (other h) = s.hart (other h) ∧ (d.toNat < 64 → (t.hart h).isPending d.toNat = true) ∧
        t.core.answers = s.core.answers ++
          [{ hart := h, reg := BitVec.ofNat 6 d.toNat, num := x.truncate 5, m := e.2, seq := s.core.nextSeq }] ∧
        t.home = s.home))) ∧
  (∀ (k : Nat) (q : QEntry) (s : State), s.core.queue[k]? = some q → s.mayBegin k q = true → q.w.op = .msetm →
    Completes (.arrayInstructionBegin k) s (fun t => t.core.sram = s.core.sram ∧
      ∀ w, t.mt w = if w ∈ s.restWays q then
        { s.mt w with m := Store.set (s.mt w).m (q.w.b.toNat % 8) (q.x1.truncate 32) } else s.mt w)) ∧
  (∀ (k : BitVec 5) (w j : Nat) (q : QEntry) (s : State), s.mtWay k.toNat = some w →
    s.core.queue.findIdx? (fun q => q.w.op == .msplit && bit q.sel.toNat k.toNat) = some j → s.core.queue[j]? = some q →
    (s.mt w).state = 0 ∨ (s.mt w).state = 2 →
    (∀ e ∈ s.core.queue.take j, e.stage = .waiting → w ∉ s.restWays e ∧
      (e.hart = q.hart → e.w.op.stores = true → e.w.op.space = some 0)) →
    Completes (.microThreadRelease k) s (fun t => (∀ v, v ≠ w → t.mt v = s.mt v) ∧
      t.mt w = { s.mt w with
        state := 1, bpc := BitVec.ofNat 22 (q.x0.toNat % 2 ^ 22 / 4 * 4), fcause := 0, widx := 0
        vlp := BitVec.ofNat 13 (min (wf q.shape 0 18) 4096), type := BitVec.ofNat 5 (wf q.shape 18 5), owner := q.hart
        stopReq := false, image := [], pos := 0, fmt := none } ∧
      t.core.queue = (if setBits q.sel.toNat k.toNat 1 0 = 0 then s.core.queue.eraseIdx j
        else s.core.queue.set j { q with sel := BitVec.ofNat 32 (setBits q.sel.toNat k.toNat 1 0) }) ∧
      t.core.sram = s.core.sram ∧ t.home = s.home ∧ t.h0 = s.h0 ∧ t.h1 = s.h1))

/-- R236, R238, R243, R244: the words of block images in a private micro-thread: MSTOP stops it, or takes it to the
broadcast state where MRESET has asked for that, and merges its flags, MNEXT and MBR name the next block, MLINKR reads
a neighbour's LINK and MLINKW writes its own; the integer words compute on 32 bits. R236, R238 to R240: a private
micro-thread fetches the block at BPC up to the first word that ends it, and then runs its words one by one: a scalar
word or a word of Table 10-7 as its instruction with that micro-thread, an array word on its own way from START 0 to
VL_p; a memory word of local scratch or layer space moves its active elements (R329), or faults with cause 3 where one is
misaligned or outside the space; a word that a block image may not hold faults it with cause 1. -/
def Obligations.PrivateBlocks : Prop :=
  ((∀ (w : Nat) (s : State), s.cur = .mt w →
     Completes .mstop s (fun t =>
       (if (s.mt w).stopReq then (t.mt w).state = 0 ∧ (t.mt w).image = [] ∧ (t.mt w).stopReq = false
        else t.mt w = { s.mt w with state := 2, flags := 0, image := [], pos := 0, fmt := none }) ∧
       (t.hart (s.mt w).owner).csr.flags =
         (s.hart (s.mt w).owner).csr.flags ||| (s.mt w).flags.zeroExtend 64 ∧
       (∀ v, v ≠ w → t.mt v = s.mt v) ∧ t.home = s.home ∧ t.core.sram = s.core.sram) ∧
     Completes .mlinkw s (fun t => s.OnlyMt w t ∧ t.mt w = { s.mt w with link := (s.mt w).reg 7 }) ∧
     (∀ (d : BitVec 3) (l : BitVec 1),
       let v := if l = 1 then s.mtWay (s.mtNumber w + 1) else if s.mtNumber w = 0 then none else s.mtWay (s.mtNumber w - 1)
       let x := (v.map (fun v => (s.mt v).link)).getD 0
       Completes (.mlinkr d l) s (fun t => s.OnlyMt w t ∧ t.mt w = { s.mt w with m := Store.set (s.mt w).m d.toNat x })) ∧
     (∀ (a b : BitVec 3), (s.mt w).stopReq = false →
       ∀ e ∈ [(Instr.mnext a, a), (.mbr a b, if (s.mt w).pred then a else b)],
         Completes e.1 s (fun t => s.OnlyMt w t ∧ t.mt w = { s.mt w with
           bpc := BitVec.ofNat 22 (((s.mt w).reg e.2.toNat).toNat / 4 * 4), image := [], pos := 0, fmt := none })) ∧
     (∀ (a b : BitVec 3), (s.mt w).stopReq = true → ∀ i ∈ [Instr.mnext a, .mbr a b],
       Completes i s (fun t => (t.mt w).state = 0 ∧ (t.mt w).image = [] ∧ (∀ v, v ≠ w → t.mt v = s.mt v)))) ∧
   (∀ (w : Nat) (d a b : BitVec 7) (i : BitVec 12) (n : BitVec 6) (u : BitVec 19) (s : State), s.cur = .mt w →
     d.toNat < 8 → a.toNat < 8 → b.toNat < 8 →
     let x := (s.mt w).reg a.toNat
     let y := (s.mt w).reg b.toNat
     let z := (s.mt w).reg d.toNat
     ∀ e ∈ ([(.add d a b, x + y, false), (.sub d a b, x - y, false), (.and d a b, x &&& y, false),
         (.or d a b, x ||| y, false), (.xor d a b, x ^^^ y, false), (.andn d a b, x &&& ~~~y, false),
         (.sll d a b, x <<< (y &&& 31), false), (.srl d a b, x >>> (y &&& 31), false),
         (.sra d a b, x.sshiftRight' (y &&& 31), false), (.slt d a b, if x.toInt < y.toInt then 1 else 0, true),
         (.sltn d a b, if x.toNat < y.toNat then 1 else 0, true), (.min d a b, if y.toInt < x.toInt then y else x, false),
         (.max d a b, if x.toInt < y.toInt then y else x, false), (.minn d a b, if y.toNat < x.toNat then y else x, false),
         (.maxn d a b, if x.toNat < y.toNat then y else x, false), (.addw d a b, x + y, false), (.subw d a b, x - y, false),
         (.cmov d a b, if x = 0 then z else y, false), (.addi d a i, x + i.signExtend 32, false),
         (.andi d a i, x &&& i.zeroExtend 32, false), (.ori d a i, x ||| i.zeroExtend 32, false),
         (.xori d a i, x ^^^ i.zeroExtend 32, false), (.slli d a n, x <<< (n &&& 31), false),
         (.srli d a n, x >>> (n &&& 31), false), (.srai d a n, x.sshiftRight' (n &&& 31), false),
         (.slti d a i, if x.toInt < i.toInt then 1 else 0, true),
         (.lih d u, u.zeroExtend 32 <<< 13, false)] : List (Instr × BitVec 32 × Bool)),
       Completes e.1 s (fun t => s.OnlyMt w t ∧ t.mt w = { s.mt w with
         m := Store.set (s.mt w).m d.toNat e.2.1, pred := if e.2.2 then e.2.1 != 0 else (s.mt w).pred }))) ∧
  ((∀ (k : BitVec 5) (w : Nat) (ws : List IWord) (e : IWord) (s : State), s.mtWay k.toNat = some w →
     (s.mt w).state = 1 → (s.mt w).image = [] → (s.mt w).stopReq = false → s.mtsHeld = false →
     ws.length ≤ 32 → (∀ x ∈ ws, endWord x = false ∧ bits x.toNat 26 6 ≠ 0x1A) → endWord e = true →
     (s.mt w).bpc.toNat + 4 * (ws.length + 1) ≤ s.extent false →
     (∀ i x, (ws ++ [e])[i]? = some x → s.scratchLoad false ((s.mt w).bpc.toNat + 4 * i) 4 = x.toNat) →
     Completes (.blockFetch k) s (fun t => s.OnlyMt w t ∧
       t.mt w = { s.mt w with image := ws ++ [e], pos := 0, fmt := none })) ∧
   (∀ (k : BitVec 5) (w : Nat) (x : IWord) (s u : State) (i : Instr), s.mtWay k.toNat = some w → (s.mt w).state = 1 →
     (s.mt w).image[(s.mt w).pos]? = some x → arrayWord x = none →
     (∀ d a b : BitVec 7, ∀ n : BitVec 12, ∀ m : BitVec 6, ∀ v : BitVec 19, ∀ p q : BitVec 3, ∀ l : BitVec 1,
       i ∈ [Instr.add d a b, .sub d a b, .and d a b, .or d a b, .xor d a b, .andn d a b, .sll d a b, .srl d a b, .sra d a b,
         .slt d a b, .sltn d a b, .min d a b, .max d a b, .minn d a b, .maxn d a b, .addw d a b, .subw d a b, .cmov d a b,
         .addi d a n, .andi d a n, .ori d a n, .xori d a n, .slli d a m, .srli d a m, .srai d a m, .slti d a n, .lih d v,
         .mlinkr p l, .mlinkw, .mnext p, .mbr p q, .mstop] → encode i = x →
       exec i { s with cur := .mt w } = .next u → (u.mt w).state ≠ 3 →
       Completes (.blockFetch k) s (fun t =>
         t = { u with cur := s.cur, core := { u.core with mts := t.core.mts, pcnt := t.core.pcnt } } ∧
         (∀ y, y ≠ w → t.mt y = u.mt y) ∧
         t.mt w = { u.mt w with fmt := none, pos := if endWord x then (u.mt w).pos else (u.mt w).pos + 1 }))) ∧
   (∀ (w : Nat) (a : ArrWord) (s : State), s.cur = .mt w →
     let q := s.privateEntry w a
     let c := s.privateCtx w q
     c.ways = [w] ∧ c.start = 0 ∧ c.vl = (s.mt w).vlp.toNat ∧
     (a.op.privateOk = true → a.op.space = none → (∀ r ∈ a.scalars, r.toNat < 8) → a.scalarDest < 8 →
       a.check (s.mt w).fmt.isSome c.r s.core.scaleg = none →
       ∀ d a' b k j p i, (i, a) ∈ arrayTable d a' b k j p →
         Completes i s (fun t =>
           let r := c.run s.core.sram s.core.gens
           t = { s with core := { s.core with
             sram := r.1.m, gens := r.1.gens, mts := t.core.mts, pcnt := t.core.pcnt } } ∧
           (∀ y, y ≠ w → t.mt y = s.mt y) ∧
           t.mt w = { s.mt w with
             m := if a.op.scalarResult then Store.set (s.mt w).m a.scalarDest (r.2.truncate 32) else (s.mt w).m
             flags := (s.mt w).flags ||| r.1.fl, pred := (t.mt w).pred } ∧
           (a.op.isCompare = true ∨ a.op = .vsearch → ((t.mt w).pred = true ↔
             ∃ e, c.active r.1.m e = true ∧ c.get r.1.m a.d.toNat 1 e = 1)) ∧
           (a.op = .vredsum ∨ a.op = .vmpopc → ((t.mt w).pred = true ↔ r.2.truncate 32 ≠ (0 : BitVec 32))) ∧
           (a.op = .vadd ∨ a.op = .vextr → (t.mt w).pred = (s.mt w).pred))) ∧
     (w < 32 → s.role w = 2 → a.op ∈ [ArrOp.vldl, .vldy, .vldys, .vstl, .vsty, .vstys] → (∀ r ∈ a.scalars, r.toNat < 8) →
       a.check (s.mt w).fmt.isSome c.r s.core.scaleg = none → 8 ≤ width q.memType → s.elemHeld a.op w = false →
       let layer := a.op.space == some 2
       let n := width q.memType / 8
       let at_ (e : Nat) : Nat := (q.elementAt c s.core.sram e).toNat
       let good (e : Nat) : Prop := at_ e % n = 0 ∧ at_ e + n ≤ s.extent layer
       let on (e : Nat) : Bool := c.active s.core.sram e
       let old (e : Nat) : Nat := c.get s.core.sram a.d.toNat (8 * n) e
       ∀ d a' b p i, (i, a) ∈ arrayMemTable d a' b p →
         ((∃ e, on e = true ∧ ¬good e) → Completes i s (fun t => (t.mt w).state = 3 ∧ (t.mt w).fcause = 3 ∧
           (∀ y, y ≠ w → t.mt y = s.mt y) ∧ t.core.sram = s.core.sram ∧ t.home = s.home)) ∧
         ((∀ e, on e = true → good e) → a.op.loads = true → Completes i s (fun t => (∀ y, t.mt y = s.mt y) ∧
           t.home.mem = s.home.mem ∧ RowsKept c (a.d.toNat, 2 * n) s.core.sram t.core.sram ∧
           ∀ e, e < 4096 → c.get t.core.sram a.d.toNat (8 * n) e = if on e then s.scratchLoad layer (at_ e) n else old e)) ∧
         ((∀ e, on e = true → good e) → a.op.loads = false →
           (∀ e f, on e = true → on f = true → e < f → at_ e + n ≤ at_ f ∨ at_ f + n ≤ at_ e) →
           Completes i s (fun t => (∀ y, t.mt y = s.mt y) ∧
             (∀ e, on e = true → t.scratchLoad layer (at_ e) n = old e) ∧
             (∀ b, (∀ e, on e = true → b < s.scratchKey layer (at_ e) ∨ s.scratchKey layer (at_ e) + n ≤ b) →
               Memory.byte t.core.sram b = Memory.byte s.core.sram b) ∧
             ((layer && s.relocated) = false → t.home.mem = s.home.mem) ∧
             ((layer && s.relocated) = true → t.core.sram = s.core.sram)))) ∧
     (a.op.privateOk = false → ∀ d a' b k j p i, (i, a) ∈ arrayMemTable d a' b p ++ arrayTable d a' b k j p →
       Completes i s (fun t => (t.mt w).state = 3 ∧ (t.mt w).fcause = 1 ∧ (∀ y, y ≠ w → t.mt y = s.mt y) ∧
         t.core.sram = s.core.sram ∧ t.home = s.home))))

/-- R249, R254, R256, R260, R264 to R266: the words of the tile unit take their place in the matrix queue when their
checks hold, and trap as 0x0B when the rows they ask for or use are not theirs; TWAIT goes on when nothing that it
names is pending, and sleeps otherwise. R51, R249, R255, R264: an accepted word that need not come after an earlier one
completes (which of several is the model's choice, a free value, log entry 161): it leaves the queue, its flags merge and
its result arrives. A request of another cluster position is granted when that position holds no rows, and its release
frees them; where this core's head can start and its position comes first in the round-robin, the other waits (R258).
(The operand of TILE_ACCEPT codes such a request, 0 a release, which is the model's choice, log entry 153.) -/
def Obligations.TileWords : Prop :=
  (∀ (h : BitVec 1) (d a b : BitVec 7) (t : BitVec 1) (s : State), s.Owns h 2 [d, a, b] → s.hostPort = false →
     let x := ((s.hart h).reg a.toNat).toNat
     let y := ((s.hart h).reg b.toNat).toNat
     let v := s.vlmax (wf s.core.shape 23 2)
     let first := wf s.core.tgrant 8 7
     (∀ n, s.grantAfter = some n →
       (x ∉ [16, 32, 64, 128] ∨ n ≠ 0 → TrapsWith (.tattach d a) s h 0x0B) ∧
       (∀ e ∈ [(Instr.tmma t a b, aw .tmma (t.zeroExtend 7) a b 0 0 0, 8 * (first + n) + wf s.core.tshape 0 18 ≤ v ∧
             wf s.core.tshape 32 18 + 256 ≤ v),
           (.tzero t, aw .tzero (t.zeroExtend 7) 0 0 0 0 0, True),
           (.tread d t b, aw .tread d (t.zeroExtend 7) b 0 0 0, y < n),
           (.tload t a b, aw .tload (t.zeroExtend 7) a b 0 0 0, y < n)],
         s.wordCheck h e.2.1 = none → n = 0 ∨ ¬e.2.2 → TrapsWith e.1 s h 0x0B) ∧
       (s.core.mqueue.length < Config.matrixQueueEntries →
         (x ∈ [16, 32, 64, 128] → n = 0 → Completes (.tattach d a) s (fun u => ∃ q, s.QueuedTile h q d.toNat u ∧
           q.w.op = .tattach ∧ q.x0.toNat = x ∧ q.dest = BitVec.ofNat 6 d.toNat)) ∧
         (∀ e ∈ [(Instr.tmma t a b, aw .tmma (t.zeroExtend 7) a b 0 0 0, 8 * (first + n) + wf s.core.tshape 0 18 ≤ v ∧
               wf s.core.tshape 32 18 + 256 ≤ v),
             (.tzero t, aw .tzero (t.zeroExtend 7) 0 0 0 0 0, True),
             (.tread d t b, aw .tread d (t.zeroExtend 7) b 0 0 0, y < n),
             (.tload t a b, aw .tload (t.zeroExtend 7) a b 0 0 0, y < n)],
           s.wordCheck h e.2.1 = none → n ≠ 0 → e.2.2 → Completes e.1 s (fun u => ∃ q, s.QueuedTile h q 0 u ∧
             q.w = e.2.1 ∧ q.fmt = (s.hart h).fmt.map (·.bits) ∧ (q.w.op = .tread ∨ q.w.op = .tload → q.x0.toNat = y))))) ∧
     (s.core.mqueue.length < Config.matrixQueueEntries → Completes .tdetach s (fun u => ∃ q, s.QueuedTile h q 0 u ∧
       q.w.op = .tdetach)) ∧
     let busy := s.core.mqueue.any (fun q => q.tile == some t.toNat || q.w.op == .tattach || q.w.op == .tdetach)
     (busy = false → OnlyAdvances (.twait t) s h) ∧
     (busy = true → Completes (.twait t) s (fun u => s.OnlyHart h u ∧ u.hart h = { s.hart h with run := .asleep .retry }))) ∧
  ((∀ (s : State),
     let ends (k : Nat) (q : QEntry) : Prop := s.core.mqueue[k]? = some q ∧ q.stage = .begun ∧
       ∀ e ∈ s.core.mqueue.take k, ¬(q.tile.isSome = true ∧ e.tile = q.tile ∧ e.w.op ≠ .tread ∧ q.w.op ≠ .tread)
     (∃ k q, ends k q) → ∃ k q, ends k q ∧
     Completes .tileWordComplete s (fun t =>
       t.core = { s.core with mqueue := s.core.mqueue.eraseIdx k, pcnt := t.core.pcnt } ∧
       ({ s with core := t.core, free := t.free }).OnlyHart q.hart t ∧
       (t.hart q.hart).csr = { (s.hart q.hart).csr with
         flags := (s.hart q.hart).csr.flags ||| q.flags.zeroExtend 64, pcnt := (t.hart q.hart).csr.pcnt } ∧
       (∀ r, (t.hart q.hart).reg r = if r = q.dest.toNat ∧ r ≠ 0 then q.value else (s.hart q.hart).reg r) ∧
       (∀ r, r < 64 → (t.hart q.hart).isPending r =
         ((s.hart q.hart).isPending r && decide (r ≠ q.dest.toNat))))) ∧
   (∀ (p : BitVec 2) (rows : BitVec 8) (s : State), p.toNat ≠ s.position →
     let first := s.headStarts && decide (s.turnOf s.position < s.turnOf p.toNat)
     (first = true → exec (.tileAccept p rows) s = .next s) ∧
     (first = false → Completes (.tileAccept p 0) s (fun t => ∀ b, b < 8 → (Store.get t.tile.owner b).toNat ≠ p.toNat + 1) ∧
     ((∀ b, b < 8 → (Store.get s.tile.owner b).toNat ≠ p.toNat + 1) → rows.toNat ∈ [16, 32, 64, 128] →
       Completes (.tileAccept p rows) s (fun t => t.tile.lastPos = p ∧ t.core = s.core ∧ t.h0 = s.h0 ∧ t.h1 = s.h1 ∧
         ∀ f c, s.tile.grant rows.toNat = some (f, c) → f % 16 = 0 → ∀ b, b < 8 → f ≤ 16 * b → 16 * b < f + c →
           Store.get t.tile.owner b = BitVec.ofNat 3 (p.toNat + 1))))))

/-- R54, R247 to R249, R255, R258 to R263, R266: what the accepted words of the core do: TATTACH takes the first free
block of the most rows and clears it, TDETACH gives the rows back, TZERO clears them, TMMA adds the eight products of
each cell, TLOAD and TREAD move rows between accumulators and array elements. (The step of the rounding generators, and
that the rows of a column draw from its generator in ascending order, are the model's choice, log entries 117 and 161.) -/
def Obligations.TileEffects : Prop :=
  ∀ (k : Nat) (q : QEntry) (s : State), s.tileHead = some k → s.core.mqueue[k]? = some q → s.canStart k q = true →
    let f := wf s.core.tgrant 8 7
    let n := wf s.core.tgrant 0 8
    let acc (t : State) (u i j : Nat) : Nat := (Store.get t.tile.acc (accKey u i j)).toNat
    let c := s.tileCtx q
    let m := s.core.sram
    let mine (i : Nat) : Prop := f ≤ i ∧ i < f + n
    f + n ≤ 128 →
    (q.w.op = .tattach → s.Accepts k (fun t r =>
      (∀ first rows, s.tile.grant q.x0.toNat = some (first, rows) →
        r.value = BitVec.ofNat 64 rows ∧ t.core.tgrant = BitVec.ofNat 64 (rows + first * 256) ∧
        (first + rows ≤ 128 → ∀ u i j, u < 2 → i < 128 → j < 256 →
          acc t u i j = if first ≤ i ∧ i < first + rows then 0 else acc s u i j)) ∧
      (s.tile.grant q.x0.toNat = none → r.value = 0 ∧ t.core.tgrant = 0 ∧ t.tile.acc = s.tile.acc))) ∧
    (q.w.op = .tdetach → s.Accepts k (fun t _ => t.core.tgrant = 0 ∧ t.tile.acc = s.tile.acc ∧
      ∀ b, b < 8 → (Store.get t.tile.owner b).toNat ≠ s.position + 1)) ∧
    (q.w.op = .tzero → s.Accepts k (fun t _ => ∀ u i j, u < 2 → i < 128 → j < 256 →
      ((u = q.w.d.toNat % 2 ∧ mine i) → acc t u i j = 0) ∧ (¬(u = q.w.d.toNat % 2 ∧ mine i) → acc t u i j = acc s u i j))) ∧
    (q.w.op = .tmma → s.Accepts k (fun t r => t.core.sram = m ∧ ∃ gen : Nat → Nat → Nat,
      (∀ j, gen f j = genValue s.tile.gens j) ∧
      (∀ i j, f ≤ i → gen (i + 1) j = if isFloat c.r.t1 = true ∧ c.r.mode = 5 then
        genValue (Store.set [] j (BitVec.ofNat 16 (lfsrStep (gen i j)))) j else gen i j) ∧
      (∀ u i j, u < 2 → i < 128 → j < 256 →
        ((u = q.w.d.toNat % 2 ∧ mine i) → acc t u i j =
          (tmmaCell c m q.tshape q.bandsc i j (gen i j) (acc s u i j)).1 % 2 ^ 32 ∧
          (isFloat c.r.t1 = false → acc t u i j =
            ((intOf 8 (acc s u i j) + ((tmmaPairs c m q.tshape i j).map (fun p => intOf c.r.t1 p.1 * intOf c.r.t2 p.2)).sum) %
              (2 ^ 32 : Nat)).toNat)) ∧
        (¬(u = q.w.d.toNat % 2 ∧ mine i) → acc t u i j = acc s u i j)) ∧
      ∀ b, b < 6 → (r.flags.getLsbD b = true ↔ ∃ i j, mine i ∧ j < 256 ∧
        (tmmaCell c m q.tshape q.bandsc i j (gen i j) (acc s (q.w.d.toNat % 2) i j)).2.getLsbD b = true))) ∧
    (q.w.op = .tload → s.Accepts k (fun t _ => ∀ u i j, u < 2 → i < 128 → j < 256 →
      let e := 256 * (i - f - q.x0.toNat) + j
      acc t u i j = if u = q.w.d.toNat % 2 ∧ f + q.x0.toNat ≤ i ∧ i < f + n ∧ c.inRange e then
        c.get m q.w.a.toNat 32 e % 2 ^ 32 else acc s u i j)) ∧
    (q.w.op = .tread → q.w.check q.fmt.isSome q.res q.scaleg = none →
      (∀ e ∈ s.core.mqueue.take k, e.tile = q.tile → e.w.op = .tread) → s.Accepts k (fun t _ =>
        t.tile.acc = s.tile.acc ∧ RowsKept c c.dst m t.core.sram ∧ ∀ e, c.inSel e = true →
          c.get t.core.sram c.dst.1 (4 * c.dst.2) e =
            if c.inRange e then
              (if f + q.x0.toNat + e / 256 < f + n then
                (convert c.r.t1 c.r.td c.r.mode (genValue s.core.gens (c.column e)) c.r.sat none
                  (acc s (q.w.a.toNat % 2) (f + q.x0.toNat + e / 256) (e % 256))).1 % 2 ^ (4 * c.dst.2)
               else 0)
            else c.get m c.dst.1 (4 * c.dst.2) e))

/-- R337, R339, R343, R353 to R356: CPY, behind its hart's scratch stores (R308), takes the lowest free slot for the command block that it reads, sends the
promise to gd and the ticket to CPYT; it traps with the detail of the first check that fails. CPYW waits for its
ticket or traps as 0x0C when the tick has passed, or has come and the transfer is not over (R469; not while its context
is suspended, log entry 150), CPYQ sends the state and promise of a
live ticket, CPYX asks for a cancellation. R351: after a restore the promise is missed only when the replacement
promise has passed too. -/
def Obligations.CopyQueue : Prop :=
  (∀ (h : BitVec 1) (d a : BitVec 7) (s s0 : State), s.Issues h [d, a] → s.settleStores h = some s0 →
    let o := ((s.hart h).reg a.toNat).toNat
    let c := s0.readCmd o
    o % 64 = 0 → s0.within false o 64 = true → s0.interlocked 1 o (o + 64) false = false →
    s0.arrayTouches 1 o 64 = false →
    (c.op = 3 → (s.hart h).pl = 2 → Completes (.cpy d a) s (fun t => s0.OnlyHart h t ∧
      (s0.hart h).Entered 0x02 0 (t.hart h) ∧ (s0.hart h).FaultKept (t.hart h))) ∧
    (¬(c.op = 3 ∧ (s.hart h).pl = 2) → ∀ n, c.shapeDetail = some n → Completes (.cpy d a) s (fun t => s0.OnlyHart h t ∧
      (s0.hart h).Entered 0x0B n (t.hart h) ∧ (s0.hart h).FaultKept (t.hart h))) ∧
    (¬(c.op = 3 ∧ (s.hart h).pl = 2) → c.shapeDetail = none → c.srcRange.bind s0.rangeOutside = none →
      s0.rangeOutside c.dstRange = none → (c.overlaps = true → Completes (.cpy d a) s (fun t => s0.OnlyHart h t ∧
        (s0.hart h).Entered 0x0B 5 (t.hart h))) ∧
      (c.overlaps = false → ∀ k, k < 64 → s.copySlot k = none → (∀ j, j < k → (s.copySlot j).isSome) →
        Completes (.cpy d a) s (fun t => (t.hart h).pc = (s.hart h).pc + 4 ∧ (t.hart h).g = (s.hart h).g ∧
          (t.hart h).csr.cpyt = BitVec.ofNat 64 (s.copy.nextSeq.toNat * 64 + k) ∧
          (∀ j, j ≠ k → t.copySlot j = s.copySlot j) ∧ t.home = s0.home ∧ t.cache = s.cache ∧ t.core.sram = s0.core.sram ∧
          t.hart (other h) = s.hart (other h) ∧ ∃ r, t.copySlot k = some r ∧ r.seq = s.copy.nextSeq ∧ r.ranges = c.ranges ∧
            r.block = o ∧ r.cid = s.cid16 ∧ r.stage = .waiting ∧ r.progress = 0 ∧ r.nsat = 0 ∧ r.cancel = false ∧
            r.ended = false ∧ r.hart = h ∧ r.level.toNat = (s.hart h).pl ∧
            r.cmd = { c with ctl := r.cmd.ctl } ∧ r.cmd.op = c.op ∧ r.cmd.dtype = c.dtype ∧ r.cmd.stype = c.stype ∧
            (d ≠ 0 → (t.hart h).late = (s.hart h).late ++
              [{ reg := BitVec.ofNat 6 d.toNat, val := BitVec.ofNat 64 r.promise, flags := 0 }]))))) ∧
  (∀ (h : BitVec 1) (d a b : BitVec 7) (s : State), s.Issues h [d, a, b] →
    let x := (s.hart h).reg a.toNat
    let y := (s.hart h).reg b.toNat
    (s.liveTicket y = none → OnlyAdvances (.cpyw a b) s h) ∧
    (∀ k c, s.liveTicket y = some (k, c) →
      let due := if c.resumed then max x.toNat c.replacement else x.toNat
      let late := (due < s.ctr.cycle.toNat ∨ (due = s.ctr.cycle.toNat ∧ c.over = false)) ∧ c.paused = false
      (¬late → Completes (.cpyw a b) s (fun t => s.OnlyHart h t ∧
        t.hart h = { s.hart h with run := .asleep (.cpyw x (y.truncate 32)) })) ∧
      (late → Completes (.cpyw a b) s (fun t => ({ s with copy := t.copy }).OnlyHart h t ∧
        t.copySlot k = some { c with missedAt := some s.ctr.cycle.toNat } ∧ (∀ j, j ≠ k → t.copySlot j = s.copySlot j) ∧
        (s.hart h).Entered 0x0C 0 (t.hart h) ∧ (t.hart h).csr.faddr = y))) ∧
    (s.liveTicket x = none → WritesLate (.cpyq d a) s h d 0 0 ∧ OnlyAdvances (.cpyx a) s h) ∧
    (∀ k c, s.liveTicket x = some (k, c) →
      (∃ n, 1 ≤ n ∧ n ≤ 4 ∧ (c.cancel = true ↔ n = 4) ∧ (c.cancel = false → (n = 1 ↔ c.stage = .waiting)) ∧
        (c.cancel = false → (n = 2 ↔ c.stage = .running)) ∧
        WritesLate (.cpyq d a) s h d (BitVec.ofNat 64 (n * 2 ^ 60 + c.promise % 2 ^ 56)) 0) ∧
      Completes (.cpyx a) s (fun t => t.copySlot k = some { c with cancel := true } ∧
        (∀ j, j ≠ k → t.copySlot j = s.copySlot j) ∧ ({ s with copy := t.copy }).Passed h t))) ∧
  (∀ (h : BitVec 1) (x : Word) (ticket : BitVec 32) (k : Nat) (c : CopySlot) (s : State),
    (s.hart h).run = .asleep (.cpyw x ticket) → s.liveTicket (ticket.zeroExtend 64) = some (k, c) →
    let due := if c.resumed then max x.toNat c.replacement else x.toNat
    let late := (due < s.ctr.cycle.toNat ∨ (due = s.ctr.cycle.toNat ∧ c.over = false)) ∧ c.paused = false
    (late → Completes (.promiseMissed h) s (fun t => ({ s with copy := t.copy }).OnlyHart h t ∧
      t.copySlot k = some { c with missedAt := some s.ctr.cycle.toNat } ∧ (∀ j, j ≠ k → t.copySlot j = s.copySlot j) ∧
      (s.hart h).Entered 0x0C 0 (t.hart h) ∧ (t.hart h).csr.faddr = ticket.zeroExtend 64)) ∧
    (¬late → exec (.promiseMissed h) s = .next s))

/-- R340, R341, R345, R346: a chunk of a plain copy between places of local scratch, of layer space, relocated or not, and
of global memory on MS pages gives each of its destination elements the bytes of its source element, or 0 outside the
valid window, and changes no other byte; a conversion rounds or clamps the scaled source value (the sign of a zero that
no rule signs is the model's reading, log entry 118). At the end RESULT is written and the slot is free; a CPYW of the
ticket goes on, and a transfer that a CPYW has missed completes at a later tick (R469). -/
def Obligations.CopyTransfer : Prop :=
  (∀ (k : BitVec 6) (c : CopySlot) (s : State), s.copySlot k.toNat = some c → c.paused = false → c.over = false →
    c.stage = .running ∨ (c.stage = .waiting ∧ s.startHeld c.hart c.order c.cid c.ranges = false) →
    s.behindRole c.order = false → (s.layerHeld = false ∨ ∀ r ∈ c.ranges, r.space ≠ 2) →
    c.cmd.op = 0 → c.cmd.sspace < 3 → c.cmd.dspace < 3 → 8 ≤ width c.cmd.dtype → c.cmd.stype = c.cmd.dtype →
    (c.cmd.sspace = 0 ∨ c.cmd.dspace = 0 → s.home.frames = [] ∧ s.home.llc = []) → c.nsat < 2 ^ 32 →
    let n := width c.cmd.dtype / 8
    let lo := c.progress * c.cmd.perChunk
    let hi := min (lo + c.cmd.perChunk) (c.cmd.rows * c.cmd.cols)
    let src (p : Nat) : Nat := (c.cmd.src + BitVec.ofNat 64 (p / c.cmd.cols) * c.cmd.sstride).toNat + n * (p % c.cmd.cols)
    let valid (p : Nat) : Bool := decide (p / c.cmd.cols < c.cmd.vr) && decide (p % c.cmd.cols < c.cmd.vc)
    let dst (p : Nat) : Nat :=
      if c.cmd.trans then (c.cmd.dst + BitVec.ofNat 64 (p % c.cmd.cols) * c.cmd.dstride).toNat + n * (p / c.cmd.cols)
      else (c.cmd.dst + BitVec.ofNat 64 (p / c.cmd.cols) * c.cmd.dstride).toNat + n * (p % c.cmd.cols)
    let entry (va : Nat) : Option TlbEntry := s.mmu.tlb.find? (fun t => t.covers va c.cid)
    let reach (space : Nat) (acc : Acc) (a : Nat) : Prop :=
      if space = 0 then a % n = 0 ∧ a + n ≤ 2 ^ 64 ∧ canonical (BitVec.ofNat 64 a) = true ∧
        ∃ t, entry a = some t ∧ permits t.leaf acc c.level.toNat = true ∧ (t.trans a).ms = true ∧ (t.trans a).mmio = false ∧
          s.readError (t.trans a).name = none ∧ s.findLine ((t.trans a).name / 256) = none
      else a + n ≤ s.extent (space == 2)
    let key (space a j : Nat) : Bool × Nat :=
      if space = 0 then (true, s.homeKey (((entry a).map (fun t => (t.trans a).name)).getD 0) + j)
      else if space = 2 ∧ s.relocated = true then (true, s.slotKey (s.scratchKey true (a + j)))
      else (false, s.scratchKey (space == 2) (a + j))
    let byte (u : State) (k : Bool × Nat) : Byte := if k.1 then Memory.byte u.home.mem k.2 else Memory.byte u.core.sram k.2
    let dest (p j : Nat) : Bool × Nat := key c.cmd.dspace (dst p) j
    let at_ (p j : Nat) : Bool × Nat := key c.cmd.sspace (src p) j
    let inside (p j : Nat) : Prop := lo ≤ p ∧ p < hi ∧ j < n
    (∀ p, lo ≤ p → p < hi → reach c.cmd.dspace .write (dst p) ∧ (valid p = true → reach c.cmd.sspace .read (src p))) →
    (∀ p j q i, inside p j → inside q i →
      ((p, j) ≠ (q, i) → dest p j ≠ dest q i) ∧ (valid q = true → dest p j ≠ at_ q i)) →
    Completes (.copyChunk k) s (fun t =>
      (∀ p j, inside p j → byte t (dest p j) = if valid p then byte s (at_ p j) else 0) ∧
      (∀ b, (∀ p j, inside p j → b ≠ dest p j) → byte t b = byte s b) ∧
      t.copySlot k.toNat = some { c with stage := .running, progress := c.progress + 1, attempt := 0 } ∧
      (∀ j, j ≠ k.toNat → t.copySlot j = s.copySlot j) ∧ s.HartsKept t ∧ t.cache = s.cache ∧
      (c.cmd.dspace ≠ 0 → t.h0 = s.h0 ∧ t.h1 = s.h1) ∧ (c.cmd.sspace = 1 → c.cmd.dspace = 1 → t.home = s.home))) ∧
  (∀ (c : CopyCmd) (b : Nat),
    let m := if c.rnd = 5 then 0 else c.rnd
    let v : Machine.Num := if c.scl then (Machine.Num.mul (m == 2) (val c.stype b) (val 0x16 c.scale.toNat)).1
      else if !isFloat c.stype && (val c.stype b).isZero then .fin (m == 2) 0 0 else val c.stype b
    (c.op = 0 → c.value b = (b, false)) ∧
    (c.op = 1 → isFloat c.dtype = true → (c.value b).1 = (roundF c.dtype m 0 c.sat v false).1) ∧
    (c.op = 1 → isInt c.dtype = true → isFloat c.stype = true → (c.value b).1 = (toint c.dtype m 0 v).1) ∧
    (c.op = 1 → isInt c.dtype = true → isInt c.stype = true → c.scl = false → (c.value b).1 =
      if c.sat then (satInt c.dtype (intOf c.stype b)).1
      else (intOf c.stype b % (2 ^ width c.dtype : Nat)).toNat)) ∧
  (∀ (k : BitVec 6) (c : CopySlot) (s : State), s.copySlot k.toNat = some c → c.paused = false →
    c.cancel = true ∨ c.ended = true ∨ c.cmd.chunks ≤ c.progress → c.block + 0x40 ≤ s.extent false → c.block % 64 = 0 →
    (c.missedAt = some s.ctr.cycle.toNat → exec (.copyComplete k) s = .next s) ∧
    (c.missedAt ≠ some s.ctr.cycle.toNat → Completes (.copyComplete k) s (fun t => t.copySlot k.toNat = none ∧
      (∀ j, j ≠ k.toNat → t.copySlot j = s.copySlot j) ∧
      t.scratchLoad false (c.block + 0x38) 8 =
        min (c.nsat + c.attempt) (2 ^ 32 - 1) * 2 ^ 16 + (if c.cancel then 1 else c.status.toNat) ∧
      (∀ b, b < s.scratchKey false (c.block + 0x38) ∨ s.scratchKey false (c.block + 0x38) + 8 ≤ b →
        Memory.byte t.core.sram b = Memory.byte s.core.sram b) ∧ t.home = s.home ∧
      ∀ h x, (s.hart h).run = .asleep (.cpyw x (BitVec.ofNat 32 (c.seq.toNat * 64 + k.toNat))) →
        (t.hart h).run = .running ∧ (t.hart h).pc = (s.hart h).pc + 4 ∧ (t.hart h).g = (s.hart h).g)))

/-- R349, R405, R408, R411, R427: a fault of a transfer stalls it on a record with the core's next sequence number; a
reply to an outstanding record of the running context ends the record, and its agent goes on (retry) or ends with
status 2 (abort), a stream whose completion word waits on it too (log entry 158); one to no outstanding record, or for a context without a spill area (log entry 76), is discarded and
changes nothing else. -/
def Obligations.FaultReplies : Prop :=
  (∀ (k : BitVec 6) (c : CopySlot) (x : CopyRun) (cause row col : Nat) (dst : Bool) (va : Word) (s : State),
    s.copySlot k.toNat = some c → c.paused = false → c.over = false → c.stage = .running → c.cmd.op ≠ 3 → cause < 256 →
    s.behindRole c.order = false → (∀ r ∈ c.ranges, r.space ≠ 2) → s.runChunk c = x → x.wait = false → x.fault = some (cause, dst, row, col, va) →
    x.s.canDeposit = true → bit x.s.mgmt.fmode.toNat 0 = false →
    Completes (.copyChunk k) s (fun t =>
      t.copySlot k.toNat = some { c with stage := .stalled x.s.mmu.nextSeq, attempt := max c.attempt x.nsat } ∧
      t.mmu.nextSeq = x.s.mmu.nextSeq + 1 ∧ ∃ r, t.mmu.queue = x.s.mmu.queue ++ [r] ∧ r.w0 = va ∧
        r.seq = x.s.mmu.nextSeq ∧ r.tag = (ticketOf c.seq k.toNat).toNat ∧ r.cause = cause % 256 ∧ r.source = 2 ∧
        r.cid = c.cid)) ∧
  (∀ (w : BitVec 64) (m : ReplyMsg × Nat) (r : FaultRec) (s : State),
    s.net.replies.zipIdx.find? (fun e => e.1.word == w && s.firstReply e.2 e.1) = some m → wf w 32 16 = s.cid16.toNat →
    s.core.preempted = false → wf w 16 2 < 2 → s.outstanding (BitVec.ofNat 16 (wf w 0 16)) = some r →
    let q := BitVec.ofNat 16 (wf w 0 16)
    let abort := wf w 16 2 = 1
    (r.source = 2 → ∀ c, s.copySlot (r.tag % 64) = some c → c.stage = .stalled q → c.cancel = false →
      Completes (.faultReply w) s (fun t => (∀ x ∈ t.mmu.queue, x.seq ≠ q) ∧
        (∀ x ∈ s.mmu.queue, x.seq ≠ q → x ∈ t.mmu.queue) ∧ (∀ j, j ≠ r.tag % 64 → t.copySlot j = s.copySlot j) ∧
        ∃ e, t.copySlot (r.tag % 64) = some e ∧ e.stage = .running ∧ e.progress = c.progress ∧ c.promise ≤ e.promise ∧
          (abort → e.ended = true ∧ e.status = 2) ∧ (¬abort → e.ended = c.ended ∧ e.status = c.status))) ∧
    (∀ h : BitVec 1, r.source = h.toNat → (s.hart h).run = .parked (some q) →
      Completes (.faultReply w) s (fun t => (t.hart h).run = .running ∧ (t.hart h).g = (s.hart h).g ∧
        (¬abort → (t.hart h).pc = (s.hart h).csr.epc ∧ (t.hart h).pl = (s.hart h).pl) ∧
        (abort → (t.hart h).csr.cause = BitVec.ofNat 64 r.cause ∧ (t.hart h).csr.epc = (s.hart h).csr.epc ∧
          (t.hart h).pl = enteredLevel r.cause (s.hart h).pl))) ∧
    (r.source = 3 → ∀ c, s.streamSlot (r.tag % 8) = some c →
      (∀ u, c.doneOn ≠ some q → c.units.findIdx? (fun u => u.stage == .stalled q) = some u →
        Completes (.faultReply w) s (fun t => ∃ e, t.streamSlot (r.tag % 8) = some e ∧
          (abort → e = c.endWith 2) ∧ (¬abort → e = c.setUnit u .waiting))) ∧
      (c.doneOn = some q → Completes (.faultReply w) s (fun t =>
        t.streamSlot (r.tag % 8) = if wf w 16 2 = 1 then none else some { c with doneOn := none })))) ∧
  (∀ (w : BitVec 64) (m : ReplyMsg × Nat) (s : State),
    s.net.replies.zipIdx.find? (fun e => e.1.word == w && s.firstReply e.2 e.1) = some m →
    (if wf w 32 16 = s.cid16.toNat ∧ s.core.preempted = false then s.outstanding (BitVec.ofNat 16 (wf w 0 16)) = none
     else s.parkArea (BitVec.ofNat 16 (wf w 32 16)) = none) →
    exec (.faultReply w) s = .next { s with net := { s.net with replies := s.net.replies.eraseIdx m.2 } }) ∧
  (∀ (w : BitVec 64) (s : State), (∀ m ∈ s.net.replies, m.word ≠ w) → exec (.faultReply w) s = .next s)

/-- R358 to R362, R369: NSEND, NPUT and NINT check the destination, NSEND and NPUT the length, and all of them the send
queue, each with its trap, and then send the payload from local scratch, behind the hart's own scratch stores (R308), or
the message, under one new entry of the hart's send queue; NPUT divides its payload into packets of at most 256 bytes
whose landings follow one another. -/
def Obligations.NetworkSend : Prop :=
  (∀ (h : BitVec 1) (d a b : BitVec 7) (s s0 : State), s.Issues h [d, a, b] → s.settleStores h = some s0 →
    let w := (s.hart h).reg a.toNat
    let o := ((s.hart h).reg b.toNat).toNat
    let n := ((s.hart h).reg d.toNat).toNat
    let bytes := (List.range n).map (fun i => BitVec.ofNat 8 (s0.scratchLoad false (o + i) 1))
    let x := wf w 38 4
    let traps (i : Instr) (c k : Nat) : Prop := Completes i s (fun t => s0.OnlyHart h t ∧ (s0.hart h).Entered c k (t.hart h))
    let sent (vn : BitVec 2) (t : State) : Prop :=
      t.net.nextEntry = s.net.nextEntry + 1 ∧ ({ s0 with net := t.net }).Passed h t ∧
      ∃ ps, t.net.flight = s.net.flight ++ ps ∧
        t.net.entries = s.net.entries ++ [(s.net.nextEntry, h, vn, ps.length)] ∧
        (∀ p ∈ ps, p.entry = s.net.nextEntry ∧ p.hart = h ∧ p.dest = w ∧ p.score = s.core.coreId)
    let readable := s0.within false o n = true ∧ s0.interlocked 1 o (o + n : Nat) false = false ∧ s0.arrayTouches 1 o n = false
    let fits := n % 8 = 0 ∧ 8 ≤ n ∧ n ≤ 4096 ∧ (x = 6 → 16 ≤ n)
    (sendFields w = false ∨ s.destOk w = false → Completes (.nsend d a b) s (fun t => s0.OnlyHart h t ∧
      (s0.hart h).Entered 0x07 0 (t.hart h) ∧ (t.hart h).csr.faddr = w)) ∧
    (putFields w = false ∨ s.destOk w = false → Completes (.nput d a b) s (fun t => s0.OnlyHart h t ∧
      (s0.hart h).Entered 0x07 0 (t.hart h) ∧ (t.hart h).csr.faddr = w)) ∧
    (sendFields w = true → s.destOk w = true →
      (n = 0 ∨ 248 < n → traps (.nsend d a b) 0x0B 8) ∧
      (1 ≤ n → n ≤ 248 → readable →
        (s.sendFull h (BitVec.ofNat 2 (wf w 40 1)) = true → traps (.nsend d a b) 0x0D 0) ∧
        (s.sendFull h (BitVec.ofNat 2 (wf w 40 1)) = false → Completes (.nsend d a b) s (fun t =>
          sent (BitVec.ofNat 2 (wf w 40 1)) t ∧ ∃ p, t.net.flight = s.net.flight ++ [p] ∧
            p.body = .nsend (BitVec.ofNat 1 (wf w 40 1)) (BitVec.ofNat 32 (wf w 0 32)) bytes)))) ∧
    (putFields w = true → s.destOk w = true →
      (¬fits → traps (.nput d a b) 0x0B 8) ∧
      (fits → o % 8 = 0 → readable →
        (s.sendFull h 2 = true → traps (.nput d a b) 0x0D 0) ∧
        (s.sendFull h 2 = false → Completes (.nput d a b) s (fun t => sent 2 t ∧
          (x ≠ 6 → ∃ ps : List Packet, t.net.flight = s.net.flight ++ ps ∧ ps.length = (n + 255) / 256 ∧
            ∀ (k : Nat) (p : Packet), ps[k]? = some p →
              p.body = .nput (BitVec.ofNat 4 x) (wf w 0 22 + (if x = 1 then 128 else if x = 2 then 512 else 256) * k)
                ((bytes.drop (256 * k)).take 256))))))) ∧
  (∀ (h : BitVec 1) (a b : BitVec 7) (s : State), s.Issues h [a, b] → (s.hart h).pl ≤ 1 →
    let w := (s.hart h).reg a.toNat
    (nintFields w = false ∨ s.destOk w = false → Completes (.nint a b) s (fun t => s.OnlyHart h t ∧
      (s.hart h).Entered 0x07 0 (t.hart h) ∧ (t.hart h).csr.faddr = w)) ∧
    (nintFields w = true → s.destOk w = true → s.sendFull h 3 = true → Completes (.nint a b) s (fun t => s.OnlyHart h t ∧
      (s.hart h).Entered 0x0D 0 (t.hart h))) ∧
    (nintFields w = true → s.destOk w = true → s.sendFull h 3 = false → Completes (.nint a b) s (fun t =>
      ({ s with net := t.net }).Passed h t ∧ ∃ p, t.net.flight = s.net.flight ++ [p] ∧ p.dest = w ∧
        p.body = .nint (BitVec.ofNat 1 (wf w 41 1)) (BitVec.ofNat 2 (wf w 32 2)) ((s.hart h).reg b.toNat) ∧
        t.net.entries = s.net.entries ++ [(s.net.nextEntry, h, 3, 1)])))

/-- R365, R366, R368: a channel message fills the free slot of lowest index with its header and payload, or waits when
there is none; NRECV takes the oldest full slot, NPOLL counts the full ones, NFREE, behind its hart's scratch stores
(R308), frees a taken one. R362 to R364: a landing replaces each element of its window of local scratch by the
transform of its payload element, or adds it to the old one, and changes no other byte; one that leaves the window
changes no byte and is logged. -/
def Obligations.NetworkArrivals : Prop :=
  ((∀ (vn : BitVec 1) (dev : BitVec 12) (core : BitVec 10) (handler : BitVec 32) (bytes : List (BitVec 8)) (s : State),
     s.fromMe dev core = false → 1 ≤ bytes.length → bytes.length ≤ 248 → s.divert = none → 32768 ≤ s.extent false →
     (∀ k, k < 64 → (∀ x ∈ s.net.rx, x.vn = vn → x.idx ≠ k) → (∀ j, j < k → ∃ x ∈ s.net.rx, x.vn = vn ∧ x.idx = j) →
       let o := s.extent false - 32768 + 16384 * vn.toNat + 256 * k
       Completes (.channelMessageDelivery none vn dev core handler bytes) s (fun t =>
         t.scratchLoad false o 8 = bytes.length + dev.toNat * 2 ^ 16 + vn.toNat * 2 ^ 28 +
           (Store.get s.net.arrivals vn.toNat).toNat * 2 ^ 32 ∧
         (∀ i x, bytes[i]? = some x → t.scratchLoad false (o + 8 + i) 1 = x.toNat) ∧
         (∀ i, (i < o ∨ o + 8 + bytes.length ≤ i) → i < s.extent false →
           t.scratchLoad false i 1 = s.scratchLoad false i 1) ∧
         t.net.rx = s.net.rx ++ [{ vn := vn, idx := k, taken := false, handler := handler, core := core,
                                   order := s.net.nextOrder }] ∧
         Store.get t.net.arrivals vn.toNat = Store.get s.net.arrivals vn.toNat + 1 ∧ t.home = s.home ∧ t.h0 = s.h0 ∧
         t.h1 = s.h1)) ∧
     ((∀ k, k < 64 → ∃ x ∈ s.net.rx, x.vn = vn ∧ x.idx = k) →
       exec (.channelMessageDelivery none vn dev core handler bytes) s = .next s)) ∧
   (∀ (h : BitVec 1) (d a : BitVec 7) (s : State), s.Issues h [d, a] →
     let v := ((s.hart h).reg a.toNat).toNat
     let full (x : RxSlot) : Prop := x.vn.toNat = v ∧ x.taken = false
     (1 < v → ∀ i ∈ [Instr.nrecv d a, .npoll d a], Completes i s (fun t => s.OnlyHart h t ∧
       (s.hart h).Entered 0x0B 8 (t.hart h))) ∧
     (v ≤ 1 → s.slotsBusy = false → s.extent false = 0 → WritesLate (.npoll d a) s h d 0 0 ∧
       WritesLate (.nrecv d a) s h d 0xFFFFFFFFFFFFFFFF 0) ∧
     (v ≤ 1 → s.slotsBusy = false → 0 < s.extent false →
       WritesLate (.npoll d a) s h d
         (BitVec.ofNat 64 (s.net.rx.filter (fun x => x.vn.toNat == v && !x.taken)).length) 0 ∧
       ((∀ x ∈ s.net.rx, ¬full x) → WritesLate (.nrecv d a) s h d 0xFFFFFFFFFFFFFFFF 0) ∧
       (∀ x ∈ s.net.rx, full x → (∀ y ∈ s.net.rx, full y → y ≠ x → x.order < y.order) →
         s.net.rx.Pairwise (fun y z => ¬(y.vn = z.vn ∧ y.idx = z.idx)) →
         Completes (.nrecv d a) s (fun t =>
           (s.hart h).Sent d.toNat (BitVec.ofNat 64 (x.handler.toNat * 2 ^ 32 + x.core.toNat * 2 ^ 22 +
             (s.extent false - 32768 + 16384 * x.vn.toNat + 256 * x.idx) % 2 ^ 22)) 0 (t.hart h) ∧
           (t.hart h).pc = (s.hart h).pc + 4 ∧ ({ s with net := t.net }).OnlyHart h t ∧
           t.net = { s.net with rx := t.net.rx } ∧ { x with taken := true } ∈ t.net.rx ∧
           ∀ y ∈ s.net.rx, y ≠ x → y ∈ t.net.rx))) ∧
     let first := s.extent false - 32768 + 16384 * (v % 32768 / 16384) + 256 * (v % 16384 / 256)
     (∀ s0, s.settleStores h = some s0 → s.slotsBusy = false → s.interlocked 1 first (first + 256 : Nat) true = false →
       Completes (.nfree a) s (fun t => ({ s0 with net := t.net }).Passed h t ∧ t.net = { s.net with rx := t.net.rx } ∧
         ∀ x, x ∈ t.net.rx ↔ x ∈ s.net.rx ∧
           ¬(x.taken = true ∧ x.vn.toNat = v % 32768 / 16384 ∧ x.idx = v % 16384 / 256))))) ∧
  (∀ (x : BitVec 4) (offset : BitVec 22) (dev : BitVec 12) (core : BitVec 10) (bytes : List (BitVec 8)) (s : State),
     s.fromMe dev core = false → x.toNat ≤ 6 → putLength x.toNat bytes.length = true → bytes.length ≤ 256 →
     s.divert = none →
     let le (l : List (BitVec 8)) : Nat := l.foldr (fun b n => b.toNat + 256 * n) 0
     let near (t : Nat) (v : Machine.Num) : Nat := (roundF t 0 0 false v false).1
     let row : Nat × Nat × Nat × (Nat → Nat → Nat) :=
       match x.toNat with
       | 0 => (0, 1, 1, fun _ x => x)
       | 1 => (0, 4, 2, fun _ x => near 0x14 (val 0x16 x))
       | 2 => (0, 2, 4, fun _ x => near 0x16 (val 0x14 x))
       | 3 => (0, 4, 4, fun old x => near 0x16 (Machine.Num.add false (val 0x16 old) (val 0x16 x)).1)
       | 4 => (0, 2, 2, fun old x => near 0x14 (Machine.Num.add false (val 0x14 old) (val 0x14 x)).1)
       | 5 => (0, 4, 4, fun old x => (old + x) % 2 ^ 32)
       | _ => (8, 1, 2, fun _ x => near 0x14 (Machine.Num.mul false (val 0x12 x) (val 0x16 (le (bytes.take 4)))).1)
     let skip := row.1
     let sw := row.2.1
     let dw := row.2.2.1
     let n := (bytes.length - skip) / sw
     let i := Instr.nputLanding none x offset dev core bytes
     (offset.toNat + n * dw ≤ s.extent false - 32768 → Completes i s (fun t =>
       (∀ k, k < n → t.scratchLoad false (offset.toNat + k * dw) dw =
         row.2.2.2 (s.scratchLoad false (offset.toNat + k * dw) dw) (le ((bytes.drop (skip + k * sw)).take sw))) ∧
       (∀ o, (o < offset.toNat ∨ offset.toNat + n * dw ≤ o) → o < s.extent false →
         t.scratchLoad false o 1 = s.scratchLoad false o 1) ∧ t.home = s.home ∧ t.h0 = s.h0 ∧ t.h1 = s.h1)) ∧
     (¬(offset.toNat + n * dw ≤ s.extent false - 32768) → Completes i s (fun t => t.core = s.core ∧ t.h0 = s.h0 ∧
       t.h1 = s.h1 ∧ t.home = { s.home with vlog := t.home.vlog, overrun := t.home.overrun } ∧
       ∃ l e, Map.get [] t.home.vlog s.quadrant = l ++ [e] ∧ e.w1 = s.ctr.cycle)))

/-- R108, R142, R369, R372: a mesh message, of this core to itself or from another, enters its hart's queue of at most
8, and waits when that is full; a pre-empt message reaches both harts, diverts packets to its area and suspends
transfers. R109, R371: redelivery delivers the entry at head and advances head; where the core cannot take the entry
it pauses, and then, or when the area is empty or unusable, the restored context goes on (the order is the model's
reading, log entry 110): its transfers with new promises, and its harts as by ERET but for those saved parked. -/
def Obligations.MeshMessages : Prop :=
  (∀ (own : Option Nat) (h : BitVec 1) (kind : BitVec 2) (payload : BitVec 64) (core : BitVec 10) (p : Packet) (s : State),
    (match own with
     | some k => s.packet k = some p ∧ p.body = .nint h kind payload ∧ p.score = core ∧ s.firstMesh k p = true ∧
        s.toMe p.dest = true
     | none => core ≠ s.core.coreId) →
    let m : MeshMsg := { kind := kind, payload := payload, src := core.zeroExtend 16 }
    let taken (t : State) : Prop := match own with
      | some k => t.net.flight ++ t.net.waiting = (s.net.flight ++ s.net.waiting).eraseIdx k ∧
          (∀ e ∈ s.net.entries, e.1 ≠ p.entry → e ∈ t.net.entries) ∧
          (∀ e ∈ t.net.entries, e.1 = p.entry → (e.1, e.2.1, e.2.2.1, e.2.2.2 + 1) ∈ s.net.entries)
      | none => t.net.flight = s.net.flight ∧ t.net.waiting = s.net.waiting ∧ t.net.entries = s.net.entries
    let arrival := Instr.meshMessageArrival own h kind payload core
    (kind ≠ 1 → (s.hart h).meshQ.length < 8 → Completes arrival s (fun t => ({ s with net := t.net }).OnlyHart h t ∧
      t.hart h = { s.hart h with meshQ := (s.hart h).meshQ ++ [m] } ∧ taken t)) ∧
    (kind ≠ 1 → 8 ≤ (s.hart h).meshQ.length → exec arrival s = .next s) ∧
    (own = none ∨ kind = 1 → s.h0.meshQ.length < 8 → s.h1.meshQ.length < 8 → s.core.preempted = false →
      s.core.resuming = none → Completes (.preemptMessage own payload core) s (fun t =>
        t.h0 = { s.h0 with meshQ := s.h0.meshQ ++ [{ m with kind := 1 }] } ∧
        t.h1 = { s.h1 with meshQ := s.h1.meshQ ++ [{ m with kind := 1 }] } ∧
        t.core = { s.core with preempted := true } ∧ t.net.spill = some (payload, s.cid16) ∧ t.net.redeliver = none ∧
        t.divert = some (payload, s.cid16) ∧ t.parkArea s.cid16 = some payload ∧ taken t ∧
        (∀ k c, s.copySlot k = some c → t.copySlot k = some { c with paused := true }) ∧
        (∀ k, s.copySlot k = none → t.copySlot k = none) ∧ t.home = s.home ∧ t.cache = s.cache))) ∧
  (∀ (a : Word) (cid : BitVec 16) (s : State), s.net.redeliver = some (a, cid) → s.core.preempted = false →
    s.net.held = none →
    let done (x : State) : State := { x with net := { x.net with redeliver := none } }
    (a = 0 ∨ a.toNat % 64 ≠ 0 → exec .spillRedelivery s = .next (done s).resumeContext) ∧
    (¬(a = 0 ∨ a.toNat % 64 ≠ 0) → ∀ s1 cap head tail,
      s.spillHeader (s.spillId cid) a = (.ok 0 s1, cap, head, tail) →
      (cap = 0 ∨ head = tail → exec .spillRedelivery s = .next (done s1).resumeContext) ∧
      (¬(cap = 0 ∨ head = tail) → ∀ s2 s3 ws p v,
        s1.loadWords (s.spillId cid) (a + BitVec.ofNat 64 (64 + 272 * (head % cap))) 34 [] = (.ok 0 s2, ws) →
        s2.engineStore (s.spillId cid) (a + 8) 0 64 (head + 1) = .ok v s3 →
        s3.unspill (ws.getD 0 0) (ws.getD 1 0) ((ws.drop 2).flatMap (fun v => (bytesOf v 8).map (·.2))) = some p →
        (∀ s4, s3.deliverHere p = some s4 → exec .spillRedelivery s =
          .next (if s4.net.redeliver = none ∨ s4.net.held ≠ none then s4.resumeContext else s4)) ∧
        (s3.deliverHere p = none → exec .spillRedelivery s = .next s.resumeContext)))) ∧
  (∀ (a : Word) (cid : BitVec 16) (p0 p1 : Bool) (s : State), s.net.redeliver = some (a, cid) → s.core.preempted = false →
    s.net.held = none → a = 0 ∨ a.toNat % 64 ≠ 0 → s.core.resuming = some (p0, p1) →
    Completes .spillRedelivery s (fun t => t.net = { s.net with redeliver := none } ∧ t.core = { s.core with resuming := none } ∧
      (∀ k, t.copySlot k = (s.copySlot k).map (fun c =>
        if c.resumed then { c with paused := false, promise := s.newPromise c, replacement := s.newPromise c }
        else { c with paused := false })) ∧
      t.home = s.home ∧ t.cache = s.cache ∧
      ∀ h : BitVec 1, let parked := if h = 0 then p0 else p1
        (parked = true → t.hart h = s.hart h) ∧
        (parked = false → (t.hart h).pc = (s.hart h).csr.epc ∧ (t.hart h).pl = (s.hart h).ppl ∧
          (t.hart h).ieOn = (s.hart h).pie ∧ (t.hart h).g = (s.hart h).g ∧ (t.hart h).run = .running ∧
          (t.hart h).fmt = if (s.hart h).pp then some { bits := (s.hart h).csr.pfx.truncate 26, reapplied := true }
            else none)))

/-- R374 to R376, R379 to R381: TKSPAWN reads the record of 128 bytes and puts its node into the free slot of lowest
id, or sends −2 for a record that is not well formed and −1 when no slot is free; TKGET sleeps until a ready node that
the core can run is given to it, with its handle; TKDONE of a node that the hart holds frees it and counts down its
successors; TKDEP adds an edge, and tries again while the edge store is full. (That TKSPAWN, TKDONE and TKDEP act on
the pool as they issue, and from when a node's ageing counts, are the model's readings, log entries 125 and 85.) -/
def Obligations.TaskNodes : Prop :=
  (∀ (h : BitVec 1) (d a : BitVec 7) (W : Nat → Nat) (S : Nat → State) (s1 : State), (S 0).Issues h [d, a] →
    let v := ((S 0).hart h).reg a.toNat
    let ws := (List.range 16).map (fun i => BitVec.ofNat 64 (W i))
    let ops := recordOps ws
    v.toNat % 128 = 0 → (∀ i, i < 16 → (S i).loadVa h (v + BitVec.ofNat 64 (8 * i)) 8 2 = .ok (W i) (S (i + 1))) →
    (recordOk ws = false → Completes (.tkspawn d a) (S 0) (fun t => (S 16).OnlyHart h t ∧
      ((S 16).hart h).Sent d.toNat 0xFFFFFFFFFFFFFFFE 0 (t.hart h) ∧ t.pool = (S 16).pool)) ∧
    (recordOk ws = true → (S 16).cleanRecord h v = .done s1 →
      (s1.freeNode = none → Completes (.tkspawn d a) (S 0) (fun t => s1.OnlyHart h t ∧
        (s1.hart h).Sent d.toNat 0xFFFFFFFFFFFFFFFF 0 (t.hart h))) ∧
      (∀ id, s1.freeNode = some id → Completes (.tkspawn d a) (S 0) (fun t =>
        (s1.hart h).Sent d.toNat (BitVec.ofNat 64 (id * 2 ^ 48 + wf v 0 48)) 0 (t.hart h) ∧ t.home = s1.home ∧
        t.core = { s1.core with pcnt := t.core.pcnt } ∧ (∀ j, j ≠ id → (t.node j).isSome = (s1.node j).isSome) ∧
        ∃ n, t.node id = some n ∧ n.record = v ∧ n.preds = wf (BitVec.ofNat 64 (W 0)) 48 16 ∧
          n.prio = BitVec.ofNat 2 (W 0 % 4) ∧ n.ops = ops ∧ n.stage = .live ∧ n.core = s1.core.coreId ∧ n.cid = s1.cid16)))) ∧
  (∀ (h : BitVec 1) (d : BitVec 7) (s : State), s.Issues h [d] → s.hostPort = false →
    Completes (.tkget d) s (fun t => ({ s with pool := t.pool }).OnlyHart h t ∧
      t.hart h = { s.hart h with run := .asleep (.tkget d) } ∧ h ∈ t.pool.waiters ∧
      t.pool = { s.pool with waiters := t.pool.waiters })) ∧
  (∀ (h : BitVec 1) (d : BitVec 7) (id : Nat) (n : Node) (s s1 : State), s.pool.waiters[0]? = some h →
    s.poolChoice = some (id, n) → (s.hart h).run = .asleep (.tkget d) →
    s.selfInvalidate ((n.record.toNat, 128) :: n.ops.map (fun o => (o.base, o.len))) = .done s1 →
    s.classWord &&& n.cls.toNat = n.cls.toNat ∧ n.cid = s.cid16 ∧
    Completes (.nodeDispatch 0) s (fun t =>
      (∀ k, (t.hart h).reg k = if k = d.toNat ∧ k ≠ 0 then BitVec.ofNat 64 (id * 2 ^ 48 + wf n.record 0 48) else (s1.hart h).reg k) ∧
      (t.hart h).run = .running ∧ (t.hart h).pc = (s1.hart h).pc + 4 ∧ h ∉ t.pool.waiters ∧
      ∃ m, t.node id = some m ∧ m.stage = .taken h ∧ m.record = n.record ∧ m.ops = n.ops)) ∧
  (∀ (h : BitVec 1) (a b : BitVec 7) (s : State), s.Issues h [a, b] → s.hostPort = false →
    let x := wf ((s.hart h).reg a.toNat) 48 16
    let y := wf ((s.hart h).reg b.toNat) 48 16
    ((s.node x = none ∨ ∃ n, s.node x = some n ∧ n.stage ≠ .taken h) → OnlyAdvances (.tkdone a) s h) ∧
    (∀ n e s1 (c : Nat) (W : Nat → Nat) (S : Nat → State) s2, s.node x = some n → n.stage = .taken h →
      s.loadVa h (n.record + 0x38) 8 2 = .ok e s1 →
      let list := BitVec.ofInt 64 (sext e 48)
      let len := if list = 0 then 0 else min c 64
      let succ := (List.range len).map (fun i => wf (BitVec.ofNat 64 (W i)) 48 16)
      (list = 0 → S 0 = s1) → (list ≠ 0 → s1.loadVa h list 8 2 = .ok c (S 0)) →
      (∀ i, i < len → (S i).loadVa h (list + 8 + BitVec.ofNat 64 (8 * i)) 8 2 = .ok (W i) (S (i + 1))) →
      (S len).releaseRanges h (n.ops.map (fun o => (o.base, o.len))) = .done s2 →
      Completes (.tkdone a) s (fun t => t.node x = none ∧ (t.hart h).pc = (s2.hart h).pc + 4 ∧
        (t.hart h).g = (s2.hart h).g ∧ (∀ q ∈ t.pool.edges, q.1 ≠ x) ∧ t.home = s2.home ∧
        ∀ j m, j ≠ x → s2.node j = some m → m.stage = .live → ∃ m', t.node j = some m' ∧
          m'.preds = m.preds - (succ.filter (· == j)).length -
            (s2.pool.edges.filter (fun q => q.1 == x && q.2 == j)).length)) ∧
    (∀ n m, s.node x = some n → s.node y = some m → m.stage ≠ .live → OnlyAdvances (.tkdep a b) s h) ∧
    (∀ n m, s.node x = some n → s.node y = some m → m.stage = .live → 65536 ≤ s.pool.edges.length →
      Completes (.tkdep a b) s (fun t => s.OnlyHart h t ∧ t.hart h = { s.hart h with run := .asleep .retry })) ∧
    (∀ n m, s.node x = some n → s.node y = some m → m.stage = .live → s.pool.edges.length < 65536 →
      Completes (.tkdep a b) s (fun t => t.pool.edges = s.pool.edges ++ [(x, y)] ∧ (t.hart h).pc = (s.hart h).pc + 4 ∧
        (t.hart h).g = (s.hart h).g ∧ t.home = s.home ∧ t.core = { s.core with pcnt := t.core.pcnt } ∧
        ∃ m', t.node y = some m' ∧ m'.preds = m.preds + 1 ∧ m'.stage = .live)) ∧
    ((s.node x = none ∨ s.node y = none) → OnlyAdvances (.tkdep a b) s h)) ∧
  (∀ (id : BitVec 16) (n : Node) (s : State), s.node id.toNat = some n → id.toNat ∈ s.readyIds →
    Completes (.nodeAging id) s (fun t => t.h0 = s.h0 ∧ t.h1 = s.h1 ∧ t.home = s.home ∧ t.core = s.core ∧
      ∃ m, t.node id.toNat = some m ∧ m = { n with level := m.level, enteredAt := m.enteredAt, unplaceable := m.unplaceable } ∧
        (∀ k, n.readyAt = some k → m.level.toNat =
          (n.prio.toNat + min ((s.ctr.cycle.toNat - k) / 65536) (3 - n.prio.toNat)) % 4)))

/-- R382 to R385: the trigger slots: TKARM watches an 8-byte word of an MS page, or disarms; TKBIND gives a slot the
record to spawn, and spawns it where PENDING is set, TKUNBIND takes it away; a trigger of the armed word, the first on
its way from its unit, spawns the bound node, or sets PENDING; a slot number above 255 traps. (That TKARM arms in one
step, and PENDING after a retried spawn, are the model's readings, log entry 86.) -/
def Obligations.TriggerSlots : Prop :=
  (∀ (h : BitVec 1) (a b : BitVec 7) (s : State), s.Issues h [a, b] →
    let k := ((s.hart h).reg a.toNat).toNat
    let va := (s.hart h).reg b.toNat
    let alone (f : Trigger → Trigger) (s t : State) : Prop :=
      ({ s with pool := t.pool }).Passed h t ∧ t.pool = { s.pool with triggers := t.pool.triggers } ∧
      t.trigger k = f (s.trigger k) ∧ ∀ j, j ≠ k → t.trigger j = s.trigger j
    (255 < k → ∀ i ∈ [Instr.tkarm a b, .tkbind a b, .tkunbind a], Completes i s (fun t => s.OnlyHart h t ∧
      (s.hart h).Entered 0x0B 8 (t.hart h))) ∧
    (k ≤ 255 → Completes (.tkunbind a) s (alone (fun x => { x with bound := none }) s)) ∧
    (k ≤ 255 → va = 0 → Completes (.tkarm a b) s (alone (fun x => { x with armed := none }) s)) ∧
    (∀ tr s1, k ≤ 255 → va ≠ 0 → va.toNat % 8 = 0 → s.translate h .both va = (.ok tr, s1) → tr.ms = true → tr.mmio = false →
      s1.homeError tr.name = none → s1.postedOver h tr.name 8 = false →
      Completes (.tkarm a b) s (alone (fun x => { x with armed := some (tr.name, s1.cid16, s1.core.coreId) }) s1)) ∧
    (∀ tr s1, k ≤ 255 → va ≠ 0 → va.toNat % 8 = 0 → s.translate h .both va = (.ok tr, s1) → (tr.ms = false ∨ tr.mmio = true) →
      Completes (.tkarm a b) s (fun t => s1.OnlyHart h t ∧ (s1.hart h).Entered 0x07 0 (t.hart h) ∧
        (t.hart h).csr.faddr = va)) ∧
    (∀ c x s1, k ≤ 255 → va ≠ 0 → va.toNat % 8 = 0 → s.translate h .both va = (.fault c x, s1) →
      exec (.tkarm a b) s = s1.scalarFault h c va 2 true 8)) ∧
  (∀ (h : BitVec 1) (a b : BitVec 7) (W : Nat → Nat) (S : Nat → State) (s1 : State), (S 0).Issues h [a, b] →
    let k := (((S 0).hart h).reg a.toNat).toNat
    let v := ((S 0).hart h).reg b.toNat
    let ws := (List.range 16).map (fun i => BitVec.ofNat 64 (W i))
    k ≤ 255 → v.toNat % 128 = 0 →
    (∀ i, i < 16 → (S i).loadVa h (v + BitVec.ofNat 64 (8 * i)) 8 2 = .ok (W i) (S (i + 1))) → recordOk ws = true →
    (S 16).cleanRecord h v = .done s1 →
    ((s1.trigger k).pending = false → Completes (.tkbind a b) (S 0) (fun t => ({ s1 with pool := t.pool }).Passed h t ∧
      (∀ j, j ≠ k → t.trigger j = s1.trigger j) ∧ ∃ x, t.trigger k = { s1.trigger k with bound := some x } ∧ x.record = v ∧
        x.preds = wf (BitVec.ofNat 64 (W 0)) 48 16 ∧ x.ops = recordOps ws ∧ x.cid = s1.cid16)) ∧
    ((s1.trigger k).pending = true → (s1.trigger k).delayed = [] → ∀ id, s1.freeNode = some id →
      Completes (.tkbind a b) (S 0) (fun t => (t.hart h).pc = (s1.hart h).pc + 4 ∧ (t.hart h).g = (s1.hart h).g ∧
        t.home = s1.home ∧ (t.trigger k).pending = false ∧ ∃ x n, (t.trigger k).bound = some x ∧ x.record = v ∧
          t.node id = some n ∧ n.record = v ∧ n.preds = x.preds ∧ n.ops = recordOps ws ∧ n.stage = .live ∧
          n.cid = (s1.trigger k).context s1.cid16))) ∧
  (∀ (slot : BitVec 8) (pa : Nat) (cid : BitVec 16) (core : BitVec 10) (s : State),
    s.pool.fired.find? (fun f => s.monitorUnit f.2 true == s.monitorUnit pa true) = some (slot.toNat, pa) →
    (s.trigger slot.toNat).armed = some (pa, cid, core) →
    ((s.trigger slot.toNat).bound = none → Completes (.triggerArrival slot pa) s (fun t =>
      t.trigger slot.toNat = { s.trigger slot.toNat with pending := true, owed := true } ∧
      (∀ j, j ≠ slot.toNat → t.trigger j = s.trigger j) ∧ t.pool.fired = s.pool.fired.erase (slot.toNat, pa) ∧
      t.pool.nodes = s.pool.nodes ∧ t.h0 = s.h0 ∧ t.h1 = s.h1 ∧ t.home = s.home)) ∧
    (∀ x id, (s.trigger slot.toNat).bound = some x → s.freeNode = some id → Completes (.triggerArrival slot pa) s (fun t =>
      ∃ n, t.node id = some n ∧ n.record = x.record ∧ n.cid = cid ∧ n.core = core ∧ n.preds = x.preds ∧ n.ops = x.ops ∧
        n.stage = .live))) ∧
  (∀ (slot : BitVec 8) (x : Template) (xs : List Template) (id : Nat) (s : State),
    (s.trigger slot.toNat).delayed = x :: xs → s.freeNode = some id →
    Completes (.triggerSpawnRetry slot) s (fun t => (t.trigger slot.toNat).delayed = xs ∧
      (t.trigger slot.toNat).pending = ((s.trigger slot.toNat).owed || xs != []) ∧
      ∃ n, t.node id = some n ∧ n.record = x.record ∧ n.cid = x.cid ∧ n.stage = .live))

/-- R420, R421, R432: SCFG reads its image of 160 bytes and sends a request with its register pending; a slot above 31
is answered 5, a block that is not 32-byte aligned traps. The installation checks the image of the slot's oldest
request once no open stream uses the slot, sends the status and writes only an image that passes. SCLOSE and SSTAT act
on a live stream alone. R422, R426, R431: SOPEN, behind its hart's scratch stores (R308), makes the checks of Table
18-11 in order, each with its trap, and opens nothing when one fails; when all pass it opens its stream in the lowest
free slot, with an id that names the slot, and sends the id. (That a slot above 31 is answered without a request, and
which offset the seventh check reports, are the model's readings, log entries 83 and 80.) -/
def Obligations.StreamWords : Prop :=
  ((∀ (h : BitVec 1) (d a b : BitVec 7) (W : Nat → Nat) (S : Nat → State), (S 0).Issues h [d, a, b] → ((S 0).hart h).pl ≤ 1 →
     let slot := (((S 0).hart h).reg a.toNat).toNat
     let va := ((S 0).hart h).reg b.toNat
     let img := (List.range 20).map (fun i => BitVec.ofNat 64 (W i))
     (va.toNat % 32 ≠ 0 → Completes (.scfg d a b) (S 0) (fun t => (S 0).OnlyHart h t ∧
       ((S 0).hart h).Entered 0x03 0 (t.hart h) ∧ (t.hart h).csr.faddr = va)) ∧
     (va.toNat % 32 = 0 → (∀ i, i < 20 → (S i).loadVa h (va + BitVec.ofNat 64 (8 * i)) 8 1 = .ok (W i) (S (i + 1))) →
       (31 < slot → Completes (.scfg d a b) (S 0) (fun t => (S 20).OnlyHart h t ∧
         ((S 20).hart h).Sent d.toNat 5 0 (t.hart h) ∧ ((S 20).hart h).GoneOn (((S 20).hart h).pc + 4) false (t.hart h))) ∧
       (slot ≤ 31 → Completes (.scfg d a b) (S 0) (fun t => ({ S 20 with stream := t.stream }).OnlyHart h t ∧
         t.stream = { (S 20).stream with reqs := (S 20).stream.reqs ++
           [{ slot := slot, image := img, hart := h, dest := BitVec.ofNat 6 d.toNat }] } ∧
         ((S 20).hart h).GoneOn (((S 20).hart h).pc + 4) false (t.hart h) ∧ (t.hart h).g = ((S 20).hart h).g ∧
         (t.hart h).late = ((S 20).hart h).late ∧
         ∀ k, k < 64 → (t.hart h).isPending k = (((S 20).hart h).isPending k || (k == d.toNat && d != 0)))))) ∧
   (∀ (k : BitVec 5) (r : ScfgReq) (s : State), s.stream.reqs.find? (fun r => r.slot == k.toNat) = some r →
     s.graphInUse k.toNat = false → Completes (.scfgInstall k) s (fun t => s.OnlyHart r.hart { t with stream := s.stream } ∧
       t.stream.reqs = s.stream.reqs.erase r ∧ t.stream.slots = s.stream.slots ∧
       (t.hart r.hart).isPending r.dest.toNat = false ∧ (t.hart r.hart).pc = (s.hart r.hart).pc ∧
       (∀ i, (t.hart r.hart).reg i = if i = r.dest.toNat ∧ i ≠ 0 then BitVec.ofNat 64 (graphStatus r.image)
         else (s.hart r.hart).reg i) ∧
       (∀ j, j ≠ k.toNat → t.graph j = s.graph j) ∧
       t.graph k.toNat = if graphStatus r.image = 0 then some r.image else s.graph k.toNat)) ∧
   (∀ (h : BitVec 1) (d a : BitVec 7) (s : State), s.Issues h [d, a] →
     let x := (s.hart h).reg a.toNat
     let k := x.toNat % 8
     let live (c : StreamSlot) : Prop := s.streamSlot k = some c ∧ c.id.zeroExtend 64 = x
     ((∀ c, ¬live c) → OnlyAdvances (.sclose a) s h ∧ WritesLate (.sstat d a) s h d 0 0) ∧
     ∀ c, live c →
       Completes (.sclose a) s (fun t => ({ s with stream := t.stream }).Passed h t ∧
         (∀ j, j ≠ k → t.streamSlot j = s.streamSlot j) ∧ ∃ e, t.streamSlot k = some e ∧ e.cancel = true ∧
           e.status = (if c.status = 0 then 1 else c.status) ∧ e.beatsDone = c.beatsDone ∧ e.units.length = c.units.length ∧
           ∀ (u : Nat) (x : StreamUnit), c.units[u]? = some x → ∃ y : StreamUnit, e.units[u]? = some y ∧ y.first = x.first ∧ y.beats = x.beats ∧
             y.stage = if x.stage = .finished then .finished else .dropped) ∧
       ∃ v, WritesLate (.sstat d a) s h d v 0 ∧ wf v 0 32 = c.beatsDone % 2 ^ 32 ∧ wf v 32 8 = 0 ∧
         wf v 40 4 = c.status.toNat ∧ wf v 44 16 = min c.nsat 65535 ∧
         wf v 60 4 = if c.cancel then 5 else if c.paused then 4
           else if ∃ u ∈ c.units, ∃ q, u.stage = .stalled q then 3
           else if ∀ u ∈ c.units, u.stage = .waiting then 1 else 2)) ∧
  (∀ (h : BitVec 1) (d a : BitVec 7) (s s0 : State), s.Issues h [d, a] → s.settleStores h = some s0 →
     let v := (s.hart h).reg a.toNat
     let o := v.toNat
     let c := s0.readStream h o
     let trap (n : Nat) : Prop := Completes (.sopen d a) s (fun t => s0.OnlyHart h t ∧ (s0.hart h).Entered 0x0B n (t.hart h) ∧
       (s0.hart h).FaultKept (t.hart h))
     let fault (cause : Nat) (x : Word) (s : State) (t : State) : Prop := s.OnlyHart h t ∧
       (s.hart h).Entered cause 0 (t.hart h) ∧ (t.hart h).csr.faddr = x
     let formOk : Prop := wf (c.ctl.zeroExtend 64) 29 3 = 0 ∧ wf (c.ctl.zeroExtend 64) 6 2 ≠ 3 ∧
       wf (c.ctl.zeroExtend 64) 23 3 ≠ 7 ∧ wf (c.ctl.zeroExtend 64) 26 3 ≠ 7
     (o % 64 ≠ 0 → Completes (.sopen d a) s (fault 0x03 v s0)) ∧
     (o % 64 = 0 → s0.within false o 64 = false → Completes (.sopen d a) s (fault 0x07 v s0)) ∧
     (o % 64 = 0 → s0.within false o 64 = true → s0.interlocked 1 o (o + 64) false = false → s0.arrayTouches 1 o 64 = false →
       (¬formOk → trap 1) ∧
       (formOk → (∀ r ∈ s0.stream.reqs, r.slot ≠ c.graph) →
         (s0.graph c.graph = none → trap 2) ∧
         ∀ g, s0.graph c.graph = some g →
           let noLength : Prop := c.len = 0 ∨ ((imgPort g 1).mode ≠ 0 ∧ c.dst1 = 0)
           (c.graphBad g = true → trap 2) ∧
           (c.graphBad g = false → noLength → trap 3) ∧
           (c.graphBad g = false → ¬noLength → c.misaligned g = true → trap 4) ∧
           (c.graphBad g = false → ¬noLength → c.misaligned g = false →
             (∀ x wr, s0.streamOutside c g = some (x, wr) → Completes (.sopen d a) s (fault 0x07 (BitVec.ofInt 64 x) s0)) ∧
             (s0.streamOutside c g = none →
               (c.cdone.toNat % 8 ≠ 0 → Completes (.sopen d a) s (fault 0x03 c.cdone s0)) ∧
               ∀ tr s1, c.cdone.toNat % 8 = 0 → s0.translate h .write c.cdone = (.ok tr, s1) →
                 (tr.ms = false → Completes (.sopen d a) s (fault 0x07 c.cdone s1)) ∧
                 (tr.ms = true → ((∀ k, k < 8 → (s1.streamSlot k).isSome) ∨ s1.storesOver c g = true) →
                   exec (.sopen d a) s = .next s1) ∧
                 ∀ k s2, tr.ms = true → k < 8 → s1.streamSlot k = none → (∀ j, j < k → (s1.streamSlot j).isSome) →
                   s1.openStream c g k = some s2 →
                   (∀ j, j ≠ k → s2.streamSlot j = s1.streamSlot j) ∧ s2.stream.nextSeq = s1.stream.nextSeq + 1 ∧
                   ∃ e, s2.streamSlot k = some e ∧ e.id = BitVec.ofNat 32 (s1.stream.nextSeq.toNat * 8 + k) ∧
                     e = { c with id := e.id, ranges := e.ranges, touched := e.touched, units := e.units, order := e.order } ∧
                     (∀ x ∈ e.units, x.stage = .waiting) ∧ (e.units.map (·.beats)).sum = c.len ∧
                     Completes (.sopen d a) s (fun t => s2.OnlyHart h t ∧
                       (s2.hart h).Sent d.toNat (e.id.zeroExtend 64) 0 (t.hart h) ∧
                       (s2.hart h).GoneOn ((s2.hart h).pc + 4) false (t.hart h)))))))

/-- R405, R424, R425, R427, R428: a unit that may start runs its beats and is finished; one that faults stalls on a
record; a unit of a pinned stream that lies on another controller or port than the first, and packed output on an
interleaved one, end it with status 3. A stream of which every unit is over completes: its completion word is stored,
its slot is free, and its opening hart has a trap pending for status 2 and 3; a fault of that store is reported as a
record of the stream (the model's choice, log entry 158). (When a place is known, and that a unit which ran elsewhere
before ends the stream with status 3, are the model's readings, log entry 81.) -/
def Obligations.StreamUnits : Prop :=
  (∀ (k : BitVec 3) (u : Nat) (c c0 : StreamSlot) (g : List Word) (x : StreamUnit) (f : Nat) (pinned : Bool) (s s0 s1 : State),
    s.streamSlot k.toNat = some c → s.graph c.graph = some g → c.units[u]? = some x →
    ((u = 0 ∨ c.home ≠ none) ∧ c0 = c ∧ s0 = s ∨
      u ≠ 0 ∧ c.home = none ∧ (∃ f p, s.unitHome c g 0 = (.ok (f, p), s0) ∧
        c0 = { c with home := some (if p then some f else none) }) ∨
      u ≠ 0 ∧ c.home = none ∧ pinned = false ∧ c0 = c ∧ ∃ cause, s.unitHome c g 0 = (.error cause, s0)) →
    s0.unitReady c0 g u x = true → s0.unitHome c0 g x.first = (.ok (f, pinned), s1) →
    let e := if u = 0 ∧ c0.home = none then { c0 with home := some (if pinned then some f else none) } else c0
    let packed := (imgPort g 0).mode = 2 ∨ (imgPort g 1).mode = 2
    let elsewhere (n : Nat) : Prop := f ≠ n ∨ ∃ y ∈ c.units.drop 1, y.stage = .finished ∧
      ∃ m l, (s1.unitHome e g y.first).1 = .ok (m, l) ∧ m ≠ n
    let astray : Prop := (e.home = some none ∧ packed) ∨ ∃ n, e.home = some (some n) ∧ elsewhere n
    let r := s1.runUnit e g u x f
    (astray → Completes (.streamUnit k u) s (fun t => t = { s1 with stream := t.stream } ∧
      t.streamSlot k.toNat = some (e.endWith 3) ∧ ∀ j, j ≠ k.toNat → t.streamSlot j = s1.streamSlot j)) ∧
    (¬astray → r.wait = false → r.fault = none → Completes (.streamUnit k u) s (fun t => t = { r.s with stream := t.stream } ∧
      (∀ j, j ≠ k.toNat → t.streamSlot j = r.s.streamSlot j) ∧ ∃ f, t.streamSlot k.toNat = some f ∧
        f.beatsDone = c.beatsDone + x.beats ∧ f.nsat = min (c.nsat + r.nsat) 65535 ∧ f.home = e.home ∧ f.id = c.id ∧
        f.units[u]? = some { x with stage := .finished } ∧
        (r.bus = false → f.status = c.status ∧ ∀ j, j ≠ u → f.units[j]? = c.units[j]?) ∧
        (r.bus = true → f.status = if c.status = 0 then 2 else c.status))) ∧
    (∀ f, ¬astray → r.wait = false → r.fault = some f → r.s.canDeposit = true → bit r.s.mgmt.fmode.toNat 0 = false →
      f.cause < 256 → f.elen < 65536 → Completes (.streamUnit k u) s (fun t =>
        t.streamSlot k.toNat = some (e.setUnit u (.stalled r.s.mmu.nextSeq)) ∧
        (∀ j, j ≠ k.toNat → t.streamSlot j = r.s.streamSlot j) ∧ t.mmu.nextSeq = r.s.mmu.nextSeq + 1 ∧
        ∃ q, t.mmu.queue = r.s.mmu.queue ++ [q] ∧ q.w0 = f.addr ∧ q.w1 = 0 ∧ wf q.w2 0 32 = 1 ∧ wf q.w2 32 16 = f.elen ∧
          q.seq = r.s.mmu.nextSeq ∧ q.tag = c.id.toNat ∧ q.cause = f.cause ∧ q.source = 3 ∧ q.cid = c.cid ∧
          wf q.w3 44 1 = b2n f.wr))) ∧
  (∀ (k : BitVec 3) (c : StreamSlot) (s : State), s.streamSlot k.toNat = some c → c.paused = false → c.doneOn = none →
    (∀ u ∈ c.units, u.stage = .finished ∨ u.stage = .dropped) →
    s.accessOver c.hart c.order { space := 0, dst := true, lo := c.cdone.toNat, hi := c.cdone.toNat + 8 } = false →
    let stored := s.engineStore { kind := 3, ptbase := c.ptbase, cid := c.cid, level := c.level, route := .core } c.cdone 0 64
      (if c.status = 0 then 1 else 0x100 + c.status.toNat)
    (∀ s1, ((∃ n, stored = .ok n s1) ∨ stored = .error s1) →
      Completes (.streamComplete k) s (fun t => t.streamSlot k.toNat = none ∧
        (∀ j, j ≠ k.toNat → t.streamSlot j = s1.streamSlot j) ∧ t.home = s1.home ∧ t.core = s1.core ∧ t.cache = s1.cache ∧
        t.hart (other c.hart) = s1.hart (other c.hart) ∧
        t.hart c.hart = { s1.hart c.hart with streamEv := (s1.hart c.hart).streamEv ++
          if c.status = 2 ∨ c.status = 3 then [(c.id.zeroExtend 64, c.status.zeroExtend 8)] else [] })) ∧
    (∀ cause s1, stored = .fault cause s1 → s1.canDeposit = true → bit s1.mgmt.fmode.toNat 0 = false → cause < 256 →
      Completes (.streamComplete k) s (fun t => t.streamSlot k.toNat = some { c with doneOn := some s1.mmu.nextSeq } ∧
        (∀ j, j ≠ k.toNat → t.streamSlot j = s1.streamSlot j) ∧ t.h0 = s1.h0 ∧ t.h1 = s1.h1 ∧ t.home = s1.home ∧
        ∃ q, t.mmu.queue = s1.mmu.queue ++ [q] ∧ q.w0 = c.cdone ∧ q.seq = s1.mmu.nextSeq ∧ q.tag = c.id.toNat ∧
          q.cause = cause ∧ q.source = 3 ∧ q.cid = c.cid ∧ wf q.w3 44 1 = 1)))

/-- R388, R389, R457, R460, R474: a request over a free or done slot joins its quadrant's arrival list, NEXT takes the
oldest and marks its slot taken; a message for a masked vector waits until the vector is unmasked; a read of a heat
word halves its entries; the clearing writes clear their counters. Nothing else changes. R407, R411, R445, R452, R475,
R476: each window of records gives its oldest record not yet taken to its reader, which keeps a copy; a record of
faults or of directory events stays outstanding, and an entry of a log is removed. A reply sets out for the core that
it names (a host's reply for another core changes nothing here, the model's reading, log entry 102; which core's hart
wrote one is a free value); an ACK grants its requester, or ends its SREL, and retires its event. R481: in recovery
the host's accesses to these windows change nothing. -/
def Obligations.HostQueues : Prop :=
  ((∀ (q : BitVec 2) (slot c : BitVec 8) (w : BitVec 64) (v : BitVec 9) (j : BitVec 10) (reader : Nat) (s : State),
     s.mgmt.recovery = true → ∀ i ∈ [Instr.mailboxRequest q slot w, .msixVectorUnmask v, .errorCountersClear q,
       .heatEntryRead c j, .heatSeedWrite c w, .heatClear c, .hostFaultTake q, .hostFaultReply q w,
       .directoryTake slot reader, .directoryAck slot w, .violationLogTake q reader], exec i s = .next s) ∧
   (∀ (q : BitVec 2) (slot : BitVec 8) (w : BitVec 64) (s : State), s.mgmt.recovery = false →
     let a := 65536 * q.toNat + 256 * slot.toNat
     let old := (Memory.byte s.host.mailbox a).toNat % 4
     (wf w 0 2 = 1 ∧ (old = 1 ∨ old = 2) → exec (.mailboxRequest q slot w) s = .next s) ∧
     (¬(wf w 0 2 = 1 ∧ (old = 1 ∨ old = 2)) → Completes (.mailboxRequest q slot w) s (fun t =>
       t = { s with host := { s.host with mailbox := t.host.mailbox, arrivals := t.host.arrivals } } ∧
       (∀ b, Memory.byte t.host.mailbox b = storedByte s.host.mailbox a 8 (wf w 32 32 * 2 ^ 32 + wf w 0 2) b) ∧
       t.host.arrivals = s.host.arrivals ++ if wf w 0 2 = 1 then [(q.toNat, slot.toNat)] else []))) ∧
   (∀ (q : BitVec 2) (s : State),
     ((∀ e ∈ s.host.arrivals, e.1 ≠ q.toNat) → exec (.mailboxNext q) s = .next s) ∧
     ∀ k, s.host.arrivals.find? (fun e => e.1 == q.toNat) = some (q.toNat, k) → Completes (.mailboxNext q) s (fun t =>
       t = { s with host := { s.host with mailbox := t.host.mailbox, arrivals := s.host.arrivals.erase (q.toNat, k) } } ∧
       (s.mailboxNext q.toNat).1 = BitVec.ofNat 64 k ∧
       (Memory.byte t.host.mailbox (65536 * q.toNat + 256 * k)).toNat % 4 = 2 ∧
       ∀ b, b ≠ 65536 * q.toNat + 256 * k → Memory.byte t.host.mailbox b = Memory.byte s.host.mailbox b)) ∧
   (∀ (q : BitVec 2) (n : BitVec 64) (s : State),
     let v := 80 * q.toNat + n.toNat % 64
     Completes (.mailboxNotify q n) s (fun t =>
       t = { s with host := { s.host with msixSent := t.host.msixSent, msixPending := t.host.msixPending } } ∧
       (Store.get s.host.msixOpen v = 1 → t.host.msixSent = s.host.msixSent ++ [v] ∧ t.host.msixPending = s.host.msixPending) ∧
       (Store.get s.host.msixOpen v = 0 → t.host.msixSent = s.host.msixSent ∧
         ∀ k, Store.get t.host.msixPending k = if k = v then 1 else Store.get s.host.msixPending k))) ∧
   (∀ (v : BitVec 9) (s : State), s.mgmt.recovery = false → v.toNat < 328 → Completes (.msixVectorUnmask v) s (fun t =>
     ({ t with host := s.host } = s) ∧ Store.get t.host.msixOpen v.toNat = 1 ∧ Store.get t.host.msixPending v.toNat = 0 ∧
     (∀ k, k ≠ v.toNat → Store.get t.host.msixOpen k = Store.get s.host.msixOpen k ∧
       Store.get t.host.msixPending k = Store.get s.host.msixPending k) ∧
     t.host.msixSent = s.host.msixSent ++ if Store.get s.host.msixPending v.toNat = 1 then [v.toNat] else [])) ∧
   (∀ (q : BitVec 2) (s : State), s.mgmt.recovery = false → Completes (.errorCountersClear q) s (fun t =>
     t = { s with ctr := { s.ctr with errors := t.ctr.errors } } ∧
     ∀ k, Store.get t.ctr.errors k = if 8 * q.toNat ≤ k ∧ k < 8 * q.toNat + 8 then 0 else Store.get s.ctr.errors k)) ∧
   (∀ (c : BitVec 8) (j : BitVec 10) (v : BitVec 64) (s : State), s.mgmt.recovery = false → c.toNat < 132 →
     let lo := 8192 * c.toNat
     Completes (.heatEntryRead c j) s (fun t => t = { s with ctr := { s.ctr with heat := t.ctr.heat } } ∧
       (∀ k, Store.get t.ctr.heat k = if lo + 8 * j.toNat ≤ k ∧ k < lo + 8 * j.toNat + 8 then Store.get s.ctr.heat k / 2
         else Store.get s.ctr.heat k) ∧
       ∀ k, k < 8 → bits (s.heatRead c.toNat j.toNat).1 (8 * k) 8 = (Store.get s.ctr.heat (lo + 8 * j.toNat + k)).toNat) ∧
     Completes (.heatSeedWrite c v) s (fun t => t = { s with ctr := { s.ctr with lfsr := t.ctr.lfsr } } ∧
       t.lfsr c.toNat = (if wf v 0 16 = 0 then 1 else wf v 0 16) ∧ ∀ k, k ≠ c.toNat → t.lfsr k = s.lfsr k) ∧
     Completes (.heatClear c) s (fun t => t = { s with ctr := { s.ctr with heat := t.ctr.heat, sampled := t.ctr.sampled } } ∧
       (∀ k, Store.get t.ctr.heat k = if lo ≤ k ∧ k < lo + 8192 then 0 else Store.get s.ctr.heat k) ∧
       ∀ k, Store.get t.ctr.sampled k = if k = c.toNat then 0 else Store.get s.ctr.sampled k))) ∧
  ((∀ (h : BitVec 1) (s : State),
     ((∀ r ∈ s.mmu.queue, r.taken = true) → exec (.faultWindowTake h) s = .next s) ∧
     ∀ r, s.mmu.queue.find? (fun r => !r.taken) = some r → Completes (.faultWindowTake h) s (fun t =>
       ({ s with mmu := t.mmu }).OnlyHart h t ∧ t.hart h = { s.hart h with faultRecord := [r.w0, r.w1, r.w2, r.w3] } ∧
       t.mmu = { s.mmu with queue := s.mmu.queue.map (fun x => if x.seq = r.seq then { x with taken := true } else x) } ∧
       (s.faultTake h).1 = r.seq.zeroExtend 64)) ∧
   (∀ (q : BitVec 2) (w : BitVec 64) (s : State),
     exec (.faultWindowReply w) s =
       .next { s with free := s.free + 1, net := { s.net with replies := s.net.replies ++
         [{ src := 2048 + Config.replySource s.free, before := 0, word := w }] } } ∧
     (s.mgmt.recovery = false → wf w 48 10 = s.core.coreId.toNat →
       ∃ v, (∀ i, i < 48 → v.getLsbD i = w.getLsbD i) ∧ wf v 48 16 = 0 ∧ exec (.hostFaultReply q w) s = .next { s with net :=
         { s.net with replies := s.net.replies ++ [{ src := 1024 + s.quadrant, before := 0, word := v }] } }) ∧
     (wf w 48 10 ≠ s.core.coreId.toNat → exec (.hostFaultReply q w) s = .next s)) ∧
   (∀ (q : BitVec 2) (s : State), s.mgmt.recovery = false →
     ((∀ e ∈ s.host.faultBuf, e.quadrant = q.toNat → e.rec_.taken = true) → exec (.hostFaultTake q) s = .next s) ∧
     ∀ e, s.host.faultBuf.find? (fun e => e.quadrant == q.toNat && !e.rec_.taken) = some e →
       Completes (.hostFaultTake q) s (fun t =>
         t = { s with host := { s.host with faultBuf := t.host.faultBuf, hrecord := t.host.hrecord } } ∧
         t.host.hrecord = [e.rec_.w0, e.rec_.w1, e.rec_.w2, e.rec_.w3, e.core.zeroExtend 64, 0, 0, 0] ∧
         t.host.faultBuf = s.host.faultBuf.map (fun x => if x.quadrant = q.toNat ∧ x.slot = e.slot then
           { x with rec_ := { x.rec_ with taken := true } } else x))) ∧
   (∀ (slice : BitVec 8) (reader : Nat) (e : DirEvent) (s : State), s.mgmt.recovery = false →
     s.dir.events.find? (fun e => e.slice == slice.toNat && !e.taken) = some e →
     let r : List Word := [BitVec.ofNat 64 (e.pa / 64 * 64 + b2n e.release),
       BitVec.ofNat 64 (e.who.cid.toNat * 2 ^ 32 + e.who.core.toNat * 2 ^ 16 + e.who.hart.toNat)]
     Completes (.directoryTake slice reader) s (fun t => t.core = s.core ∧ t.home = s.home ∧ t.dir.entries = s.dir.entries ∧
       (∃ l r, s.dir.events = l ++ e :: r ∧ e ∉ l ∧ t.dir.events = l ++ { e with taken := true } :: r) ∧
       (reader = 2 → t.dir.hostRecord = r ∧ t.h0 = s.h0 ∧ t.h1 = s.h1) ∧
       (reader = 0 → t.h0 = { s.h0 with dirRecord := r } ∧ t.h1 = s.h1 ∧ t.dir.hostRecord = s.dir.hostRecord) ∧
       (reader = 1 → t.h1 = { s.h1 with dirRecord := r } ∧ t.h0 = s.h0 ∧ t.dir.hostRecord = s.dir.hostRecord))) ∧
   (∀ (slice : BitVec 8) (w : BitVec 64) (s : State), s.mgmt.recovery = false → s.mgmt.dead = [] →
     ((∀ e ∈ s.dir.events, e.slice = slice.toNat → e.num.toNat ≠ wf w 0 12) → exec (.directoryAck slice w) s = .next s) ∧
     ∀ e, s.dir.events.find? (fun e => e.slice == slice.toNat && e.num.toNat == wf w 0 12) = some e → bit w.toNat 12 = false →
       ∃ t, exec (.directoryAck slice w) s = .next (if 256 ≤ s.openEvents slice.toNat then t.settleSlice slice.toNat else t) ∧
         t.dir.entries = s.dir.entries ∧ t.dir.held = s.dir.held ∧ t.core = s.core ∧ t.home = s.home ∧
         t.dir.events = s.dir.events.erase e ∧
         ∀ h, t.hart h = if e.who.core = s.core.coreId ∧ e.who.hart = h then
           { s.hart h with sync := (s.hart h).sync.map (fun r =>
               if r.pa = e.pa ∧ r.cid = e.who.cid ∧ (r.kind = 3 ↔ e.release = true) then { r with stage := .granted } else r) }
           else s.hart h) ∧
   (∀ (q : BitVec 2) (reader : Nat) (e : LogEntry) (es : List LogEntry) (s : State), s.mgmt.recovery = false →
     Map.get [] s.home.vlog q.toNat = e :: es → Completes (.violationLogTake q reader) s (fun t => t.core = s.core ∧
       t.home = { s.home with vlog := t.home.vlog } ∧ Map.get [] t.home.vlog q.toNat = es ∧
       (∀ k, k ≠ q.toNat → Map.get [] t.home.vlog k = Map.get [] s.home.vlog k) ∧
       (reader = 2 → t.host = { s.host with vlogRecord := [e.w0, e.w1, e.w2, e.w3] } ∧ t.h0 = s.h0 ∧ t.h1 = s.h1) ∧
       (reader = 0 → t.h0 = { s.h0 with vlogRecord := [e.w0, e.w1, e.w2, e.w3] } ∧ t.h1 = s.h1 ∧ t.host = s.host) ∧
       (reader = 1 → t.h1 = { s.h1 with vlogRecord := [e.w0, e.w1, e.w2, e.w3] } ∧ t.h0 = s.h0 ∧ t.host = s.host))) ∧
   (∀ s : State, (s.mgmt.evlog = [] → exec .evlogRead s = .next s) ∧
     ∀ w ws, s.mgmt.evlog = w :: ws → exec .evlogRead s = .next { s with mgmt := { s.mgmt with evlog := ws } } ∧
       s.evlogRead.1 = w))

/-- R150, R175, R250, R284, R449, R460 to R462, R476: the service commands retire a part, clear its bit and release a
halted hart, or are refused; an error is counted, and a part that reaches its threshold is marked under FMODE[3] = 0
and reported to the host under FMODE[3] = 1 (by a word that is a free value, log entry 142). R174: a parity error in
the way of the first queued array word puts a trap before its hart and leaves every element that takes nothing from
the failing 64 columns of the failing row as it would have been (which columns and which row are free values, log
entries 98 and 133). R20, R277, R284, R483, R484: the relocation of a cluster's layer space ends its stall, with
DEGRADE and the event, and every byte of it reads as before; the stall of a clock change ends; the power manager
lowers the hottest island above PLIM and every island above FMAXR by one, never below 36, each with its event. (When a
marked part leaves service, what a cleared mark leaves in DEGRADE, when a count reaches its threshold and which
islands one comparison moves are the model's readings, log entries 93, 95, 96 and 101.) -/
def Obligations.Services : Prop :=
  ((∀ (b : BitVec 8) (p : BitVec 16) (s : State),
     let part := (b.toNat, p.toNat)
     (s.mgmt.fmode.getLsbD 3 = false ∨ partOk b.toNat p.toNat = false →
       exec (.svcRetire b p) s = .next { s with mgmt := { s.mgmt with svcStatus := 1 } }) ∧
     (s.mgmt.fmode.getLsbD 3 = true → partOk b.toNat p.toNat = true → part ∈ s.mgmt.map →
       exec (.svcRetire b p) s = .next { s with mgmt := { s.mgmt with svcStatus := 0 } }) ∧
     (s.mgmt.fmode.getLsbD 3 = true → partOk b.toNat p.toNat = true → part ∉ s.mgmt.map →
       Completes (.svcRetire b p) s (fun t => s.Marks b.toNat p.toNat t ∧ t.mgmt.svcStatus = 0 ∧
         (∀ w, w < 32 → t.core.marked.getLsbD w = (s.core.marked.getLsbD w ||
           decide (b.toNat = 3 ∧ p.toNat = 32 * s.core.coreId.toNat + w))) ∧
         (b.toNat ≠ 7 → t.dir = s.dir))) ∧
     (partOk b.toNat p.toNat = false → exec (.svcClear b p) s = .next { s with mgmt := { s.mgmt with svcStatus := 1 } }) ∧
     (partOk b.toNat p.toNat = true → Completes (.svcClear b p) s (fun t =>
       t = { s with core := { s.core with marked := t.core.marked }, mgmt := t.mgmt } ∧ t.mgmt.svcStatus = 0 ∧
       (∀ e, e ∈ t.mgmt.map ↔ e ∈ s.mgmt.map ∧ e ≠ part) ∧ t.mgmt.dead = s.mgmt.dead ∧ t.mgmt.evlog = s.mgmt.evlog ∧
       (∀ i, t.mgmt.degrade.getLsbD i = true → s.mgmt.degrade.getLsbD i = true) ∧
       ∀ i, i ∈ [2, 3, 4, 5, 7, 8, 9, 10] → (t.mgmt.degrade.getLsbD i = true ↔
         s.mgmt.degrade.getLsbD i = true ∧ ∃ e ∈ t.mgmt.map, e.1 = i)))) ∧
   (∀ (n : BitVec 16) (s : State),
     let h := BitVec.ofNat 1 n.toNat
     let st (v : BitVec 1) (s : State) : State := { s with mgmt := { s.mgmt with svcStatus := v } }
     (n.toNat / 2 = s.core.coreId.toNat → (s.hart h).run = .halted → Completes (.svcReleaseHart n) s (fun t =>
       (st 0 s).OnlyHart h t ∧ t.hart h = { s.hart h with pc := (s.hart h).pc + 4, run := .running })) ∧
     (n.toNat / 2 = s.core.coreId.toNat → (s.hart h).run ≠ .halted → exec (.svcReleaseHart n) s = .next (st 1 s)) ∧
     (n.toNat / 2 ≠ s.core.coreId.toNat → 1024 ≤ n.toNat / 2 → exec (.svcReleaseHart n) s = .next (st 1 s))) ∧
   (∀ (kind sub : BitVec 4) (p : BitVec 16) (s : State),
     ∀ e ∈ ([(0, 3, some 0, some 8), (1, 3, some 1, some 8), (2, 4, some 2, some 8), (3, 7, some 3, some 4),
         (4, 8, some 4, none), (5, 8, some 5, some 16), (6, 9, some 6, some 32), (7, 10, some 6, some 32),
         (8, 5, some 7, some 64), (9, 2, none, some 1)] : List (Nat × Nat × Option Nat × Option Nat)),
       kind.toNat = e.1 → partOk e.2.1 p.toNat = true → ¬(kind = 1 ∧ p.toNat / 32 = s.core.coreId.toNat) →
       Completes (.hardwareError kind p sub) s (fun t =>
         let num := if e.2.1 = 3 then 16 * p.toNat + sub.toNat else p.toNat
         let n := s.ctr.window.countP (fun w => w.1 == e.2.1 && w.2.1 == num && decide (s.ctr.cycle.toNat < w.2.2 + 2 ^ 30)) + 1
         (∀ k, (Store.get t.ctr.errors k).toNat =
           if e.2.2.1 = some (k - 8 * partQuadrant e.2.1 p.toNat) ∧ 8 * partQuadrant e.2.1 p.toNat ≤ k then
             min ((Store.get s.ctr.errors k).toNat + 1) (2 ^ 64 - 1) else (Store.get s.ctr.errors k).toNat) ∧
         ((∃ l, e.2.2.2 = some l ∧ l ≤ n) ∧ s.mgmt.fmode.getLsbD 3 = false ∧ (e.2.1, p.toNat) ∉ s.mgmt.map →
           s.Marks e.2.1 p.toNat t) ∧
         (e.2.2.2 = some n ∧ s.mgmt.fmode.getLsbD 3 = true →
           t.mgmt = { s.mgmt with evlog := s.mgmt.evlog ++ [Config.failureWord e.2.1 p.toNat] } ∧
           { t with ctr := s.ctr, mgmt := s.mgmt, host := s.host } = s) ∧
         (¬((∃ l, e.2.2.2 = some l ∧ l ≤ n) ∧ s.mgmt.fmode.getLsbD 3 = false ∧ (e.2.1, p.toNat) ∉ s.mgmt.map) →
           ¬(e.2.2.2 = some n ∧ s.mgmt.fmode.getLsbD 3 = true) → { t with ctr := s.ctr } = s))) ∧
   (∀ (way lo : Nat) (row : ParityRow) (sub : BitVec 4) (q : QEntry) (qs : List QEntry) (s u : State), way < 32 →
     s.core.queue = q :: qs → (s.mt way).state ≠ 1 → s.mayBegin 0 q = true → way ∈ s.restWays q → q.w.op ∈ elementOps →
     s.core.coreId.toNat < 512 → q.w.check q.fmt.isSome q.res q.scaleg = none →
     exec (.arrayInstructionBegin 0) s = .next u → (s.ctx q).rows ≠ [] →
     (s.ctx q).failing way sub.toNat s.free = some (lo, row) →
     Completes (.hardwareError 1 (BitVec.ofNat 16 (32 * s.core.coreId.toNat + way)) sub) s (fun t =>
       let c := s.ctx q
       let others := q.flags ||| c.otherFlags s.core.sram s.core.gens lo row
       (∃ r, t.core.queue[0]? = some r ∧ r.stage = .begun ∧ r.value = 0 ∧ others &&& ~~~r.flags = 0 ∧
         r.flags &&& ~~~(flagMask q.w.op ||| others) = 0) ∧
       (∃ e, (t.hart q.hart).parityEv = some e ∧ ((s.hart q.hart).parityEv = none →
         e.finfo = BitVec.ofNat 64 way ∧ e.detail = sub.zeroExtend 8)) ∧
       ∀ e, c.inSel e = true → c.affected s.core.sram lo row e = false →
         c.get t.core.sram c.dst.1 (4 * c.dst.2) e = c.get u.core.sram c.dst.1 (4 * c.dst.2) e))) ∧
  ((∀ (c : BitVec 7) (s : State), (c.toNat ∉ s.mgmt.relocating → exec (.relocationStallEnd c) s = .next s) ∧
     (c.toNat ∈ s.mgmt.relocating → Completes (.relocationStallEnd c) s (fun t =>
       (∀ x, x ∈ t.mgmt.relocating ↔ x ∈ s.mgmt.relocating ∧ x ≠ c.toNat) ∧
       t.mgmt.relocated = s.mgmt.relocated ++ [c.toNat] ∧ t.mgmt.evlog = s.mgmt.evlog ++ [retireWord 6 c.toNat] ∧
       (∀ i, i < 64 → t.mgmt.degrade.getLsbD i = (s.mgmt.degrade.getLsbD i ||
         decide (i = 0 ∨ i = 6 ∨ i = 16 + c.toNat / 32))) ∧
       (c.toNat ≠ s.ownCluster ∨ s.hostPort = true → t.core = s.core ∧ t.home = s.home) ∧
       (c.toNat = s.ownCluster → s.hostPort = false → c.toNat ∉ s.mgmt.relocated → s.wf = true →
         t.core = { s.core with sram := t.core.sram } ∧
         (∀ i, i < s.extent true → t.scratchLoad true i 1 = s.scratchLoad true i 1) ∧
         ∀ a, (∀ i, i < s.extent true → a ≠ s.slotKey (s.scratchKey true i)) →
           Memory.byte t.home.mem a = Memory.byte s.home.mem a) ∧
       ∀ h, (t.hart h).g = (s.hart h).g ∧ (t.hart h).csr = (s.hart h).csr))) ∧
   (∀ (i : BitVec 4) (s : State), exec (.xratioStallEnd i) s =
     .next { s with mgmt := { s.mgmt with stalled := s.mgmt.stalled.filter (fun x => x != i.toNat) } }) ∧
   (∀ (power : BitVec 16) (islands : List (BitVec 16)) (s : State), islands.length ≠ 16 →
     exec (.powerComparison power islands) s = .next s) ∧
   (∀ (power : BitVec 16) (islands : List (BitVec 16)) (n : Nat) (s : State), islands.length = 16 → n < 16 →
     (∀ k, k < 16 → (islands.getD k 0).toNat ≤ (islands.getD n 0).toNat) →
     (∀ k, k < n → (islands.getD k 0).toNat < (islands.getD n 0).toNat) →
     let event (k x : Nat) : Word := BitVec.ofNat 64 (0x40 + 256 * (8 * (k / 4) + k % 4) + 65536 * x)
     Completes (.powerComparison power islands) s (fun t => t.mgmt.power = power.zeroExtend 64 ∧
       t.home = s.home ∧ t.core = s.core ∧ (∀ h, (t.hart h).g = (s.hart h).g) ∧
       (∀ k, k < 16 → s.mgmt.fmaxr.toNat < s.xratio k → 36 < s.xratio k → t.xratio k = s.xratio k - 1) ∧
       ((∀ k, k < 16 → s.xratio k ≤ s.mgmt.fmaxr.toNat) → s.mgmt.plim.toNat < power.toNat → 36 < s.xratio n →
         (∀ k, t.xratio k = if k = n then s.xratio n - 1 else s.xratio k) ∧
         t.mgmt.evlog = s.mgmt.evlog ++ [event n (s.xratio n - 1)] ∧ t.mgmt.below = 0 ∧ t.mgmt.lowered.head? = some n) ∧
       ((∀ k, k < 16 → s.xratio k ≤ s.mgmt.fmaxr.toNat) → power.toNat ≤ s.mgmt.plim.toNat → s.mgmt.below < 9 →
         (∀ k, t.xratio k = s.xratio k) ∧ t.mgmt.evlog = s.mgmt.evlog ∧
         t.mgmt.below = if 100 * power.toNat < 95 * s.mgmt.plim.toNat then s.mgmt.below + 1 else 0) ∧
       (∀ k, (∀ k, k < 16 → s.xratio k ≤ s.mgmt.fmaxr.toNat) → 100 * power.toNat < 95 * s.mgmt.plim.toNat →
         9 ≤ s.mgmt.below → s.mgmt.lowered.head? = some k → s.xratio k < s.mgmt.fmaxr.toNat → s.mgmt.fmaxr.toNat ≤ 84 →
         (∀ j, t.xratio j = if j = k then s.xratio k + 1 else s.xratio j) ∧
         t.mgmt.evlog = s.mgmt.evlog ++ [event k (s.xratio k + 1)]))))

/-- R107, R438, R439, R479: learning ends with the 15 most frequent values in VFT[0]; a round of re-sampling starts
under FMODE[2] = 0 where generation exhaustion does not hold it, and installs its own table whatever FMODE[2] is by
then; the scrubber recodes a superblock of the oldest generation under NEWEST, and a pass that leaves some raises
generation exhaustion; a table is installed as the oldest generation, which becomes NEWEST, only when that
generation's count is 0. (The cleared window, the event of kind 2 raised once and the rounds held by exhaustion, and
to whom the events go, are the model's readings, log entries 89 and 91.) -/
def Obligations.Codecs : Prop :=
  ∀ (k : BitVec 4) (s : State), k.toNat < 12 →
    let c := s.codec k.toNat
    let o := (c.newest.toNat + 1) % 4
    let count := (Store.get c.counts o).toNat
    let event (n : Nat) : Word := BitVec.ofNat 64 (0x31 + 256 * k.toNat + 65536 * n)
    let alone (t : State) : Prop := { t with home := s.home, mgmt := s.mgmt, host := s.host, h0 := s.h0, h1 := s.h1 } = s ∧
      t.home = { s.home with codecs := t.home.codecs } ∧ ∀ j, j ≠ k.toNat → t.codec j = s.codec j
    let quiet (t : State) : Prop := { t with home := s.home } = s
    let told (n : Nat) (t : State) : Prop := t.mgmt = { s.mgmt with evlog := s.mgmt.evlog ++ [event n] } ∧
      ∀ h, t.hart h = { s.hart h with mgmtEv := (s.hart h).mgmtEv ++
        if s.hostPort = true ∧ s.quadrant = codecQuadrant k.toNat then [event n] else [] }
    let cnt (v : Nat) : Nat := (Store.get c.samples v).toNat
    let before (v w : Nat) : Prop := cnt w < cnt v ∨ (cnt v = cnt w ∧ v < w)
    let learnt (base : Nat) (d : Codec) : Prop :=
      let e (i : Nat) : Nat := (Store.get d.vft (base + i)).toNat
      (∀ i, i < 15 → 65536 ≤ e i → cnt (e i - 65536) ≠ 0) ∧ (∀ i, i < 15 → e i < 65536 → e i = 0) ∧
      (∀ i j, i < j → j < 15 → 65536 ≤ e j → 65536 ≤ e i ∧ before (e i - 65536) (e j - 65536)) ∧
      (∀ v, cnt v ≠ 0 → (∃ i, i < 15 ∧ e i = 65536 + v) ∨ (65536 ≤ e 14 ∧ before (e 14 - 65536) v)) ∧
      ∀ i, (i < base ∨ base + 15 ≤ i) → Store.get d.vft i = Store.get c.vft i
    (c.learn = true → 65536 ≤ c.taken → Store.wf c.samples = true → (∀ e ∈ c.samples, e.1 < 65536) →
      Completes (.codecLearningComplete k) s (fun t => alone t ∧ quiet t ∧ (t.codec k.toNat).learn = false ∧
        (t.codec k.toNat).newest = c.newest ∧ (t.codec k.toNat).window = [] ∧ learnt 0 (t.codec k.toNat))) ∧
    (c.learn = false ∨ c.taken < 65536 → exec (.codecLearningComplete k) s = .next s) ∧
    (c.learn = false → c.resampling = false → c.asked = false → s.mgmt.fmode.getLsbD 2 = false →
      c.exhausted = false ∨ count = 0 → 16384 < c.window.countP id →
      Completes (.codecResampleStart k) s (fun t => alone t ∧ quiet t ∧
        t.codec k.toNat = { c with resampling := true, samples := [], taken := 0 })) ∧
    (c.window.countP id ≤ 16384 ∨ s.mgmt.fmode.getLsbD 2 = true ∨ (c.exhausted = true ∧ count ≠ 0) → exec (.codecResampleStart k) s = .next s) ∧
    (∀ (frame : Nat) (sb : BitVec 4) (fr : Frame),
      (s.codecFrames k.toNat).find? (fun e => e.1 == frame) = some (frame, fr) →
      let a := 2 ^ 48 + frame * 4096 + 256 * sb.toNat
      let size := sizeCode c c.newest.toNat (s.storedMem a) a
      (Store.get fr.gen sb.toNat).toNat = o → (∀ x ∈ c.overflow, ¬(x.frame = frame ∧ x.sb = sb.toNat)) →
      fr.fits sb.toNat size = true → fr.moved = false → Completes (.scrubberRecode k frame sb) s (fun t => quiet t ∧ t.home.mem = s.home.mem ∧
        (∀ f, f ≠ frame → Map.get none t.home.frames f = Map.get none s.home.frames f) ∧
        (∃ fr', Map.get none t.home.frames frame = some fr' ∧ fr'.cmp = fr.cmp ∧
          ∀ i, Store.get fr'.gen i = (if i = sb.toNat then c.newest else Store.get fr.gen i) ∧
            Store.get fr'.size i = if i = sb.toNat then BitVec.ofNat 3 size else Store.get fr.size i) ∧
        ∀ g, Store.get (t.codec k.toNat).counts g = if g = o then Store.get c.counts g - 1
          else if g = c.newest.toNat then Store.get c.counts g + 1 else Store.get c.counts g)) ∧
    (count ≠ 0 → c.exhausted = false → s.scrubLeft k.toNat = false → Completes (.scrubberPassEnd k) s (fun t => alone t ∧
      told 0 t ∧ t.codec k.toNat = { c with exhausted := true })) ∧
    (count = 0 → exec (.scrubberPassEnd k) s = .next s) ∧
    (c.install ≠ 1 → c.resampling = true → 65536 ≤ c.taken → count = 0 → Store.wf c.samples = true →
      (∀ e ∈ c.samples, e.1 < 65536) →
      Completes (.codecTableInstall k) s (fun t => alone t ∧ quiet t ∧ (t.codec k.toNat).newest.toNat = o ∧
        (t.codec k.toNat).resampling = false ∧ (t.codec k.toNat).window = [] ∧ learnt (15 * o) (t.codec k.toNat))) ∧
    (c.install = 1 ∨ c.resampling = true → count ≠ 0 → exec (.codecTableInstall k) s = .next s) ∧
    (s.mgmt.fmode.getLsbD 2 = false → c.asked = false →
      Completes (.codecInstallWrite k) s (fun t => alone t ∧ quiet t ∧ t.codec k.toNat = { c with install := 2 })) ∧
    (s.mgmt.fmode.getLsbD 2 = true ∨ c.asked = true →
      let staged (t : State) : Prop := alone t ∧ told 1 t ∧ (t.codec k.toNat).newest.toNat = o ∧
        (t.codec k.toNat).install = 0 ∧ (∀ i, (i < 15 * o ∨ 15 * o + 15 ≤ i) →
          Store.get (t.codec k.toNat).vft i = Store.get c.vft i) ∧
        ∀ i, i < 15 → (Store.get (t.codec k.toNat).vft (15 * o + i)).toNat =
          if (Store.get c.staging 15).getLsbD i then 65536 + (Store.get c.staging i).toNat else 0
      (count = 0 → Completes (.codecInstallWrite k) s staged) ∧
      (count ≠ 0 → Completes (.codecInstallWrite k) s (fun t => alone t ∧ quiet t ∧
        t.codec k.toNat = { c with install := 1 })) ∧
      (c.install = 1 → count = 0 → Completes (.codecTableInstall k) s staged) ∧
      (c.install ≠ 1 → s.mgmt.fmode.getLsbD 2 = true → c.learn = false → c.resampling = false → c.asked = false →
        c.exhausted = false ∨ count = 0 → 65536 ≤ c.taken → Completes (.codecTableInstall k) s (fun t => alone t ∧ told 2 t ∧ t.codec k.toNat = { c with asked := true })))

/-- R473, R476, R479, R481, R482: the host's writes of the management block: each register takes its fields, a service
command and START act, LOADWIN writes home memory before START and is a violation after it; in recovery only this
block answers. (The place of START, the layout of the MSI-X table, the range of FMAXR and an unknown op, and how the
host's violations are logged are the model's, log entries 17, 12, 124, 104 and 123.) -/
def Obligations.HostWrites : Prop :=
  ∀ (v : BitVec 64) (s : State),
    let put (o : Nat) : Instr := .registerWrite (BitVec.ofNat 48 (0xF01000000000 + o)) v
    let only (i : Instr) (m : Management) : Prop := exec i s = .next { s with mgmt := m }
    let m := s.mgmt
    only (put 0x20) { m with devnum := v.truncate 12 } ∧
    only (put 0x08) (if 2600 ≤ v.toNat ∧ v.toNat ≤ 3200 then { m with plim := v } else m) ∧
    only (put 0x10) (if 36 ≤ v.toNat ∧ v.toNat ≤ 84 then { m with fmaxr := v } else m) ∧
    (∀ k, k < 4096 → Completes (put (0x10000 + 8 * k)) s (fun t => t = { s with mgmt := { m with route := t.mgmt.route } } ∧
      ∀ j, Store.get t.mgmt.route j = if j = k then v.truncate 16 else Store.get m.route j)) ∧
    (∀ k, k < 16 → Completes (put (0x40 + 8 * k)) s (fun t => t = { s with mgmt := { m with peermap := t.mgmt.peermap } } ∧
      ∀ j, Store.get t.mgmt.peermap j = if j = k then v.truncate 32 &&& 0x80000FFF else Store.get m.peermap j)) ∧
    (∀ k, k < 8 → Completes (put (0x30000 + 8 * k)) s (fun t => t = { s with mgmt := { m with nonce := t.mgmt.nonce } } ∧
      ∀ i, i < 64 → Store.get t.mgmt.nonce i =
        if 8 * k ≤ i ∧ i < 8 * k + 8 then byteOf v.toNat (i - 8 * k) else Store.get m.nonce i)) ∧
    (∀ k j, k < 12 → j < 4 → Completes (put (0x20000 + 4096 * k + 8 * j)) s (fun t =>
      t = { s with home := { s.home with codecs := t.home.codecs } } ∧ (∀ n, n ≠ k → t.codec n = s.codec n) ∧
      t.codec k = { s.codec k with staging := (t.codec k).staging } ∧ ∀ n, Store.get (t.codec k).staging n =
        if 4 * j ≤ n ∧ n < 4 * j + 4 then BitVec.ofNat 16 (wf v (16 * (n - 4 * j)) 16) else Store.get (s.codec k).staging n)) ∧
    (∀ k, k < 12 → exec (put (0x20020 + 4096 * k)) s = exec (.codecInstallWrite (BitVec.ofNat 4 k)) s) ∧
    (v.toNat % 256 = 1 → exec (put 0) s = exec (.svcRetire (BitVec.ofNat 8 (wf v 8 8)) (BitVec.ofNat 16 (wf v 16 16))) s) ∧
    (v.toNat % 256 = 2 → exec (put 0) s = exec (.svcClear (BitVec.ofNat 8 (wf v 8 8)) (BitVec.ofNat 16 (wf v 16 16))) s) ∧
    (v.toNat % 256 = 3 → exec (put 0) s = exec (.svcReleaseHart (BitVec.ofNat 16 (wf v 16 16))) s) ∧
    (v.toNat % 256 = 0 ∨ 3 < v.toNat % 256 → only (put 0) { m with svcStatus := 1 }) ∧
    exec (put 0x30040) s = (if v = 1 then exec .attestationRequest s else .next s) ∧
    (m.started = false → only (put 0x40000) { m with loadAddr := v } ∧ exec (put 0x40008) s = exec .loadStart s ∧
      ∀ k, k < 1048576 → s.homeError (m.loadAddr.toNat + 8 * k) = none →
        Map.get none s.home.frames (frameOf (m.loadAddr.toNat + 8 * k)).1 = none →
        (s.llcStored (m.loadAddr.toNat + 8 * k)).isSome = true → Completes (put (0x800000 + 8 * k)) s (fun t => s.HomeStored (m.loadAddr.toNat + 8 * k) 8 v.toNat t ∧
          t.mgmt = { m with loaded := max m.loaded (8 * k + 8) } ∧ s.CoreKept t)) ∧
    (m.started = true → ∀ o, o = 0x40000 ∨ o = 0x40008 ∨ (∃ k, k < 1048576 ∧ o = 0x800000 + 8 * k) →
      Completes (put o) s (fun t => t = { s with home := { s.home with vlog := t.home.vlog, overrun := t.home.overrun } } ∧
        ∃ q l e, Map.get [] t.home.vlog q = l ++ [e] ∧ e.w0 = BitVec.ofNat 64 (0xF01000000000 + o) ∧
          e.w1 = s.ctr.cycle)) ∧
    (∀ k, k < 328 → m.recovery = false →
      (v.getLsbD 32 = true → Completes (.registerWrite (BitVec.ofNat 48 (16 * k + 8)) v) s (fun t =>
        t = { s with host := { s.host with msixOpen := t.host.msixOpen } } ∧
        ∀ j, Store.get t.host.msixOpen j = if j = k then 0 else Store.get s.host.msixOpen j)) ∧
      (v.getLsbD 32 = false → exec (.registerWrite (BitVec.ofNat 48 (16 * k + 8)) v) s =
        exec (.msixVectorUnmask (BitVec.ofNat 9 k)) s)) ∧
    (∀ a : BitVec 48, m.recovery = true → a.toNat < 0xF01000000000 → exec (.registerWrite a v) s = .next s)

/-- R90, R91, R449, R481, R482, R486, R487: a device reset clears the machine but for the retirement map; a step of
bring-up that fails leaves the device in recovery with its number in EVLOG; an image that passes its checks is
started, each hart at the image's entry at level 1 with its stack and role; one that fails leaves the device in
recovery; the report of an attestation request is laid out as Table 25-7. (The empty memories, caches and TLBs, what a
reset keeps, and the entry's cleared low bits are the model's, log entries 1, 5, 7, 105 and 44.) -/
def Obligations.BringUp : Prop :=
  (∀ s : State, Completes .deviceReset s (fun t => t.home.mem = [] ∧ t.cache = [] ∧ t.core.sram = [] ∧ t.mmu.tlb = [] ∧
    t.h0.run = .held ∧ t.h1.run = .held ∧ t.ctr.cycle = 0 ∧ t.mgmt.fmode = 0 ∧ t.mgmt.started = false ∧ t.mgmt.loaded = 0 ∧
    t.core.coreId = s.core.coreId ∧ t.host.hostMem = s.host.hostMem ∧ (∀ e ∈ s.mgmt.map, e ∈ t.mgmt.map ∧ e ∈ t.mgmt.dead) ∧
    (∀ w, w < 32 → (3, 32 * s.core.coreId.toNat + w) ∈ s.mgmt.map → t.role w = 3) ∧
    (let k := Config.failedStep s.free
     (1 ≤ k ∧ k ≤ 6 → t.mgmt.recovery = true ∧ t.mgmt.evlog.getLast? = some (BitVec.ofNat 64 (0xE000 + k))) ∧
     (k = 0 ∨ 6 < k → t.mgmt.recovery = false)))) ∧
  (∀ s : State,
    let i := s.image
    let next := (layOut i s.mgmt.loadAddr.toNat s.free s.home.mem).2.2
    let area := (s.mgmt.loadAddr.toNat + i.length + 2 ^ 21 - 1) / 2 ^ 21 * 2 ^ 21
    (s.mgmt.started = true ∨ s.mgmt.recovery = true → exec .loadStart s = .next s) ∧
    (s.mgmt.started = false → s.mgmt.recovery = false →
      (i.ok s.mgmt.loaded = false → Completes .loadStart s (fun t => t.mgmt.recovery = true ∧ t.mgmt.started = true ∧
        t.mgmt.evlog = s.mgmt.evlog ++ [0xE008] ∧ t.h0 = s.h0 ∧ t.h1 = s.h1 ∧ t.core = s.core ∧ t.home = s.home)) ∧
      (i.ok s.mgmt.loaded = true → s.leaving 2 s.core.coreId.toNat = true → Completes .loadStart s (fun t =>
        t.mgmt.started = true ∧ t.mgmt.recovery = false ∧ t.h0 = s.h0 ∧ t.h1 = s.h1)) ∧
      (i.ok s.mgmt.loaded = true → s.leaving 2 s.core.coreId.toNat = false → Completes .loadStart s (fun t =>
        t.mgmt = { s.mgmt with started := true, resident := t.mgmt.resident } ∧
        t.core.cid = 1 ∧ t.core.ptbase.toNat % 4096 = 0 ∧ area ≤ next ∧ next % 2 ^ 21 = 0 ∧
        (s.relocated = false ∨ i.upper = 0 →
          ∀ a, a < area ∨ next ≤ a → Memory.byte t.home.mem a = Memory.byte s.home.mem a) ∧
        (∀ w, w < 32 → t.role w = if bit s.core.out.toNat w then 3
          else if w < 16 then (bits i.lower w 1) else if s.hostPort then 3 else bits i.upper (w - 16) 1) ∧
        ∀ h, (t.hart h).run = .running ∧ (t.hart h).pl = 1 ∧ (t.hart h).ieOn = true ∧ (t.hart h).ao = (h == 0) ∧
          (t.hart h).pc = (BitVec.ofNat 64 i.entry) &&& ~~~3 ∧
          ∀ r, r < 56 → (t.hart h).reg r =
            if r = 2 then BitVec.ofNat 64 (0x7F0000000000 + 0x20000 * (2 * s.core.coreId.toNat + h.toNat) + 0x10000)
            else if r = 5 then (if s.hostPort then 2 else if s.core.coreId.toNat % 128 = 0 ∧ h = 0 then 1 else 0)
            else if r = 6 then BitVec.ofNat 64 s.quadrant else if r = 7 then BitVec.ofNat 64 next else 0)))) ∧
  (∀ s : State, s.mgmt.resident = [] ∨ s.mgmt.resident.length = 64 → Completes .attestationRequest s (fun t =>
    t = { s with mgmt := { s.mgmt with report := t.mgmt.report, reportLen := 0x11A + 4627 } } ∧
    let at_ (o n v : Nat) : Prop := ∀ k, k < n → Store.get t.mgmt.report (o + k) = byteOf v k
    at_ 0 4 0x41544D4F ∧ at_ 4 4 1 ∧ at_ 0xC8 8 Config.caps.toNat ∧ at_ 0xD0 8 s.ctr.cycle.toNat ∧
    at_ 0x118 2 s.mgmt.devnum.toNat ∧ ∀ k, k < 64 → Store.get t.mgmt.report (8 + k) = Store.get s.mgmt.nonce k ∧
      Store.get t.mgmt.report (0x48 + k) = Config.firmwareDigest k ∧
      Store.get t.mgmt.report (0x88 + k) = s.mgmt.resident.getD k 0))

/-- R116, R152, R153, R155: the firmware services, which wait for a pending g5 to g8: a save of a core whose other
hart is at rest writes its container and answers 0; one with a hart at work answers 7, a service that does not exist
−1, a container that fails a check its status, with the core as it was; a restore gives each hart the general
registers that the container holds, and its TVEC, SCRATCH, FLAGS, CAUSE and EPC and the core's SHAPE, PTBASE, CID,
AKEY and SCALEG the fields of their layouts (R4, R141; that a restore masks them so is the model's choice, log entry
139). (Status 1 for a misaligned container and the calling hart's saved EPC are the model's readings, log entries 107
and 108.) -/
def Obligations.ContextServices : Prop :=
  (∀ (h : BitVec 1) (s : State), s.firmwareCall h = true → (∃ r ∈ [5, 6, 7, 8], (s.hart h).isPending r = true) →
    exec (.contextSave h) s = .next s ∧ exec (.contextRestore h) s = .next s) ∧
  (∀ (h : BitVec 1) (s : State), s.firmwareCall h = true → (∀ r ∈ [5, 6, 7, 8], (s.hart h).isPending r = false) →
    let x := s.hart h
    let o := s.hart (other h)
    let answers (st : Word) (s t : State) : Prop := s.OnlyHart h t ∧ (t.hart h).reg 5 = st ∧
      (∀ r, r ≠ 5 → (t.hart h).reg r = (s.hart h).reg r) ∧ (t.hart h).pl = 1 ∧ (t.hart h).pc = (s.hart h).csr.epc + 4 ∧
      (t.hart h).run = .running
    (x.reg 5 ≠ 0x10 → x.reg 5 ≠ 0x11 → Completes (.contextSave h) s (answers 0xFFFFFFFFFFFFFFFF s)) ∧
    (x.reg 5 = 0x10 → (∀ w, o.run ≠ .asleep w) → o.stopped = false → Completes (.contextSave h) s (answers 7 s)) ∧
    (x.reg 5 = 0x10 → ((∃ w, o.run = .asleep w) ∨ o.stopped = true) → s.quiet = true →
      ∀ s1, s.settleAll.bind (fun s => s.overLines (fun _ => true) State.cleanLine) = some s1 →
        ((x.reg 6).toNat % 4096 ≠ 0 → Completes (.contextSave h) s (answers 1 s1)) ∧
        ∀ v ms reg reps u s2 s3 s4 s5, (x.reg 6).toNat % 4096 = 0 →
          s1.loadWords (s1.firmwareId h) (x.reg 6 + 0x20) 2 [] = (.ok v s2, ms) →
          (∀ k, s2.registry (s1.firmwareId h) (x.reg 7) (x.reg 8) s k = k reg s3) →
          (∀ k, replySection s3 reg s k = k reps s4) →
          s4.spillWords (s1.firmwareId h) (x.reg 6)
            (s4.container h reg (x.reg 7 != 0) (ms.getD 0 0) (ms.getD 1 0) reps) = .ok u s5 →
          (s5.leaving 2 s5.core.coreId.toNat = false →
            Completes (.contextSave h) s (answers 0 { s5 with tile := (s5.afterSave).tile })) ∧
          (s5.leaving 2 s5.core.coreId.toNat = true → Completes (.contextSave h) s (fun t =>
            (2, s5.core.coreId.toNat) ∈ t.mgmt.dead ∧ ∀ k, (t.hart k).run = .held))) ∧
    (x.reg 5 = 0x11 → s.quiet = true → (x.reg 6).toNat % 4096 ≠ 0 → Completes (.contextRestore h) s (answers 1 s)) ∧
    (x.reg 5 = 0x11 → s.quiet = true → (x.reg 6).toNat % 4096 = 0 →
      ∀ v u hd ws s1 s2, s.loadWords (s.firmwareId h) (x.reg 6) 4 [] = (.ok v s1, hd) →
        hd.getD 0 0 % 2 ^ 32 = 0x584D4F43 → 256 ≤ hd.getD 3 0 →
        s1.loadWords (s.firmwareId h) (x.reg 6) (hd.getD 3 0 / 8) [] = (.ok u s2, ws) →
        ∀ reg s3, (∀ k, s2.registry (s.firmwareId h) (x.reg 7) (x.reg 8) s k = k reg s3) →
        (s3.restoreStatus reg ws ≠ 0 →
          Completes (.contextRestore h) s (answers (BitVec.ofNat 64 (s3.restoreStatus reg ws)) s3)) ∧
        (ws.getD 0 0 % 2 ^ 32 = 0x584D4F43 → 1 < bits (ws.getD 0 0) 32 16 → s3.restoreStatus reg ws = 2) ∧
        ∀ t, s3.restoreStatus reg ws = 0 → s3.restored reg ws = .done t → exec (.contextRestore h) s = .next t)) ∧
  (∀ (h k : BitVec 1) (m0 m1 : Nat) (reps : List Nat) (s s1 t : State),
    let ws := s.container h [] false m0 m1 reps
    ws.getD 0 0 % 2 ^ 32 = 0x584D4F43 ∧ bits (ws.getD 0 0) 32 16 = 1 ∧ ws.getD 2 0 % 2 ^ 16 = s.core.cid.toNat % 2 ^ 16 ∧
    ws.getD 3 0 = 8 * ws.length ∧
    (s.net.spill = none → s1.restored [] ws = .done t → (∀ r, r < 64 → (t.hart k).reg r = (s.hart k).reg r) ∧
      (t.hart k).csr.tvec = (s.hart k).csr.tvec &&& ~~~3 ∧ (t.hart k).csr.scratch = (s.hart k).csr.scratch ∧
      (t.hart k).csr.flags = (s.hart k).csr.flags &&& 0x3F ∧ (t.hart k).csr.cause = (s.hart k).csr.cause &&& 0xFFFF ∧
      (t.hart k).csr.epc = ((s.hart k).csr.epc + if k = h then 4 else 0) &&& ~~~3 ∧ (t.hart k).pc = (t.hart k).csr.epc ∧
      t.core.shape = t.shapeWrite s.core.shape ∧ t.core.ptbase = s.core.ptbase &&& 0xFFFFFFFFF000 ∧
      t.core.cid = s.core.cid &&& 0xFFFF ∧ t.core.akey = s.core.akey ∧ t.core.scaleg = s.core.scaleg &&& 0x7F))

/-- Tables 03-1 to 03-9: decoding the word of a well-formed instruction gives it back, with every operand at every value
that its encoding admits. -/
def Obligations.DecodeEncode : Prop :=
  ∀ i : Instr, wellFormed i = true → isEvent i = false → decode (encode i) = some i

/-- Table 03-13 and the example words of Tables 07-5, 10-6, 11-5, 15-8, 16-4, 16-9, 18-10, R402 and R404: example words of
the spec decode to the instructions that it gives for them; the words that R73 keeps illegal do not decode. -/
def Obligations.DecodeWords : Prop :=
  decode 0x80404190 = some (.vadd 8 4 12 1 0 0) ∧ decode 0x6AD080A0 = some (.fmt 0x16 0x10 0x10 0 1 1) ∧
  decode 0xD880A165 = some (.vlds 16 10 11 1) ∧ decode 0xD4308009 = some (.vredsum 6 8) ∧
  decode 0x5C0004A6 = some (.fence 2 1 1) ∧ decode 0x60280012 = some (.csrr 5 0x12) ∧
  decode 0x50382602 = some (.ld 7 2 0x002) ∧ decode 0x3FF8501E = some (.bne 0x7F 5 0 0x1E) ∧
  decode 0x10480012 = some (.addi 9 0 18) ∧ decode 0x34001000 = some (.jalr 0 1 0) ∧
  decode 0xE02860E0 = some (.ashape 5 6 7) ∧ decode 0xE40080A2 = some (.msplit 8 5) ∧
  decode 0xE8090402 = some (.tmma 1 16 32) ∧ decode 0x70388000 = some (.cpy 7 8) ∧
  decode 0x7448A161 = some (.nput 9 10 11) ∧ decode 0x782800C6 = none ∧ decode 0x780050C6 = some (.tkdep 5 6) ∧
  decode 0x7C286001 = some (.sopen 5 6) ∧ decode 0x640050C5 = some (.tlbinv 5 6) ∧
  decode 0x64388007 = some (.xprobe 7 8) ∧ decode 0 = none ∧ decode 0xFFFFFFFF = none

/-- R93, R59, R71: a step at which hart h has its boundary, with no interrupt to take, executes the instruction that
the word it meets decodes to, and any other word as an illegal instruction; behind a jump past an FMT the word traps
0x09 unless it is illegal or privileged (R74, R81); the word that it meets is the one that memory holds at its PC. A
step of the device that the agenda names is executed. R93, R115: a hart whose word names a pending register stays at
it: nothing but performance counters and the note of what it waits for changes. -/
def Obligations.StepRunsDecoded : Prop :=
  ((∀ (h : BitVec 1) (w : BitVec 32) (b : Bool) (rest : List (Option Instr)) (s s1 : State),
     (s.agenda = none :: rest ∧ b = s.bg) ∨ (s.agenda = [] ∧ rest = [] ∧ s.bg = false ∧ b = true) →
     let u := { s.tick with agenda := rest, bg := b }
     h = (if u.acts u.turn then u.turn else other u.turn) → u.acts h = true →
     let v := ({ u with turn := other h, cur := .hart h }).modHart h (fun x => { x with stalled := none })
     v.asyncNext h false = none → v.firmwareCall h = false → (v.hart h).issues = true →
     (v.meet h = .word w s1 →
       (∀ i, decode w = some i → step s = exec i s1) ∧ (decode w = none → step s = exec (.illegalInstruction w) v)) ∧
     (v.meet h = .skipped w s1 → (decode w = none → step s = exec (.illegalInstruction w) v) ∧
       ∀ i t, decode w = some i → exec i s1 = .next t →
         step s = .next (if t = s1.trapAt h 0x01 0 ∨ t = s1.trapAt h 0x02 0 then t
           else s1.enterTrap h 0x09 0 (s1.hart h).pc none))) ∧
   (∀ (h : BitVec 1) (n : Nat) (t : Trans) (s s1 s2 : State), s.translate h .fetch (s.hart h).pc = (.ok t, s1) →
     t.mmio = false → s1.fetchMem h t = (.ok n, s2) → (s.hart h).fmt = none → (s.hart h).jumped = false →
     (Map.get none s2.mmu.icache (t.name / 4) = none ∨
       Map.get none s2.mmu.icache (t.name / 4) = some (BitVec.ofNat 32 n)) →
     (t.ms = true → n = s1.homeValue t.name 4) ∧
     ∃ s3, s.meet h = .word (BitVec.ofNat 32 n) s3 ∧ { s3 with mmu := s2.mmu } = s2) ∧
   (∀ (w : BitVec 32) (i : Instr), decode w = some i → ∃ s1, step (State.reset.withFetchWord 32 w.toNat) = exec i s1 ∧
     s1.cur = .hart 0 ∧ s1.h0.pc = 0 ∧ s1.h0.pl = 1 ∧ s1.h0.g = [] ∧ s1.h1 = State.reset.h1) ∧
   (∀ (i : Instr) (rest : List (Option Instr)) (s : State), s.agenda = some i :: rest → isEvent i = true →
     step s = exec i { s.tick with agenda := rest })) ∧
  (∀ (h : BitVec 1) (d a b : BitVec 7) (i : BitVec 9) (k : BitVec 12) (s : State), s.cur = .hart h →
     (∃ r ∈ [d, a, b], (s.hart h).isPending r.toNat = true) →
     ∀ e ∈ ([.add d a b, .sub d a b, .and d a b, .or d a b, .xor d a b, .andn d a b, .sll d a b, .srl d a b, .sra d a b,
         .slt d a b, .sltn d a b, .min d a b, .max d a b, .minn d a b, .maxn d a b, .addw d a b, .subw d a b, .cmov d a b,
         .mul d a b, .mulh d a b, .mulhn d a b, .div d a b, .divn d a b, .rem d a b, .remn d a b, .rotl d a b, .rotr d a b,
         .fadd d a b, .fsub d a b, .fmul d a b, .fdiv d a b, .fma d a b, .fmin d a b, .fmax d a b, .feq d a b, .flt d a b,
         .fle d a b, .waita d a b, .sbind d a b, .sunbind d a b, .nsend d a b, .nput d a b] : List Instr) ++
         (amoTable d a b 0 0).map (fun e => e.2.1) ++
         (if b = 0 then (loadTable d a i).map (fun e => e.1) ++ (storeTable d a i).map (fun e => e.1) ++
           [.addi d a k, .andi d a k, .ori d a k, .xori d a k, .slti d a k, .jalr d a k] else []),
       Completes e s (fun t => s.Stays h t))

/-- R16, R21, R112, Tables 05-1 and 06-2: what a device reset leaves: every general register 0, every CSR at its reset
value, no accumulator pattern, no band granted, the memories as the model's log entries 1 and 5 give them, and hart 0
the control hart; the canonical form of every memory; and fetch addresses aligned. (LIVECAP at its full value rests on
the empty retirement map of log entry 11.) -/
def Obligations.ResetState : Prop :=
  let s := State.reset
  (∀ h r, (s.hart h).reg r = 0) ∧ s.h0.ao = true ∧ s.h1.ao = false ∧
  (∀ h, s.csrRead h 0x000 = if h = 0 then 0x80 else 0) ∧
  (∀ h, ∀ c ∈ [0x001, 0x002, 0x003, 0x004, 0x005, 0x006, 0x007, 0x008, 0x009, 0x00A, 0x00B, 0x010, 0x011, 0x012, 0x014, 0x015,
      0x016, 0x017, 0x018, 0x019, 0x01B, 0x01C, 0x01E, 0x01F, 0x020, 0x023, 0x024, 0x025, 0x028, 0x02A],
    s.csrRead h c = 0) ∧
  (∀ h k, k < 16 → s.csrRead h (0x040 + k) = 0) ∧
  (∀ h, s.csrRead h 0x01D = 0xFFFFFFFF ∧ s.csrRead h 0x026 = 70 ∧ s.csrRead h 0x027 = 16 ∧ s.csrRead h 0x02B = 8 ∧
    s.csrRead h 0x02C = BitVec.allOnes 64 ∧ s.csrRead h 0x013 = 0) ∧
  (∀ k, Store.get s.tile.acc k = 0) ∧ (∀ b, Store.get s.tile.owner b = 0) ∧
  (∀ c, c < 131072 → genValue s.core.gens c = 1 + c * 0x9E37 % 65535) ∧
  s.livecap = 0x0010048001000200 ∧ (∀ a, Memory.byte s.home.mem a = 0 ∧ Memory.byte s.core.sram a = 0) ∧ s.wf = true ∧
  s.PcAligned

/-- R59: no step sets bits [1:0] of a fetch address. -/
def Obligations.PcStaysAligned : Prop :=
  ∀ s t : State, s.PcAligned → step s = .next t → t.PcAligned

/-- The memory of the device keeps its one canonical form at every step. -/
def Obligations.MemoryStaysCanonical : Prop :=
  ∀ s t : State, Memory.wf s.home.mem = true → step s = .next t → Memory.wf t.home.mem = true
end

