-- ==== Sys2Proof/Laws/Encoding.lean ====
section
/-! SUPPORT. Fields of instruction words, as numbers. -/

namespace Sys2Proof.Laws.Encoding

theorem fld_toNat (w : IWord) (lo n : Nat) : (fld w lo n).toNat = w.toNat / 2 ^ lo % 2 ^ n := by simp [fld]

/-- A field holds `v` when the number says so. -/
theorem eq {w : IWord} {lo n : Nat} {v : BitVec n} (h : w.toNat / 2 ^ lo % 2 ^ n = v.toNat) : fld w lo n = v :=
  BitVec.eq_of_toNat_eq (by rw [fld_toNat, h])

/-- A field holds the number `v`. -/
theorem eqc {w : IWord} {lo n v : Nat} (h : w.toNat / 2 ^ lo % 2 ^ n = v) : fld w lo n = BitVec.ofNat n v :=
  BitVec.eq_of_toNat_eq (by rw [fld_toNat, BitVec.toNat_ofNat, ← h, Nat.mod_mod])

/-- A field does not hold the number `v`. -/
theorem nec {w : IWord} {lo n v : Nat} (k : v < 2 ^ n) (h : w.toNat / 2 ^ lo % 2 ^ n ≠ v) : fld w lo n ≠ BitVec.ofNat n v :=
  fun g => h (by rw [← fld_toNat, g, BitVec.toNat_ofNat, Nat.mod_eq_of_lt k])

theorem of_lt {x : Nat} (h : x < 4294967296) : (BitVec.ofNat 32 x).toNat = x := by
  rw [BitVec.toNat_ofNat]; omega

/-! ### The words by format: their fields, where the constant bits are `base` -/

theorem fields0 {w : IWord} {base c0 c1 : Nat}
    (k : c0 < 32 ∧ c1 < 64 ∧ base = c0 + c1 * 67108864) (b : BitVec 7) (a : BitVec 7) (d : BitVec 7)
    (h : w = BitVec.ofNat 32 (base + d.toNat * 524288 + a.toNat * 4096 + b.toNat * 32)) :
    w.toNat = base + d.toNat * 524288 + a.toNat * 4096 + b.toNat * 32 ∧ fld w 0 5 = BitVec.ofNat 5 c0 ∧ fld w 26 6 = BitVec.ofNat 6 c1 ∧ fld w 5 7 = b ∧ fld w 12 7 = a ∧ fld w 19 7 = d := by
  have := b.isLt
  have := a.isLt
  have := d.isLt
  have e : w.toNat = base + d.toNat * 524288 + a.toNat * 4096 + b.toNat * 32 := by rw [h]; exact of_lt (by omega)
  exact ⟨e, eqc (by rw [e]; omega), eqc (by rw [e]; omega), eq (by rw [e]; omega), eq (by rw [e]; omega), eq (by rw [e]; omega)⟩

theorem fields1 {w : IWord} {base c0 c1 : Nat}
    (k : c0 < 4096 ∧ c1 < 64 ∧ base = c0 + c1 * 67108864) (a : BitVec 7) (d : BitVec 7)
    (h : w = BitVec.ofNat 32 (base + d.toNat * 524288 + a.toNat * 4096)) :
    w.toNat = base + d.toNat * 524288 + a.toNat * 4096 ∧ fld w 0 12 = BitVec.ofNat 12 c0 ∧ fld w 26 6 = BitVec.ofNat 6 c1 ∧ fld w 12 7 = a ∧ fld w 19 7 = d := by
  have := a.isLt
  have := d.isLt
  have e : w.toNat = base + d.toNat * 524288 + a.toNat * 4096 := by rw [h]; exact of_lt (by omega)
  exact ⟨e, eqc (by rw [e]; omega), eqc (by rw [e]; omega), eq (by rw [e]; omega), eq (by rw [e]; omega)⟩

theorem fields2 {w : IWord} {base c0 : Nat}
    (k : c0 < 64 ∧ base = c0 * 67108864) (b : BitVec 12) (a : BitVec 7) (d : BitVec 7)
    (h : w = BitVec.ofNat 32 (base + d.toNat * 524288 + a.toNat * 4096 + b.toNat)) :
    w.toNat = base + d.toNat * 524288 + a.toNat * 4096 + b.toNat ∧ fld w 26 6 = BitVec.ofNat 6 c0 ∧ fld w 0 12 = b ∧ fld w 12 7 = a ∧ fld w 19 7 = d := by
  have := b.isLt
  have := a.isLt
  have := d.isLt
  have e : w.toNat = base + d.toNat * 524288 + a.toNat * 4096 + b.toNat := by rw [h]; exact of_lt (by omega)
  exact ⟨e, eqc (by rw [e]; omega), eq (by rw [e]; omega), eq (by rw [e]; omega), eq (by rw [e]; omega)⟩

theorem fields3 {w : IWord} {base c0 c1 : Nat}
    (k : c0 < 64 ∧ c1 < 64 ∧ base = c0 * 64 + c1 * 67108864) (b : BitVec 6) (a : BitVec 7) (d : BitVec 7)
    (h : w = BitVec.ofNat 32 (base + d.toNat * 524288 + a.toNat * 4096 + b.toNat)) :
    w.toNat = base + d.toNat * 524288 + a.toNat * 4096 + b.toNat ∧ fld w 6 6 = BitVec.ofNat 6 c0 ∧ fld w 26 6 = BitVec.ofNat 6 c1 ∧ fld w 0 6 = b ∧ fld w 12 7 = a ∧ fld w 19 7 = d := by
  have := b.isLt
  have := a.isLt
  have := d.isLt
  have e : w.toNat = base + d.toNat * 524288 + a.toNat * 4096 + b.toNat := by rw [h]; exact of_lt (by omega)
  exact ⟨e, eqc (by rw [e]; omega), eqc (by rw [e]; omega), eq (by rw [e]; omega), eq (by rw [e]; omega), eq (by rw [e]; omega)⟩

theorem fields4 {w : IWord} {base c0 : Nat}
    (k : c0 < 64 ∧ base = c0 * 67108864) (a : BitVec 19) (d : BitVec 7)
    (h : w = BitVec.ofNat 32 (base + d.toNat * 524288 + a.toNat)) :
    w.toNat = base + d.toNat * 524288 + a.toNat ∧ fld w 26 6 = BitVec.ofNat 6 c0 ∧ fld w 0 19 = a ∧ fld w 19 7 = d := by
  have := a.isLt
  have := d.isLt
  have e : w.toNat = base + d.toNat * 524288 + a.toNat := by rw [h]; exact of_lt (by omega)
  exact ⟨e, eqc (by rw [e]; omega), eq (by rw [e]; omega), eq (by rw [e]; omega)⟩

theorem fields5 {w : IWord} {base c0 : Nat}
    (k : c0 < 64 ∧ base = c0 * 67108864) (d : BitVec 26)
    (h : w = BitVec.ofNat 32 (base + d.toNat)) :
    w.toNat = base + d.toNat ∧ fld w 26 6 = BitVec.ofNat 6 c0 ∧ fld w 0 26 = d := by
  have := d.isLt
  have e : w.toNat = base + d.toNat := by rw [h]; exact of_lt (by omega)
  exact ⟨e, eqc (by rw [e]; omega), eq (by rw [e]; omega)⟩

theorem fields6 {w : IWord} {base c0 : Nat}
    (k : c0 < 64 ∧ base = c0 * 67108864) (x : BitVec 5) (b : BitVec 7) (a : BitVec 7) (d : BitVec 7)
    (h : w = BitVec.ofNat 32 (base + d.toNat * 524288 + a.toNat * 4096 + b.toNat * 32 + x.toNat)) :
    w.toNat = base + d.toNat * 524288 + a.toNat * 4096 + b.toNat * 32 + x.toNat ∧ fld w 26 6 = BitVec.ofNat 6 c0 ∧ fld w 0 5 = x ∧ fld w 5 7 = b ∧ fld w 12 7 = a ∧ fld w 19 7 = d := by
  have := x.isLt
  have := b.isLt
  have := a.isLt
  have := d.isLt
  have e : w.toNat = base + d.toNat * 524288 + a.toNat * 4096 + b.toNat * 32 + x.toNat := by rw [h]; exact of_lt (by omega)
  exact ⟨e, eqc (by rw [e]; omega), eq (by rw [e]; omega), eq (by rw [e]; omega), eq (by rw [e]; omega), eq (by rw [e]; omega)⟩

theorem fields7 {w : IWord} {base c0 c1 : Nat}
    (k : c0 < 8 ∧ c1 < 64 ∧ base = c0 * 512 + c1 * 67108864) (b : BitVec 9) (a : BitVec 7) (d : BitVec 7)
    (h : w = BitVec.ofNat 32 (base + d.toNat * 524288 + a.toNat * 4096 + b.toNat)) :
    w.toNat = base + d.toNat * 524288 + a.toNat * 4096 + b.toNat ∧ fld w 9 3 = BitVec.ofNat 3 c0 ∧ fld w 26 6 = BitVec.ofNat 6 c1 ∧ fld w 0 9 = b ∧ fld w 12 7 = a ∧ fld w 19 7 = d := by
  have := b.isLt
  have := a.isLt
  have := d.isLt
  have e : w.toNat = base + d.toNat * 524288 + a.toNat * 4096 + b.toNat := by rw [h]; exact of_lt (by omega)
  exact ⟨e, eqc (by rw [e]; omega), eqc (by rw [e]; omega), eq (by rw [e]; omega), eq (by rw [e]; omega), eq (by rw [e]; omega)⟩

theorem fields8 {w : IWord} {base c0 c1 c2 : Nat}
    (k : c0 < 4096 ∧ c1 < 128 ∧ c2 < 64 ∧ base = c0 + c1 * 524288 + c2 * 67108864) (d : BitVec 7)
    (h : w = BitVec.ofNat 32 (base + d.toNat * 4096)) :
    w.toNat = base + d.toNat * 4096 ∧ fld w 0 12 = BitVec.ofNat 12 c0 ∧ fld w 19 7 = BitVec.ofNat 7 c1 ∧ fld w 26 6 = BitVec.ofNat 6 c2 ∧ fld w 12 7 = d := by
  have := d.isLt
  have e : w.toNat = base + d.toNat * 4096 := by rw [h]; exact of_lt (by omega)
  exact ⟨e, eqc (by rw [e]; omega), eqc (by rw [e]; omega), eqc (by rw [e]; omega), eq (by rw [e]; omega)⟩

theorem fields9 {w : IWord} {base c0 c1 c2 : Nat}
    (k : c0 < 32 ∧ c1 < 16384 ∧ c2 < 64 ∧ base = c0 + c1 * 4096 + c2 * 67108864) (b : BitVec 2) (a : BitVec 2) (d : BitVec 3)
    (h : w = BitVec.ofNat 32 (base + d.toNat * 512 + a.toNat * 128 + b.toNat * 32)) :
    w.toNat = base + d.toNat * 512 + a.toNat * 128 + b.toNat * 32 ∧ fld w 0 5 = BitVec.ofNat 5 c0 ∧ fld w 12 14 = BitVec.ofNat 14 c1 ∧ fld w 26 6 = BitVec.ofNat 6 c2 ∧ fld w 5 2 = b ∧ fld w 7 2 = a ∧ fld w 9 3 = d := by
  have := b.isLt
  have := a.isLt
  have := d.isLt
  have e : w.toNat = base + d.toNat * 512 + a.toNat * 128 + b.toNat * 32 := by rw [h]; exact of_lt (by omega)
  exact ⟨e, eqc (by rw [e]; omega), eqc (by rw [e]; omega), eqc (by rw [e]; omega), eq (by rw [e]; omega), eq (by rw [e]; omega), eq (by rw [e]; omega)⟩

theorem fields10 {w : IWord} {base c0 c1 : Nat}
    (k : c0 < 512 ∧ c1 < 64 ∧ base = c0 * 1024 + c1 * 67108864) (a : BitVec 10) (d : BitVec 7)
    (h : w = BitVec.ofNat 32 (base + d.toNat * 524288 + a.toNat)) :
    w.toNat = base + d.toNat * 524288 + a.toNat ∧ fld w 10 9 = BitVec.ofNat 9 c0 ∧ fld w 26 6 = BitVec.ofNat 6 c1 ∧ fld w 0 10 = a ∧ fld w 19 7 = d := by
  have := a.isLt
  have := d.isLt
  have e : w.toNat = base + d.toNat * 524288 + a.toNat := by rw [h]; exact of_lt (by omega)
  exact ⟨e, eqc (by rw [e]; omega), eqc (by rw [e]; omega), eq (by rw [e]; omega), eq (by rw [e]; omega)⟩

theorem fields11 {w : IWord} {base c0 c1 : Nat}
    (k : c0 < 4 ∧ c1 < 64 ∧ base = c0 * 1024 + c1 * 67108864) (b : BitVec 10) (a : BitVec 7) (d : BitVec 7)
    (h : w = BitVec.ofNat 32 (base + d.toNat * 524288 + a.toNat * 4096 + b.toNat)) :
    w.toNat = base + d.toNat * 524288 + a.toNat * 4096 + b.toNat ∧ fld w 10 2 = BitVec.ofNat 2 c0 ∧ fld w 26 6 = BitVec.ofNat 6 c1 ∧ fld w 0 10 = b ∧ fld w 12 7 = a ∧ fld w 19 7 = d := by
  have := b.isLt
  have := a.isLt
  have := d.isLt
  have e : w.toNat = base + d.toNat * 524288 + a.toNat * 4096 + b.toNat := by rw [h]; exact of_lt (by omega)
  exact ⟨e, eqc (by rw [e]; omega), eqc (by rw [e]; omega), eq (by rw [e]; omega), eq (by rw [e]; omega), eq (by rw [e]; omega)⟩

theorem fields12 {w : IWord} {base c0 c1 : Nat}
    (k : c0 < 67108864 ∧ c1 < 64 ∧ base = c0 + c1 * 67108864)
    (h : w = BitVec.ofNat 32 (base)) :
    w.toNat = base ∧ fld w 0 26 = BitVec.ofNat 26 c0 ∧ fld w 26 6 = BitVec.ofNat 6 c1 := by
  have e : w.toNat = base := by rw [h]; exact of_lt (by omega)
  exact ⟨e, eqc (by rw [e]; omega), eqc (by rw [e]; omega)⟩

theorem fields13 {w : IWord} {base c0 c1 c2 : Nat}
    (k : c0 < 32 ∧ c1 < 128 ∧ c2 < 64 ∧ base = c0 + c1 * 524288 + c2 * 67108864) (a : BitVec 7) (d : BitVec 7)
    (h : w = BitVec.ofNat 32 (base + d.toNat * 4096 + a.toNat * 32)) :
    w.toNat = base + d.toNat * 4096 + a.toNat * 32 ∧ fld w 0 5 = BitVec.ofNat 5 c0 ∧ fld w 19 7 = BitVec.ofNat 7 c1 ∧ fld w 26 6 = BitVec.ofNat 6 c2 ∧ fld w 5 7 = a ∧ fld w 12 7 = d := by
  have := a.isLt
  have := d.isLt
  have e : w.toNat = base + d.toNat * 4096 + a.toNat * 32 := by rw [h]; exact of_lt (by omega)
  exact ⟨e, eqc (by rw [e]; omega), eqc (by rw [e]; omega), eqc (by rw [e]; omega), eq (by rw [e]; omega), eq (by rw [e]; omega)⟩

theorem fields14 {w : IWord} {base c0 c1 : Nat}
    (k : c0 < 32 ∧ c1 < 64 ∧ base = c0 + c1 * 67108864) (z : BitVec 2) (y : BitVec 1) (x : BitVec 3) (b : BitVec 5) (a : BitVec 5) (d : BitVec 5)
    (h : w = BitVec.ofNat 32 (base + d.toNat * 2097152 + a.toNat * 65536 + b.toNat * 2048 + x.toNat * 256 + y.toNat * 128 + z.toNat * 32)) :
    w.toNat = base + d.toNat * 2097152 + a.toNat * 65536 + b.toNat * 2048 + x.toNat * 256 + y.toNat * 128 + z.toNat * 32 ∧ fld w 0 5 = BitVec.ofNat 5 c0 ∧ fld w 26 6 = BitVec.ofNat 6 c1 ∧ fld w 5 2 = z ∧ fld w 7 1 = y ∧ fld w 8 3 = x ∧ fld w 11 5 = b ∧ fld w 16 5 = a ∧ fld w 21 5 = d := by
  have := z.isLt
  have := y.isLt
  have := x.isLt
  have := b.isLt
  have := a.isLt
  have := d.isLt
  have e : w.toNat = base + d.toNat * 2097152 + a.toNat * 65536 + b.toNat * 2048 + x.toNat * 256 + y.toNat * 128 + z.toNat * 32 := by rw [h]; exact of_lt (by omega)
  exact ⟨e, eqc (by rw [e]; omega), eqc (by rw [e]; omega), eq (by rw [e]; omega), eq (by rw [e]; omega), eq (by rw [e]; omega), eq (by rw [e]; omega), eq (by rw [e]; omega), eq (by rw [e]; omega)⟩

theorem fields15 {w : IWord} {base c0 c1 : Nat}
    (k : c0 < 524288 ∧ c1 < 64 ∧ base = c0 + c1 * 67108864) (d : BitVec 7)
    (h : w = BitVec.ofNat 32 (base + d.toNat * 524288)) :
    w.toNat = base + d.toNat * 524288 ∧ fld w 0 19 = BitVec.ofNat 19 c0 ∧ fld w 26 6 = BitVec.ofNat 6 c1 ∧ fld w 19 7 = d := by
  have := d.isLt
  have e : w.toNat = base + d.toNat * 524288 := by rw [h]; exact of_lt (by omega)
  exact ⟨e, eqc (by rw [e]; omega), eqc (by rw [e]; omega), eq (by rw [e]; omega)⟩

theorem fields16 {w : IWord} {base c0 c1 : Nat}
    (k : c0 < 2 ∧ c1 < 64 ∧ base = c0 + c1 * 67108864) (z : BitVec 2) (y : BitVec 1) (x : BitVec 1) (b : BitVec 7) (a : BitVec 7) (d : BitVec 7)
    (h : w = BitVec.ofNat 32 (base + d.toNat * 524288 + a.toNat * 4096 + b.toNat * 32 + x.toNat * 16 + y.toNat * 8 + z.toNat * 2)) :
    w.toNat = base + d.toNat * 524288 + a.toNat * 4096 + b.toNat * 32 + x.toNat * 16 + y.toNat * 8 + z.toNat * 2 ∧ fld w 0 1 = BitVec.ofNat 1 c0 ∧ fld w 26 6 = BitVec.ofNat 6 c1 ∧ fld w 1 2 = z ∧ fld w 3 1 = y ∧ fld w 4 1 = x ∧ fld w 5 7 = b ∧ fld w 12 7 = a ∧ fld w 19 7 = d := by
  have := z.isLt
  have := y.isLt
  have := x.isLt
  have := b.isLt
  have := a.isLt
  have := d.isLt
  have e : w.toNat = base + d.toNat * 524288 + a.toNat * 4096 + b.toNat * 32 + x.toNat * 16 + y.toNat * 8 + z.toNat * 2 := by rw [h]; exact of_lt (by omega)
  exact ⟨e, eqc (by rw [e]; omega), eqc (by rw [e]; omega), eq (by rw [e]; omega), eq (by rw [e]; omega), eq (by rw [e]; omega), eq (by rw [e]; omega), eq (by rw [e]; omega), eq (by rw [e]; omega)⟩

theorem fields17 {w : IWord} {base c0 c1 : Nat}
    (k : c0 < 8 ∧ c1 < 64 ∧ base = c0 + c1 * 67108864) (y : BitVec 1) (x : BitVec 1) (b : BitVec 7) (a : BitVec 7) (d : BitVec 7)
    (h : w = BitVec.ofNat 32 (base + d.toNat * 524288 + a.toNat * 4096 + b.toNat * 32 + x.toNat * 16 + y.toNat * 8)) :
    w.toNat = base + d.toNat * 524288 + a.toNat * 4096 + b.toNat * 32 + x.toNat * 16 + y.toNat * 8 ∧ fld w 0 3 = BitVec.ofNat 3 c0 ∧ fld w 26 6 = BitVec.ofNat 6 c1 ∧ fld w 3 1 = y ∧ fld w 4 1 = x ∧ fld w 5 7 = b ∧ fld w 12 7 = a ∧ fld w 19 7 = d := by
  have := y.isLt
  have := x.isLt
  have := b.isLt
  have := a.isLt
  have := d.isLt
  have e : w.toNat = base + d.toNat * 524288 + a.toNat * 4096 + b.toNat * 32 + x.toNat * 16 + y.toNat * 8 := by rw [h]; exact of_lt (by omega)
  exact ⟨e, eqc (by rw [e]; omega), eqc (by rw [e]; omega), eq (by rw [e]; omega), eq (by rw [e]; omega), eq (by rw [e]; omega), eq (by rw [e]; omega), eq (by rw [e]; omega)⟩

theorem fields18 {w : IWord} {base c0 c1 c2 c3 : Nat}
    (k : c0 < 2 ∧ c1 < 2 ∧ c2 < 128 ∧ c3 < 64 ∧ base = c0 + c1 * 8 + c2 * 32 + c3 * 67108864) (x : BitVec 2) (b : BitVec 1) (a : BitVec 7) (d : BitVec 7)
    (h : w = BitVec.ofNat 32 (base + d.toNat * 524288 + a.toNat * 4096 + b.toNat * 16 + x.toNat * 2)) :
    w.toNat = base + d.toNat * 524288 + a.toNat * 4096 + b.toNat * 16 + x.toNat * 2 ∧ fld w 0 1 = BitVec.ofNat 1 c0 ∧ fld w 3 1 = BitVec.ofNat 1 c1 ∧ fld w 5 7 = BitVec.ofNat 7 c2 ∧ fld w 26 6 = BitVec.ofNat 6 c3 ∧ fld w 1 2 = x ∧ fld w 4 1 = b ∧ fld w 12 7 = a ∧ fld w 19 7 = d := by
  have := x.isLt
  have := b.isLt
  have := a.isLt
  have := d.isLt
  have e : w.toNat = base + d.toNat * 524288 + a.toNat * 4096 + b.toNat * 16 + x.toNat * 2 := by rw [h]; exact of_lt (by omega)
  exact ⟨e, eqc (by rw [e]; omega), eqc (by rw [e]; omega), eqc (by rw [e]; omega), eqc (by rw [e]; omega), eq (by rw [e]; omega), eq (by rw [e]; omega), eq (by rw [e]; omega), eq (by rw [e]; omega)⟩

theorem fields19 {w : IWord} {base c0 c1 c2 c3 : Nat}
    (k : c0 < 4 ∧ c1 < 2 ∧ c2 < 128 ∧ c3 < 64 ∧ base = c0 + c1 * 8 + c2 * 32 + c3 * 67108864) (x : BitVec 1) (b : BitVec 1) (a : BitVec 7) (d : BitVec 7)
    (h : w = BitVec.ofNat 32 (base + d.toNat * 524288 + a.toNat * 4096 + b.toNat * 16 + x.toNat * 4)) :
    w.toNat = base + d.toNat * 524288 + a.toNat * 4096 + b.toNat * 16 + x.toNat * 4 ∧ fld w 0 2 = BitVec.ofNat 2 c0 ∧ fld w 3 1 = BitVec.ofNat 1 c1 ∧ fld w 5 7 = BitVec.ofNat 7 c2 ∧ fld w 26 6 = BitVec.ofNat 6 c3 ∧ fld w 2 1 = x ∧ fld w 4 1 = b ∧ fld w 12 7 = a ∧ fld w 19 7 = d := by
  have := x.isLt
  have := b.isLt
  have := a.isLt
  have := d.isLt
  have e : w.toNat = base + d.toNat * 524288 + a.toNat * 4096 + b.toNat * 16 + x.toNat * 4 := by rw [h]; exact of_lt (by omega)
  exact ⟨e, eqc (by rw [e]; omega), eqc (by rw [e]; omega), eqc (by rw [e]; omega), eqc (by rw [e]; omega), eq (by rw [e]; omega), eq (by rw [e]; omega), eq (by rw [e]; omega), eq (by rw [e]; omega)⟩

theorem fields20 {w : IWord} {base c0 c1 c2 : Nat}
    (k : c0 < 2 ∧ c1 < 512 ∧ c2 < 64 ∧ base = c0 + c1 * 8 + c2 * 67108864) (b : BitVec 2) (a : BitVec 7) (d : BitVec 7)
    (h : w = BitVec.ofNat 32 (base + d.toNat * 524288 + a.toNat * 4096 + b.toNat * 2)) :
    w.toNat = base + d.toNat * 524288 + a.toNat * 4096 + b.toNat * 2 ∧ fld w 0 1 = BitVec.ofNat 1 c0 ∧ fld w 3 9 = BitVec.ofNat 9 c1 ∧ fld w 26 6 = BitVec.ofNat 6 c2 ∧ fld w 1 2 = b ∧ fld w 12 7 = a ∧ fld w 19 7 = d := by
  have := b.isLt
  have := a.isLt
  have := d.isLt
  have e : w.toNat = base + d.toNat * 524288 + a.toNat * 4096 + b.toNat * 2 := by rw [h]; exact of_lt (by omega)
  exact ⟨e, eqc (by rw [e]; omega), eqc (by rw [e]; omega), eqc (by rw [e]; omega), eq (by rw [e]; omega), eq (by rw [e]; omega), eq (by rw [e]; omega)⟩

theorem fields21 {w : IWord} {base c0 c1 c2 : Nat}
    (k : c0 < 32 ∧ c1 < 128 ∧ c2 < 64 ∧ base = c0 + c1 * 4096 + c2 * 67108864) (a : BitVec 7) (d : BitVec 7)
    (h : w = BitVec.ofNat 32 (base + d.toNat * 524288 + a.toNat * 32)) :
    w.toNat = base + d.toNat * 524288 + a.toNat * 32 ∧ fld w 0 5 = BitVec.ofNat 5 c0 ∧ fld w 12 7 = BitVec.ofNat 7 c1 ∧ fld w 26 6 = BitVec.ofNat 6 c2 ∧ fld w 5 7 = a ∧ fld w 19 7 = d := by
  have := a.isLt
  have := d.isLt
  have e : w.toNat = base + d.toNat * 524288 + a.toNat * 32 := by rw [h]; exact of_lt (by omega)
  exact ⟨e, eqc (by rw [e]; omega), eqc (by rw [e]; omega), eqc (by rw [e]; omega), eq (by rw [e]; omega), eq (by rw [e]; omega)⟩

theorem fields22 {w : IWord} {base c0 c1 : Nat}
    (k : c0 < 1024 ∧ c1 < 64 ∧ base = c0 * 4 + c1 * 67108864) (b : BitVec 2) (a : BitVec 7) (d : BitVec 7)
    (h : w = BitVec.ofNat 32 (base + d.toNat * 524288 + a.toNat * 4096 + b.toNat)) :
    w.toNat = base + d.toNat * 524288 + a.toNat * 4096 + b.toNat ∧ fld w 2 10 = BitVec.ofNat 10 c0 ∧ fld w 26 6 = BitVec.ofNat 6 c1 ∧ fld w 0 2 = b ∧ fld w 12 7 = a ∧ fld w 19 7 = d := by
  have := b.isLt
  have := a.isLt
  have := d.isLt
  have e : w.toNat = base + d.toNat * 524288 + a.toNat * 4096 + b.toNat := by rw [h]; exact of_lt (by omega)
  exact ⟨e, eqc (by rw [e]; omega), eqc (by rw [e]; omega), eq (by rw [e]; omega), eq (by rw [e]; omega), eq (by rw [e]; omega)⟩

theorem fields23 {w : IWord} {base c0 c1 : Nat}
    (k : c0 < 8 ∧ c1 < 64 ∧ base = c0 * 4 + c1 * 67108864) (x : BitVec 2) (b : BitVec 7) (a : BitVec 7) (d : BitVec 7)
    (h : w = BitVec.ofNat 32 (base + d.toNat * 524288 + a.toNat * 4096 + b.toNat * 32 + x.toNat)) :
    w.toNat = base + d.toNat * 524288 + a.toNat * 4096 + b.toNat * 32 + x.toNat ∧ fld w 2 3 = BitVec.ofNat 3 c0 ∧ fld w 26 6 = BitVec.ofNat 6 c1 ∧ fld w 0 2 = x ∧ fld w 5 7 = b ∧ fld w 12 7 = a ∧ fld w 19 7 = d := by
  have := x.isLt
  have := b.isLt
  have := a.isLt
  have := d.isLt
  have e : w.toNat = base + d.toNat * 524288 + a.toNat * 4096 + b.toNat * 32 + x.toNat := by rw [h]; exact of_lt (by omega)
  exact ⟨e, eqc (by rw [e]; omega), eqc (by rw [e]; omega), eq (by rw [e]; omega), eq (by rw [e]; omega), eq (by rw [e]; omega), eq (by rw [e]; omega)⟩

theorem fields24 {w : IWord} {base c0 c1 : Nat}
    (k : c0 < 16 ∧ c1 < 64 ∧ base = c0 + c1 * 67108864) (x : BitVec 1) (b : BitVec 7) (a : BitVec 7) (d : BitVec 7)
    (h : w = BitVec.ofNat 32 (base + d.toNat * 524288 + a.toNat * 4096 + b.toNat * 32 + x.toNat * 16)) :
    w.toNat = base + d.toNat * 524288 + a.toNat * 4096 + b.toNat * 32 + x.toNat * 16 ∧ fld w 0 4 = BitVec.ofNat 4 c0 ∧ fld w 26 6 = BitVec.ofNat 6 c1 ∧ fld w 4 1 = x ∧ fld w 5 7 = b ∧ fld w 12 7 = a ∧ fld w 19 7 = d := by
  have := x.isLt
  have := b.isLt
  have := a.isLt
  have := d.isLt
  have e : w.toNat = base + d.toNat * 524288 + a.toNat * 4096 + b.toNat * 32 + x.toNat * 16 := by rw [h]; exact of_lt (by omega)
  exact ⟨e, eqc (by rw [e]; omega), eqc (by rw [e]; omega), eq (by rw [e]; omega), eq (by rw [e]; omega), eq (by rw [e]; omega), eq (by rw [e]; omega)⟩

theorem fields25 {w : IWord} {base c0 c1 c2 : Nat}
    (k : c0 < 2 ∧ c1 < 4 ∧ c2 < 64 ∧ base = c0 + c1 * 8 + c2 * 67108864) (x : BitVec 2) (b : BitVec 7) (a : BitVec 7) (d : BitVec 7)
    (h : w = BitVec.ofNat 32 (base + d.toNat * 524288 + a.toNat * 4096 + b.toNat * 32 + x.toNat * 2)) :
    w.toNat = base + d.toNat * 524288 + a.toNat * 4096 + b.toNat * 32 + x.toNat * 2 ∧ fld w 0 1 = BitVec.ofNat 1 c0 ∧ fld w 3 2 = BitVec.ofNat 2 c1 ∧ fld w 26 6 = BitVec.ofNat 6 c2 ∧ fld w 1 2 = x ∧ fld w 5 7 = b ∧ fld w 12 7 = a ∧ fld w 19 7 = d := by
  have := x.isLt
  have := b.isLt
  have := a.isLt
  have := d.isLt
  have e : w.toNat = base + d.toNat * 524288 + a.toNat * 4096 + b.toNat * 32 + x.toNat * 2 := by rw [h]; exact of_lt (by omega)
  exact ⟨e, eqc (by rw [e]; omega), eqc (by rw [e]; omega), eqc (by rw [e]; omega), eq (by rw [e]; omega), eq (by rw [e]; omega), eq (by rw [e]; omega), eq (by rw [e]; omega)⟩

theorem fields26 {w : IWord} {base c0 c1 c2 : Nat}
    (k : c0 < 4096 ∧ c1 < 2048 ∧ c2 < 64 ∧ base = c0 + c1 * 32768 + c2 * 67108864) (d : BitVec 3)
    (h : w = BitVec.ofNat 32 (base + d.toNat * 4096)) :
    w.toNat = base + d.toNat * 4096 ∧ fld w 0 12 = BitVec.ofNat 12 c0 ∧ fld w 15 11 = BitVec.ofNat 11 c1 ∧ fld w 26 6 = BitVec.ofNat 6 c2 ∧ fld w 12 3 = d := by
  have := d.isLt
  have e : w.toNat = base + d.toNat * 4096 := by rw [h]; exact of_lt (by omega)
  exact ⟨e, eqc (by rw [e]; omega), eqc (by rw [e]; omega), eqc (by rw [e]; omega), eq (by rw [e]; omega)⟩

theorem fields27 {w : IWord} {base c0 c1 c2 c3 : Nat}
    (k : c0 < 32 ∧ c1 < 16 ∧ c2 < 2048 ∧ c3 < 64 ∧ base = c0 + c1 * 256 + c2 * 32768 + c3 * 67108864) (a : BitVec 3) (d : BitVec 3)
    (h : w = BitVec.ofNat 32 (base + d.toNat * 4096 + a.toNat * 32)) :
    w.toNat = base + d.toNat * 4096 + a.toNat * 32 ∧ fld w 0 5 = BitVec.ofNat 5 c0 ∧ fld w 8 4 = BitVec.ofNat 4 c1 ∧ fld w 15 11 = BitVec.ofNat 11 c2 ∧ fld w 26 6 = BitVec.ofNat 6 c3 ∧ fld w 5 3 = a ∧ fld w 12 3 = d := by
  have := a.isLt
  have := d.isLt
  have e : w.toNat = base + d.toNat * 4096 + a.toNat * 32 := by rw [h]; exact of_lt (by omega)
  exact ⟨e, eqc (by rw [e]; omega), eqc (by rw [e]; omega), eqc (by rw [e]; omega), eqc (by rw [e]; omega), eq (by rw [e]; omega), eq (by rw [e]; omega)⟩

theorem fields28 {w : IWord} {base c0 c1 c2 c3 : Nat}
    (k : c0 < 4096 ∧ c1 < 64 ∧ c2 < 16 ∧ c3 < 64 ∧ base = c0 + c1 * 8192 + c2 * 4194304 + c3 * 67108864) (a : BitVec 1) (d : BitVec 3)
    (h : w = BitVec.ofNat 32 (base + d.toNat * 524288 + a.toNat * 4096)) :
    w.toNat = base + d.toNat * 524288 + a.toNat * 4096 ∧ fld w 0 12 = BitVec.ofNat 12 c0 ∧ fld w 13 6 = BitVec.ofNat 6 c1 ∧ fld w 22 4 = BitVec.ofNat 4 c2 ∧ fld w 26 6 = BitVec.ofNat 6 c3 ∧ fld w 12 1 = a ∧ fld w 19 3 = d := by
  have := a.isLt
  have := d.isLt
  have e : w.toNat = base + d.toNat * 524288 + a.toNat * 4096 := by rw [h]; exact of_lt (by omega)
  exact ⟨e, eqc (by rw [e]; omega), eqc (by rw [e]; omega), eqc (by rw [e]; omega), eqc (by rw [e]; omega), eq (by rw [e]; omega), eq (by rw [e]; omega)⟩

theorem fields29 {w : IWord} {base c0 c1 c2 : Nat}
    (k : c0 < 32 ∧ c1 < 16 ∧ c2 < 64 ∧ base = c0 + c1 * 256 + c2 * 67108864) (b : BitVec 3) (a : BitVec 7) (d : BitVec 7)
    (h : w = BitVec.ofNat 32 (base + d.toNat * 524288 + a.toNat * 4096 + b.toNat * 32)) :
    w.toNat = base + d.toNat * 524288 + a.toNat * 4096 + b.toNat * 32 ∧ fld w 0 5 = BitVec.ofNat 5 c0 ∧ fld w 8 4 = BitVec.ofNat 4 c1 ∧ fld w 26 6 = BitVec.ofNat 6 c2 ∧ fld w 5 3 = b ∧ fld w 12 7 = a ∧ fld w 19 7 = d := by
  have := b.isLt
  have := a.isLt
  have := d.isLt
  have e : w.toNat = base + d.toNat * 524288 + a.toNat * 4096 + b.toNat * 32 := by rw [h]; exact of_lt (by omega)
  exact ⟨e, eqc (by rw [e]; omega), eqc (by rw [e]; omega), eqc (by rw [e]; omega), eq (by rw [e]; omega), eq (by rw [e]; omega), eq (by rw [e]; omega)⟩

theorem fields30 {w : IWord} {base c0 c1 c2 : Nat}
    (k : c0 < 32 ∧ c1 < 64 ∧ c2 < 64 ∧ base = c0 + c1 * 1048576 + c2 * 67108864) (b : BitVec 7) (a : BitVec 7) (d : BitVec 1)
    (h : w = BitVec.ofNat 32 (base + d.toNat * 524288 + a.toNat * 4096 + b.toNat * 32)) :
    w.toNat = base + d.toNat * 524288 + a.toNat * 4096 + b.toNat * 32 ∧ fld w 0 5 = BitVec.ofNat 5 c0 ∧ fld w 20 6 = BitVec.ofNat 6 c1 ∧ fld w 26 6 = BitVec.ofNat 6 c2 ∧ fld w 5 7 = b ∧ fld w 12 7 = a ∧ fld w 19 1 = d := by
  have := b.isLt
  have := a.isLt
  have := d.isLt
  have e : w.toNat = base + d.toNat * 524288 + a.toNat * 4096 + b.toNat * 32 := by rw [h]; exact of_lt (by omega)
  exact ⟨e, eqc (by rw [e]; omega), eqc (by rw [e]; omega), eqc (by rw [e]; omega), eq (by rw [e]; omega), eq (by rw [e]; omega), eq (by rw [e]; omega)⟩

theorem fields31 {w : IWord} {base c0 c1 c2 : Nat}
    (k : c0 < 524288 ∧ c1 < 64 ∧ c2 < 64 ∧ base = c0 + c1 * 1048576 + c2 * 67108864) (d : BitVec 1)
    (h : w = BitVec.ofNat 32 (base + d.toNat * 524288)) :
    w.toNat = base + d.toNat * 524288 ∧ fld w 0 19 = BitVec.ofNat 19 c0 ∧ fld w 20 6 = BitVec.ofNat 6 c1 ∧ fld w 26 6 = BitVec.ofNat 6 c2 ∧ fld w 19 1 = d := by
  have := d.isLt
  have e : w.toNat = base + d.toNat * 524288 := by rw [h]; exact of_lt (by omega)
  exact ⟨e, eqc (by rw [e]; omega), eqc (by rw [e]; omega), eqc (by rw [e]; omega), eq (by rw [e]; omega)⟩

theorem fields32 {w : IWord} {base c0 c1 c2 : Nat}
    (k : c0 < 32 ∧ c1 < 64 ∧ c2 < 64 ∧ base = c0 + c1 * 8192 + c2 * 67108864) (b : BitVec 7) (a : BitVec 1) (d : BitVec 7)
    (h : w = BitVec.ofNat 32 (base + d.toNat * 524288 + a.toNat * 4096 + b.toNat * 32)) :
    w.toNat = base + d.toNat * 524288 + a.toNat * 4096 + b.toNat * 32 ∧ fld w 0 5 = BitVec.ofNat 5 c0 ∧ fld w 13 6 = BitVec.ofNat 6 c1 ∧ fld w 26 6 = BitVec.ofNat 6 c2 ∧ fld w 5 7 = b ∧ fld w 12 1 = a ∧ fld w 19 7 = d := by
  have := b.isLt
  have := a.isLt
  have := d.isLt
  have e : w.toNat = base + d.toNat * 524288 + a.toNat * 4096 + b.toNat * 32 := by rw [h]; exact of_lt (by omega)
  exact ⟨e, eqc (by rw [e]; omega), eqc (by rw [e]; omega), eqc (by rw [e]; omega), eq (by rw [e]; omega), eq (by rw [e]; omega), eq (by rw [e]; omega)⟩

/-! ### The words by major opcode -/

theorem raw01 {w : IWord} (h : fld w 26 6 = BitVec.ofNat 6 1) : decodeRaw w = decodeMajor01 w := by
  unfold decodeRaw; rw [h]; rfl

theorem raw02 {w : IWord} (h : fld w 26 6 = BitVec.ofNat 6 2) : decodeRaw w = decodeMajor02 w := by
  unfold decodeRaw; rw [h]; rfl

theorem raw03 {w : IWord} (h : fld w 26 6 = BitVec.ofNat 6 3) : decodeRaw w = decodeMajor03 w := by
  unfold decodeRaw; rw [h]; rfl

theorem raw04 {w : IWord} (h : fld w 26 6 = BitVec.ofNat 6 4) : decodeRaw w = decodeMajor04 w := by
  unfold decodeRaw; rw [h]; rfl

theorem raw05 {w : IWord} (h : fld w 26 6 = BitVec.ofNat 6 5) : decodeRaw w = decodeMajor05 w := by
  unfold decodeRaw; rw [h]; rfl

theorem raw06 {w : IWord} (h : fld w 26 6 = BitVec.ofNat 6 6) : decodeRaw w = decodeMajor06 w := by
  unfold decodeRaw; rw [h]; rfl

theorem raw07 {w : IWord} (h : fld w 26 6 = BitVec.ofNat 6 7) : decodeRaw w = decodeMajor07 w := by
  unfold decodeRaw; rw [h]; rfl

theorem raw08 {w : IWord} (h : fld w 26 6 = BitVec.ofNat 6 8) : decodeRaw w = decodeMajor08 w := by
  unfold decodeRaw; rw [h]; rfl

theorem raw09 {w : IWord} (h : fld w 26 6 = BitVec.ofNat 6 9) : decodeRaw w = decodeMajor09 w := by
  unfold decodeRaw; rw [h]; rfl

theorem raw0A {w : IWord} (h : fld w 26 6 = BitVec.ofNat 6 10) : decodeRaw w = decodeMajor0A w := by
  unfold decodeRaw; rw [h]; rfl

theorem raw0B {w : IWord} (h : fld w 26 6 = BitVec.ofNat 6 11) : decodeRaw w = decodeMajor0B w := by
  unfold decodeRaw; rw [h]; rfl

theorem raw0C {w : IWord} (h : fld w 26 6 = BitVec.ofNat 6 12) : decodeRaw w = decodeMajor0C w := by
  unfold decodeRaw; rw [h]; rfl

theorem raw0D {w : IWord} (h : fld w 26 6 = BitVec.ofNat 6 13) : decodeRaw w = decodeMajor0D w := by
  unfold decodeRaw; rw [h]; rfl

theorem raw0E {w : IWord} (h : fld w 26 6 = BitVec.ofNat 6 14) : decodeRaw w = decodeMajor0E w := by
  unfold decodeRaw; rw [h]; rfl

theorem raw0F {w : IWord} (h : fld w 26 6 = BitVec.ofNat 6 15) : decodeRaw w = decodeMajor0F w := by
  unfold decodeRaw; rw [h]; rfl

theorem raw10 {w : IWord} (h : fld w 26 6 = BitVec.ofNat 6 16) : decodeRaw w = decodeMajor10 w := by
  unfold decodeRaw; rw [h]; rfl

theorem raw11 {w : IWord} (h : fld w 26 6 = BitVec.ofNat 6 17) : decodeRaw w = decodeMajor11 w := by
  unfold decodeRaw; rw [h]; rfl

theorem raw12 {w : IWord} (h : fld w 26 6 = BitVec.ofNat 6 18) : decodeRaw w = decodeMajor12 w := by
  unfold decodeRaw; rw [h]; rfl

theorem raw13 {w : IWord} (h : fld w 26 6 = BitVec.ofNat 6 19) : decodeRaw w = decodeMajor13 w := by
  unfold decodeRaw; rw [h]; rfl

theorem raw14 {w : IWord} (h : fld w 26 6 = BitVec.ofNat 6 20) : decodeRaw w = decodeMajor14 w := by
  unfold decodeRaw; rw [h]; rfl

theorem raw15 {w : IWord} (h : fld w 26 6 = BitVec.ofNat 6 21) : decodeRaw w = decodeMajor15 w := by
  unfold decodeRaw; rw [h]; rfl

theorem raw16 {w : IWord} (h : fld w 26 6 = BitVec.ofNat 6 22) : decodeRaw w = decodeMajor16 w := by
  unfold decodeRaw; rw [h]; rfl

theorem raw17 {w : IWord} (h : fld w 26 6 = BitVec.ofNat 6 23) : decodeRaw w = decodeMajor17 w := by
  unfold decodeRaw; rw [h]; rfl

theorem raw18 {w : IWord} (h : fld w 26 6 = BitVec.ofNat 6 24) : decodeRaw w = decodeMajor18 w := by
  unfold decodeRaw; rw [h]; rfl

theorem raw19 {w : IWord} (h : fld w 26 6 = BitVec.ofNat 6 25) : decodeRaw w = decodeMajor19 w := by
  unfold decodeRaw; rw [h]; rfl

theorem raw1A {w : IWord} (h : fld w 26 6 = BitVec.ofNat 6 26) : decodeRaw w = decodeMajor1A w := by
  unfold decodeRaw; rw [h]; rfl

theorem raw1B {w : IWord} (h : fld w 26 6 = BitVec.ofNat 6 27) : decodeRaw w = decodeMajor1B w := by
  unfold decodeRaw; rw [h]; rfl

theorem raw1C {w : IWord} (h : fld w 26 6 = BitVec.ofNat 6 28) : decodeRaw w = decodeMajor1C w := by
  unfold decodeRaw; rw [h]; rfl

theorem raw1D {w : IWord} (h : fld w 26 6 = BitVec.ofNat 6 29) : decodeRaw w = decodeMajor1D w := by
  unfold decodeRaw; rw [h]; rfl

theorem raw1E {w : IWord} (h : fld w 26 6 = BitVec.ofNat 6 30) : decodeRaw w = decodeMajor1E w := by
  unfold decodeRaw; rw [h]; rfl

theorem raw1F {w : IWord} (h : fld w 26 6 = BitVec.ofNat 6 31) : decodeRaw w = decodeMajor1F w := by
  unfold decodeRaw; rw [h]; rfl

theorem raw20 {w : IWord} (h : fld w 26 6 = BitVec.ofNat 6 32) : decodeRaw w = decodeMajor20 w := by
  unfold decodeRaw; rw [h]; rfl

theorem raw21 {w : IWord} (h : fld w 26 6 = BitVec.ofNat 6 33) : decodeRaw w = decodeMajor21 w := by
  unfold decodeRaw; rw [h]; rfl

theorem raw22 {w : IWord} (h : fld w 26 6 = BitVec.ofNat 6 34) : decodeRaw w = decodeMajor22 w := by
  unfold decodeRaw; rw [h]; rfl

theorem raw23 {w : IWord} (h : fld w 26 6 = BitVec.ofNat 6 35) : decodeRaw w = decodeMajor23 w := by
  unfold decodeRaw; rw [h]; rfl

theorem raw24 {w : IWord} (h : fld w 26 6 = BitVec.ofNat 6 36) : decodeRaw w = decodeMajor24 w := by
  unfold decodeRaw; rw [h]; rfl

theorem raw25 {w : IWord} (h : fld w 26 6 = BitVec.ofNat 6 37) : decodeRaw w = decodeMajor25 w := by
  unfold decodeRaw; rw [h]; rfl

theorem raw26 {w : IWord} (h : fld w 26 6 = BitVec.ofNat 6 38) : decodeRaw w = decodeMajor26 w := by
  unfold decodeRaw; rw [h]; rfl

theorem raw27 {w : IWord} (h : fld w 26 6 = BitVec.ofNat 6 39) : decodeRaw w = decodeMajor27 w := by
  unfold decodeRaw; rw [h]; rfl

theorem raw28 {w : IWord} (h : fld w 26 6 = BitVec.ofNat 6 40) : decodeRaw w = decodeMajor28 w := by
  unfold decodeRaw; rw [h]; rfl

theorem raw29 {w : IWord} (h : fld w 26 6 = BitVec.ofNat 6 41) : decodeRaw w = decodeMajor29 w := by
  unfold decodeRaw; rw [h]; rfl

theorem raw2A {w : IWord} (h : fld w 26 6 = BitVec.ofNat 6 42) : decodeRaw w = decodeMajor2A w := by
  unfold decodeRaw; rw [h]; rfl

theorem raw2B {w : IWord} (h : fld w 26 6 = BitVec.ofNat 6 43) : decodeRaw w = decodeMajor2B w := by
  unfold decodeRaw; rw [h]; rfl

theorem raw2C {w : IWord} (h : fld w 26 6 = BitVec.ofNat 6 44) : decodeRaw w = decodeMajor2C w := by
  unfold decodeRaw; rw [h]; rfl

theorem raw2D {w : IWord} (h : fld w 26 6 = BitVec.ofNat 6 45) : decodeRaw w = decodeMajor2D w := by
  unfold decodeRaw; rw [h]; rfl

theorem raw2E {w : IWord} (h : fld w 26 6 = BitVec.ofNat 6 46) : decodeRaw w = decodeMajor2E w := by
  unfold decodeRaw; rw [h]; rfl

theorem raw2F {w : IWord} (h : fld w 26 6 = BitVec.ofNat 6 47) : decodeRaw w = decodeMajor2F w := by
  unfold decodeRaw; rw [h]; rfl

theorem raw30 {w : IWord} (h : fld w 26 6 = BitVec.ofNat 6 48) : decodeRaw w = decodeMajor30 w := by
  unfold decodeRaw; rw [h]; rfl

theorem raw31 {w : IWord} (h : fld w 26 6 = BitVec.ofNat 6 49) : decodeRaw w = decodeMajor31 w := by
  unfold decodeRaw; rw [h]; rfl

theorem raw32 {w : IWord} (h : fld w 26 6 = BitVec.ofNat 6 50) : decodeRaw w = decodeMajor32 w := by
  unfold decodeRaw; rw [h]; rfl

theorem raw33 {w : IWord} (h : fld w 26 6 = BitVec.ofNat 6 51) : decodeRaw w = decodeMajor33 w := by
  unfold decodeRaw; rw [h]; rfl

theorem raw34 {w : IWord} (h : fld w 26 6 = BitVec.ofNat 6 52) : decodeRaw w = decodeMajor34 w := by
  unfold decodeRaw; rw [h]; rfl

theorem raw35 {w : IWord} (h : fld w 26 6 = BitVec.ofNat 6 53) : decodeRaw w = decodeMajor35 w := by
  unfold decodeRaw; rw [h]; rfl

theorem raw3D {w : IWord} (h : fld w 26 6 = BitVec.ofNat 6 61) : decodeRaw w = decodeMajor3D w := by
  unfold decodeRaw; rw [h]; rfl

theorem raw36 {w : IWord} (h : fld w 26 6 = BitVec.ofNat 6 54) : decodeRaw w = decodeMajor36 w := by
  unfold decodeRaw; rw [h]; rfl

theorem raw37 {w : IWord} (h : fld w 26 6 = BitVec.ofNat 6 55) : decodeRaw w = decodeMajor37 w := by
  unfold decodeRaw; rw [h]; rfl

theorem raw3C {w : IWord} (h : fld w 26 6 = BitVec.ofNat 6 60) : decodeRaw w = decodeMajor3C w := by
  unfold decodeRaw; rw [h]; rfl

theorem raw38 {w : IWord} (h : fld w 26 6 = BitVec.ofNat 6 56) : decodeRaw w = decodeMajor38 w := by
  unfold decodeRaw; rw [h]; rfl

theorem raw39 {w : IWord} (h : fld w 26 6 = BitVec.ofNat 6 57) : decodeRaw w = decodeMajor39 w := by
  unfold decodeRaw; rw [h]; rfl

theorem raw3A {w : IWord} (h : fld w 26 6 = BitVec.ofNat 6 58) : decodeRaw w = decodeMajor3A w := by
  unfold decodeRaw; rw [h]; rfl

end Sys2Proof.Laws.Encoding
end

