-- ==== Sys2Proof/Laws/Assigned.lean ====
section
/-! SUPPORT. `assigned` answers whether a word is an instruction. -/

namespace Sys2Proof.Laws.Assigned

theorem any_some (f : Instr → Bool) (i : Instr) : (some i).any f = f i := rfl

theorem any_none (f : Instr → Bool) : (none : Option Instr).any f = false := rfl

theorem any_ite {p : Prop} [Decidable p] (f : Instr → Bool) (x y : Option Instr) :
    (if p then x else y).any f = if p then x.any f else y.any f := by split <;> rfl

theorem major01 (w : IWord) : (decodeMajor01 w).any wellFormed = assignedMajor01 w := by
  unfold decodeMajor01
  simp only [any_ite, any_some, any_none]
  rfl

theorem major02 (w : IWord) : (decodeMajor02 w).any wellFormed = assignedMajor02 w := by
  unfold decodeMajor02
  simp only [any_ite, any_some, any_none]
  rfl

theorem major03 (w : IWord) : (decodeMajor03 w).any wellFormed = assignedMajor03 w := by
  unfold decodeMajor03
  simp only [any_ite, any_some, any_none]
  rfl

theorem major04 (w : IWord) : (decodeMajor04 w).any wellFormed = assignedMajor04 w := by
  rfl

theorem major05 (w : IWord) : (decodeMajor05 w).any wellFormed = assignedMajor05 w := by
  rfl

theorem major06 (w : IWord) : (decodeMajor06 w).any wellFormed = assignedMajor06 w := by
  rfl

theorem major07 (w : IWord) : (decodeMajor07 w).any wellFormed = assignedMajor07 w := by
  rfl

theorem major08 (w : IWord) : (decodeMajor08 w).any wellFormed = assignedMajor08 w := by
  unfold decodeMajor08
  simp only [any_ite, any_some, any_none]
  rfl

theorem major09 (w : IWord) : (decodeMajor09 w).any wellFormed = assignedMajor09 w := by
  rfl

theorem major0A (w : IWord) : (decodeMajor0A w).any wellFormed = assignedMajor0A w := by
  rfl

theorem major0B (w : IWord) : (decodeMajor0B w).any wellFormed = assignedMajor0B w := by
  rfl

theorem major0C (w : IWord) : (decodeMajor0C w).any wellFormed = assignedMajor0C w := by
  rfl

theorem major0D (w : IWord) : (decodeMajor0D w).any wellFormed = assignedMajor0D w := by
  rfl

theorem major0E (w : IWord) : (decodeMajor0E w).any wellFormed = assignedMajor0E w := by
  rfl

theorem major0F (w : IWord) : (decodeMajor0F w).any wellFormed = assignedMajor0F w := by
  rfl

theorem major10 (w : IWord) : (decodeMajor10 w).any wellFormed = assignedMajor10 w := by
  rfl

theorem major11 (w : IWord) : (decodeMajor11 w).any wellFormed = assignedMajor11 w := by
  rfl

theorem major12 (w : IWord) : (decodeMajor12 w).any wellFormed = assignedMajor12 w := by
  rfl

theorem major13 (w : IWord) : (decodeMajor13 w).any wellFormed = assignedMajor13 w := by
  rfl

theorem major14 (w : IWord) : (decodeMajor14 w).any wellFormed = assignedMajor14 w := by
  unfold decodeMajor14
  simp only [any_ite, any_some, any_none]
  rfl

theorem major15 (w : IWord) : (decodeMajor15 w).any wellFormed = assignedMajor15 w := by
  unfold decodeMajor15
  simp only [any_ite, any_some, any_none]
  rfl

theorem major16 (w : IWord) : (decodeMajor16 w).any wellFormed = assignedMajor16 w := by
  unfold decodeMajor16
  simp only [any_ite, any_some, any_none]
  rfl

theorem major17 (w : IWord) : (decodeMajor17 w).any wellFormed = assignedMajor17 w := by
  unfold decodeMajor17
  simp only [any_ite, any_some, any_none]
  rfl

theorem major18 (w : IWord) : (decodeMajor18 w).any wellFormed = assignedMajor18 w := by
  unfold decodeMajor18
  simp only [any_ite, any_some, any_none]
  rfl

theorem major19 (w : IWord) : (decodeMajor19 w).any wellFormed = assignedMajor19 w := by
  unfold decodeMajor19
  simp only [any_ite, any_some, any_none]
  rfl

theorem major1A (w : IWord) : (decodeMajor1A w).any wellFormed = assignedMajor1A w := by
  unfold decodeMajor1A
  simp only [any_ite, any_some, any_none]
  rfl

theorem major1B (w : IWord) : (decodeMajor1B w).any wellFormed = assignedMajor1B w := by
  unfold decodeMajor1B
  simp only [any_ite, any_some, any_none]
  rfl

theorem major1C (w : IWord) : (decodeMajor1C w).any wellFormed = assignedMajor1C w := by
  unfold decodeMajor1C
  simp only [any_ite, any_some, any_none]
  rfl

theorem major1D (w : IWord) : (decodeMajor1D w).any wellFormed = assignedMajor1D w := by
  unfold decodeMajor1D
  simp only [any_ite, any_some, any_none]
  rfl

theorem major1E (w : IWord) : (decodeMajor1E w).any wellFormed = assignedMajor1E w := by
  unfold decodeMajor1E
  simp only [any_ite, any_some, any_none]
  rfl

theorem major1F (w : IWord) : (decodeMajor1F w).any wellFormed = assignedMajor1F w := by
  unfold decodeMajor1F
  simp only [any_ite, any_some, any_none]
  rfl

theorem major20 (w : IWord) : (decodeMajor20 w).any wellFormed = assignedMajor20 w := by
  unfold decodeMajor20
  simp only [any_ite, any_some, any_none]
  rfl

theorem major21 (w : IWord) : (decodeMajor21 w).any wellFormed = assignedMajor21 w := by
  unfold decodeMajor21
  simp only [any_ite, any_some, any_none]
  rfl

theorem major22 (w : IWord) : (decodeMajor22 w).any wellFormed = assignedMajor22 w := by
  unfold decodeMajor22
  simp only [any_ite, any_some, any_none]
  rfl

theorem major23 (w : IWord) : (decodeMajor23 w).any wellFormed = assignedMajor23 w := by
  unfold decodeMajor23
  simp only [any_ite, any_some, any_none]
  rfl

theorem major24 (w : IWord) : (decodeMajor24 w).any wellFormed = assignedMajor24 w := by
  unfold decodeMajor24
  simp only [any_ite, any_some, any_none]
  rfl

theorem major25 (w : IWord) : (decodeMajor25 w).any wellFormed = assignedMajor25 w := by
  unfold decodeMajor25
  simp only [any_ite, any_some, any_none]
  rfl

theorem major26 (w : IWord) : (decodeMajor26 w).any wellFormed = assignedMajor26 w := by
  unfold decodeMajor26
  simp only [any_ite, any_some, any_none]
  rfl

theorem major27 (w : IWord) : (decodeMajor27 w).any wellFormed = assignedMajor27 w := by
  unfold decodeMajor27
  simp only [any_ite, any_some, any_none]
  rfl

theorem major28 (w : IWord) : (decodeMajor28 w).any wellFormed = assignedMajor28 w := by
  unfold decodeMajor28
  simp only [any_ite, any_some, any_none]
  rfl

theorem major29 (w : IWord) : (decodeMajor29 w).any wellFormed = assignedMajor29 w := by
  unfold decodeMajor29
  simp only [any_ite, any_some, any_none]
  rfl

theorem major2A (w : IWord) : (decodeMajor2A w).any wellFormed = assignedMajor2A w := by
  unfold decodeMajor2A
  simp only [any_ite, any_some, any_none]
  rfl

theorem major2B (w : IWord) : (decodeMajor2B w).any wellFormed = assignedMajor2B w := by
  unfold decodeMajor2B
  simp only [any_ite, any_some, any_none]
  rfl

theorem major2C (w : IWord) : (decodeMajor2C w).any wellFormed = assignedMajor2C w := by
  unfold decodeMajor2C
  simp only [any_ite, any_some, any_none]
  rfl

theorem major2D (w : IWord) : (decodeMajor2D w).any wellFormed = assignedMajor2D w := by
  unfold decodeMajor2D
  simp only [any_ite, any_some, any_none]
  rfl

theorem major2E (w : IWord) : (decodeMajor2E w).any wellFormed = assignedMajor2E w := by
  unfold decodeMajor2E
  simp only [any_ite, any_some, any_none]
  rfl

theorem major2F (w : IWord) : (decodeMajor2F w).any wellFormed = assignedMajor2F w := by
  unfold decodeMajor2F
  simp only [any_ite, any_some, any_none]
  rfl

theorem major30 (w : IWord) : (decodeMajor30 w).any wellFormed = assignedMajor30 w := by
  unfold decodeMajor30
  simp only [any_ite, any_some, any_none]
  rfl

theorem major31 (w : IWord) : (decodeMajor31 w).any wellFormed = assignedMajor31 w := by
  unfold decodeMajor31
  simp only [any_ite, any_some, any_none]
  rfl

theorem major32 (w : IWord) : (decodeMajor32 w).any wellFormed = assignedMajor32 w := by
  unfold decodeMajor32
  simp only [any_ite, any_some, any_none]
  rfl

theorem major33 (w : IWord) : (decodeMajor33 w).any wellFormed = assignedMajor33 w := by
  unfold decodeMajor33
  simp only [any_ite, any_some, any_none]
  rfl

theorem major34 (w : IWord) : (decodeMajor34 w).any wellFormed = assignedMajor34 w := by
  unfold decodeMajor34
  simp only [any_ite, any_some, any_none]
  rfl

theorem major35 (w : IWord) : (decodeMajor35 w).any wellFormed = assignedMajor35 w := by
  unfold decodeMajor35
  simp only [any_ite, any_some, any_none]
  rfl

theorem major3D (w : IWord) : (decodeMajor3D w).any wellFormed = assignedMajor3D w := by
  unfold decodeMajor3D
  simp only [any_ite, any_some, any_none]
  rfl

theorem major36 (w : IWord) : (decodeMajor36 w).any wellFormed = assignedMajor36 w := by
  unfold decodeMajor36
  simp only [any_ite, any_some, any_none]
  rfl

theorem major37 (w : IWord) : (decodeMajor37 w).any wellFormed = assignedMajor37 w := by
  unfold decodeMajor37
  simp only [any_ite, any_some, any_none]
  rfl

theorem major3C (w : IWord) : (decodeMajor3C w).any wellFormed = assignedMajor3C w := by
  unfold decodeMajor3C
  simp only [any_ite, any_some, any_none]
  rfl

theorem major38 (w : IWord) : (decodeMajor38 w).any wellFormed = assignedMajor38 w := by
  unfold decodeMajor38
  simp only [any_ite, any_some, any_none]
  rfl

theorem major39 (w : IWord) : (decodeMajor39 w).any wellFormed = assignedMajor39 w := by
  unfold decodeMajor39
  simp only [any_ite, any_some, any_none]
  rfl

theorem major3A (w : IWord) : (decodeMajor3A w).any wellFormed = assignedMajor3A w := by
  unfold decodeMajor3A
  simp only [any_ite, any_some, any_none]
  rfl

/-- A word is assigned where the raw decoder gives a well-formed instruction. -/
theorem assigned_eq_any (w : IWord) : assigned w = (decodeRaw w).any wellFormed := by
  unfold assigned decodeRaw
  have h : (fld w 26 6).toNat < 64 := BitVec.isLt _
  revert h
  generalize (fld w 26 6).toNat = n
  intro h
  match n, h with
  | 0, _ => exact rfl
  | 1, _ => exact (major01 w).symm
  | 2, _ => exact (major02 w).symm
  | 3, _ => exact (major03 w).symm
  | 4, _ => exact (major04 w).symm
  | 5, _ => exact (major05 w).symm
  | 6, _ => exact (major06 w).symm
  | 7, _ => exact (major07 w).symm
  | 8, _ => exact (major08 w).symm
  | 9, _ => exact (major09 w).symm
  | 10, _ => exact (major0A w).symm
  | 11, _ => exact (major0B w).symm
  | 12, _ => exact (major0C w).symm
  | 13, _ => exact (major0D w).symm
  | 14, _ => exact (major0E w).symm
  | 15, _ => exact (major0F w).symm
  | 16, _ => exact (major10 w).symm
  | 17, _ => exact (major11 w).symm
  | 18, _ => exact (major12 w).symm
  | 19, _ => exact (major13 w).symm
  | 20, _ => exact (major14 w).symm
  | 21, _ => exact (major15 w).symm
  | 22, _ => exact (major16 w).symm
  | 23, _ => exact (major17 w).symm
  | 24, _ => exact (major18 w).symm
  | 25, _ => exact (major19 w).symm
  | 26, _ => exact (major1A w).symm
  | 27, _ => exact (major1B w).symm
  | 28, _ => exact (major1C w).symm
  | 29, _ => exact (major1D w).symm
  | 30, _ => exact (major1E w).symm
  | 31, _ => exact (major1F w).symm
  | 32, _ => exact (major20 w).symm
  | 33, _ => exact (major21 w).symm
  | 34, _ => exact (major22 w).symm
  | 35, _ => exact (major23 w).symm
  | 36, _ => exact (major24 w).symm
  | 37, _ => exact (major25 w).symm
  | 38, _ => exact (major26 w).symm
  | 39, _ => exact (major27 w).symm
  | 40, _ => exact (major28 w).symm
  | 41, _ => exact (major29 w).symm
  | 42, _ => exact (major2A w).symm
  | 43, _ => exact (major2B w).symm
  | 44, _ => exact (major2C w).symm
  | 45, _ => exact (major2D w).symm
  | 46, _ => exact (major2E w).symm
  | 47, _ => exact (major2F w).symm
  | 48, _ => exact (major30 w).symm
  | 49, _ => exact (major31 w).symm
  | 50, _ => exact (major32 w).symm
  | 51, _ => exact (major33 w).symm
  | 52, _ => exact (major34 w).symm
  | 53, _ => exact (major35 w).symm
  | 54, _ => exact (major36 w).symm
  | 55, _ => exact (major37 w).symm
  | 56, _ => exact (major38 w).symm
  | 57, _ => exact (major39 w).symm
  | 58, _ => exact (major3A w).symm
  | 59, _ => exact rfl
  | 60, _ => exact (major3C w).symm
  | 61, _ => exact (major3D w).symm
  | 62, _ => exact rfl
  | 63, _ => exact rfl
  | n + 64, h => exact absurd h (by omega)

/-- A word is assigned where it decodes. -/
theorem assigned_eq_isSome (w : IWord) : assigned w = (decode w).isSome := by
  rw [assigned_eq_any, decode]
  cases decodeRaw w with
  | none => exact rfl
  | some i => simp only [Option.any]; split <;> simp_all

end Sys2Proof.Laws.Assigned
end

