-- ==== Sys2Proof/Laws/Bits.lean ====
section
/-! SUPPORT. Bit fields of numbers and words. -/

namespace Sys2Proof.Machine

theorem bit_eq_testBit (x k : Nat) : bit x k = x.testBit k := by
  rw [bit, Nat.testBit_eq_decide_div_mod_eq]
  by_cases h : x / 2 ^ k % 2 = 1 <;> simp [h]

theorem testBit_bits (x lo n k : Nat) : (bits x lo n).testBit k = (decide (k < n) && x.testBit (lo + k)) := by
  rw [bits, Nat.testBit_mod_two_pow, Nat.testBit_div_two_pow, Nat.add_comm]

theorem bits_lt (x lo n : Nat) : bits x lo n < 2 ^ n := Nat.mod_lt _ (Nat.two_pow_pos n)

/-- A field replaced: the bits of the new value inside the field, the old ones outside. -/
theorem testBit_setBits (x lo n v k : Nat) :
    (setBits x lo n v).testBit k =
      if k < lo then x.testBit k else if k < lo + n then v.testBit (k - lo) else x.testBit k := by
  have e : setBits x lo n v = 2 ^ (lo + n) * (x / 2 ^ (lo + n)) + (2 ^ lo * (v % 2 ^ n) + x % 2 ^ lo) := by
    simp only [setBits, Nat.mul_comm, Nat.add_comm]
  have hx : x % 2 ^ lo < 2 ^ lo := Nat.mod_lt _ (Nat.two_pow_pos lo)
  have hv : v % 2 ^ n < 2 ^ n := Nat.mod_lt _ (Nat.two_pow_pos n)
  have hb : 2 ^ lo * (v % 2 ^ n) + x % 2 ^ lo < 2 ^ (lo + n) := by
    have : 2 ^ lo * (v % 2 ^ n) + 2 ^ lo ≤ 2 ^ lo * 2 ^ n := by
      rw [← Nat.mul_succ]; exact Nat.mul_le_mul_left _ hv
    rw [Nat.pow_add]; omega
  rw [e, Nat.testBit_two_pow_mul_add _ hb]
  by_cases h1 : k < lo
  · rw [if_pos (by omega), Nat.testBit_two_pow_mul_add _ hx, if_pos h1, if_pos h1, Nat.testBit_mod_two_pow]
    simp [h1]
  · rw [if_neg h1]
    by_cases h2 : k < lo + n
    · rw [if_pos h2, if_pos h2, Nat.testBit_two_pow_mul_add _ hx, if_neg h1, Nat.testBit_mod_two_pow]
      simp [show k - lo < n by omega]
    · rw [if_neg h2, if_neg h2, Nat.testBit_div_two_pow]
      congr 1; omega

/-- A field of a number whose field has been replaced: the same field, or one apart from it. -/
theorem bits_setBits_same (x lo n v : Nat) : bits (setBits x lo n v) lo n = v % 2 ^ n := by
  apply Nat.eq_of_testBit_eq; intro k
  rw [testBit_bits, testBit_setBits, Nat.testBit_mod_two_pow]
  by_cases h : k < n
  · rw [if_neg (by omega), if_pos (by omega)]; simp [h]
  · simp [h]

theorem bits_setBits_apart (x lo n v lo' n' : Nat) (h : lo' + n' ≤ lo ∨ lo + n ≤ lo') :
    bits (setBits x lo n v) lo' n' = bits x lo' n' := by
  apply Nat.eq_of_testBit_eq; intro k
  rw [testBit_bits, testBit_bits, testBit_setBits]
  by_cases hk : k < n'
  · rcases h with h | h
    · rw [if_pos (by omega)]
    · rw [if_neg (by omega), if_neg (by omega)]
  · simp [hk]

/-- A number below a power of two stays so when a field within it is replaced. -/
theorem setBits_lt {x lo n v m : Nat} (hx : x < 2 ^ m) (h : lo + n ≤ m) : setBits x lo n v < 2 ^ m := by
  apply Nat.lt_pow_two_of_testBit
  intro i hi
  rw [testBit_setBits, if_neg (by omega), if_neg (by omega)]
  exact Nat.testBit_lt_two_pow (Nat.lt_of_lt_of_le hx (Nat.pow_le_pow_right (by omega) hi))

@[simp] theorem word_toNat (x : Word) : word x.toNat = x := by simp [word]

theorem toNat_wset (x : Word) (lo n v : Nat) (h : lo + n ≤ 64) : (wset x lo n v).toNat = setBits x.toNat lo n v := by
  rw [wset, word, BitVec.toNat_ofNat, Nat.mod_eq_of_lt (setBits_lt x.isLt h)]

/-- The field of a word that has been replaced, and the others. -/
theorem wf_wset_same (x : Word) (lo n v : Nat) (h : lo + n ≤ 64) : wf (wset x lo n v) lo n = v % 2 ^ n := by
  rw [wf, toNat_wset x lo n v h, bits_setBits_same]

theorem wf_wset_apart (x : Word) (lo n v lo' n' : Nat) (h : lo + n ≤ 64) (a : lo' + n' ≤ lo ∨ lo + n ≤ lo') :
    wf (wset x lo n v) lo' n' = wf x lo' n' := by
  rw [wf, toNat_wset x lo n v h, bits_setBits_apart _ _ _ _ _ _ a, wf]

end Sys2Proof.Machine
end

