-- ==== Sys2Proof/Laws/Dispatch.lean ====
section
/-! SUPPORT. The meaning of every instruction and step, as the dispatch gives it. -/

namespace Sys2Proof.Machine

@[simp] theorem exec_contextSave (h : BitVec 1) (s : State) : exec (.contextSave h) s = execContextSave h s := rfl
@[simp] theorem exec_contextRestore (h : BitVec 1) (s : State) : exec (.contextRestore h) s = execContextRestore h s := rfl
@[simp] theorem exec_scalarResultArrival (h : BitVec 1) (r : BitVec 6) (s : State) : exec (.scalarResultArrival h r) s = execScalarResultArrival h r s := rfl
@[simp] theorem exec_arrayInstructionBegin (k : Nat) (s : State) : exec (.arrayInstructionBegin k) s = execArrayInstructionBegin k s := rfl
@[simp] theorem exec_arrayInstructionComplete (k : Nat) (s : State) : exec (.arrayInstructionComplete k) s = execArrayInstructionComplete k s := rfl
@[simp] theorem exec_tileAccept (pos : BitVec 2) (rows : BitVec 8) (s : State) : exec (.tileAccept pos rows) s = execTileAccept pos rows s := rfl
@[simp] theorem exec_tileWordComplete (s : State) : exec (.tileWordComplete) s = execTileWordComplete s := rfl
@[simp] theorem exec_microThreadRelease (k : BitVec 5) (s : State) : exec (.microThreadRelease k) s = execMicroThreadRelease k s := rfl
@[simp] theorem exec_blockFetch (k : BitVec 5) (s : State) : exec (.blockFetch k) s = execBlockFetch k s := rfl
@[simp] theorem exec_peerFaultInterrupt (h : BitVec 1) (s : State) : exec (.peerFaultInterrupt h) s = execPeerFaultInterrupt h s := rfl
@[simp] theorem exec_meshInterrupt (h : BitVec 1) (s : State) : exec (.meshInterrupt h) s = execMeshInterrupt h s := rfl
@[simp] theorem exec_cycleCompare (h : BitVec 1) (s : State) : exec (.cycleCompare h) s = execCycleCompare h s := rfl
@[simp] theorem exec_mailboxInterrupt (h : BitVec 1) (s : State) : exec (.mailboxInterrupt h) s = execMailboxInterrupt h s := rfl
@[simp] theorem exec_faultQueueNonEmpty (h : BitVec 1) (s : State) : exec (.faultQueueNonEmpty h) s = execFaultQueueNonEmpty h s := rfl
@[simp] theorem exec_microThreadSummary (h : BitVec 1) (s : State) : exec (.microThreadSummary h) s = execMicroThreadSummary h s := rfl
@[simp] theorem exec_managementInterrupt (h : BitVec 1) (s : State) : exec (.managementInterrupt h) s = execManagementInterrupt h s := rfl
@[simp] theorem exec_arrayParityTrap (h : BitVec 1) (s : State) : exec (.arrayParityTrap h) s = execArrayParityTrap h s := rfl
@[simp] theorem exec_busErrorTrap (h : BitVec 1) (s : State) : exec (.busErrorTrap h) s = execBusErrorTrap h s := rfl
@[simp] theorem exec_streamFaultTrap (h : BitVec 1) (s : State) : exec (.streamFaultTrap h) s = execStreamFaultTrap h s := rfl
@[simp] theorem exec_directoryOverflowTrap (h : BitVec 1) (s : State) : exec (.directoryOverflowTrap h) s = execDirectoryOverflowTrap h s := rfl
@[simp] theorem exec_microThreadFaultTrap (h : BitVec 1) (s : State) : exec (.microThreadFaultTrap h) s = execMicroThreadFaultTrap h s := rfl
@[simp] theorem exec_sleepWake (h : BitVec 1) (s : State) : exec (.sleepWake h) s = execSleepWake h s := rfl
@[simp] theorem exec_walkComplete (va : BitVec 64) (s : State) : exec (.walkComplete va) s = execWalkComplete va s := rfl
@[simp] theorem exec_homeReadRequest (pa : Nat) (s : State) : exec (.homeReadRequest pa) s = execHomeReadRequest pa s := rfl
@[simp] theorem exec_homeWriteArrival (own : Option Nat) (pa : Nat) (n : Nat) (v : BitVec 64) (s : State) : exec (.homeWriteArrival own pa n v) s = execHomeWriteArrival own pa n v s := rfl
@[simp] theorem exec_homeAtomic (fn : BitVec 5) (pa : Nat) (b : BitVec 64) (c : BitVec 64) (s : State) : exec (.homeAtomic fn pa b c) s = execHomeAtomic fn pa b c s := rfl
@[simp] theorem exec_monitorMatchReply (h : BitVec 1) (s : State) : exec (.monitorMatchReply h) s = execMonitorMatchReply h s := rfl
@[simp] theorem exec_waitaTimeout (h : BitVec 1) (s : State) : exec (.waitaTimeout h) s = execWaitaTimeout h s := rfl
@[simp] theorem exec_waitvTimeout (h : BitVec 1) (s : State) : exec (.waitvTimeout h) s = execWaitvTimeout h s := rfl
@[simp] theorem exec_vstrPacketArrival (own : Option Nat) (pa : Nat) (td : BitVec 5) (x : BitVec 32) (mode : BitVec 3) (sat : Bool) (s : State) : exec (.vstrPacketArrival own pa td x mode sat) s = execVstrPacketArrival own pa td x mode sat s := rfl
@[simp] theorem exec_syncRequestArrival (kind : BitVec 2) (pa : Nat) (core : BitVec 10) (h : BitVec 1) (cid : BitVec 16) (s : State) : exec (.syncRequestArrival kind pa core h cid) s = execSyncRequestArrival kind pa core h cid s := rfl
@[simp] theorem exec_syncGrant (h : BitVec 1) (s : State) : exec (.syncGrant h) s = execSyncGrant h s := rfl
@[simp] theorem exec_copyChunk (k : BitVec 6) (s : State) : exec (.copyChunk k) s = execCopyChunk k s := rfl
@[simp] theorem exec_copyComplete (k : BitVec 6) (s : State) : exec (.copyComplete k) s = execCopyComplete k s := rfl
@[simp] theorem exec_promiseMissed (h : BitVec 1) (s : State) : exec (.promiseMissed h) s = execPromiseMissed h s := rfl
@[simp] theorem exec_faultReply (w : BitVec 64) (s : State) : exec (.faultReply w) s = execFaultReply w s := rfl
@[simp] theorem exec_streamUnit (k : BitVec 3) (u : Nat) (s : State) : exec (.streamUnit k u) s = execStreamUnit k u s := rfl
@[simp] theorem exec_streamComplete (k : BitVec 3) (s : State) : exec (.streamComplete k) s = execStreamComplete k s := rfl
@[simp] theorem exec_scfgInstall (k : BitVec 5) (s : State) : exec (.scfgInstall k) s = execScfgInstall k s := rfl
@[simp] theorem exec_channelMessageDelivery (own : Option Nat) (vn : BitVec 1) (dev : BitVec 12) (core : BitVec 10) (handler : BitVec 32) (payload : List (BitVec 8)) (s : State) : exec (.channelMessageDelivery own vn dev core handler payload) s = execChannelMessageDelivery own vn dev core handler payload s := rfl
@[simp] theorem exec_nputLanding (own : Option Nat) (xform : BitVec 4) (offset : BitVec 22) (dev : BitVec 12) (core : BitVec 10) (payload : List (BitVec 8)) (s : State) : exec (.nputLanding own xform offset dev core payload) s = execNputLanding own xform offset dev core payload s := rfl
@[simp] theorem exec_meshMessageArrival (own : Option Nat) (h : BitVec 1) (kind : BitVec 2) (payload : BitVec 64) (core : BitVec 10) (s : State) : exec (.meshMessageArrival own h kind payload core) s = execMeshMessageArrival own h kind payload core s := rfl
@[simp] theorem exec_preemptMessage (own : Option Nat) (payload : BitVec 64) (core : BitVec 10) (s : State) : exec (.preemptMessage own payload core) s = execPreemptMessage own payload core s := rfl
@[simp] theorem exec_spillRedelivery (s : State) : exec (.spillRedelivery) s = execSpillRedelivery s := rfl
@[simp] theorem exec_nodeDispatch (k : Nat) (s : State) : exec (.nodeDispatch k) s = execNodeDispatch k s := rfl
@[simp] theorem exec_nodeAging (id : BitVec 16) (s : State) : exec (.nodeAging id) s = execNodeAging id s := rfl
@[simp] theorem exec_triggerArrival (slot : BitVec 8) (pa : Nat) (s : State) : exec (.triggerArrival slot pa) s = execTriggerArrival slot pa s := rfl
@[simp] theorem exec_triggerSpawnRetry (slot : BitVec 8) (s : State) : exec (.triggerSpawnRetry slot) s = execTriggerSpawnRetry slot s := rfl
@[simp] theorem exec_mailboxRequest (q : BitVec 2) (slot : BitVec 8) (w : BitVec 64) (s : State) : exec (.mailboxRequest q slot w) s = execMailboxRequest q slot w s := rfl
@[simp] theorem exec_mailboxNext (q : BitVec 2) (s : State) : exec (.mailboxNext q) s = execMailboxNext q s := rfl
@[simp] theorem exec_mailboxNotify (q : BitVec 2) (n : BitVec 64) (s : State) : exec (.mailboxNotify q n) s = execMailboxNotify q n s := rfl
@[simp] theorem exec_faultWindowTake (h : BitVec 1) (s : State) : exec (.faultWindowTake h) s = execFaultWindowTake h s := rfl
@[simp] theorem exec_faultWindowReply (w : BitVec 64) (s : State) : exec (.faultWindowReply w) s = execFaultWindowReply w s := rfl
@[simp] theorem exec_directoryTake (slice : BitVec 8) (reader : Nat) (s : State) : exec (.directoryTake slice reader) s = execDirectoryTake slice reader s := rfl
@[simp] theorem exec_directoryAck (slice : BitVec 8) (w : BitVec 64) (s : State) : exec (.directoryAck slice w) s = execDirectoryAck slice w s := rfl
@[simp] theorem exec_violationLogTake (q : BitVec 2) (reader : Nat) (s : State) : exec (.violationLogTake q reader) s = execViolationLogTake q reader s := rfl
@[simp] theorem exec_errorCountersClear (q : BitVec 2) (s : State) : exec (.errorCountersClear q) s = execErrorCountersClear q s := rfl
@[simp] theorem exec_heatEntryRead (c : BitVec 8) (j : BitVec 10) (s : State) : exec (.heatEntryRead c j) s = execHeatEntryRead c j s := rfl
@[simp] theorem exec_heatSeedWrite (c : BitVec 8) (v : BitVec 64) (s : State) : exec (.heatSeedWrite c v) s = execHeatSeedWrite c v s := rfl
@[simp] theorem exec_heatClear (c : BitVec 8) (s : State) : exec (.heatClear c) s = execHeatClear c s := rfl
@[simp] theorem exec_hostFaultTake (q : BitVec 2) (s : State) : exec (.hostFaultTake q) s = execHostFaultTake q s := rfl
@[simp] theorem exec_hostFaultReply (q : BitVec 2) (w : BitVec 64) (s : State) : exec (.hostFaultReply q w) s = execHostFaultReply q w s := rfl
@[simp] theorem exec_svcRetire (bit : BitVec 8) (part : BitVec 16) (s : State) : exec (.svcRetire bit part) s = execSvcRetire bit part s := rfl
@[simp] theorem exec_svcClear (bit : BitVec 8) (part : BitVec 16) (s : State) : exec (.svcClear bit part) s = execSvcClear bit part s := rfl
@[simp] theorem exec_svcReleaseHart (hartid : BitVec 16) (s : State) : exec (.svcReleaseHart hartid) s = execSvcReleaseHart hartid s := rfl
@[simp] theorem exec_evlogRead (s : State) : exec (.evlogRead) s = execEvlogRead s := rfl
@[simp] theorem exec_codecInstallWrite (k : BitVec 4) (s : State) : exec (.codecInstallWrite k) s = execCodecInstallWrite k s := rfl
@[simp] theorem exec_attestationRequest (s : State) : exec (.attestationRequest) s = execAttestationRequest s := rfl
@[simp] theorem exec_loadStart (s : State) : exec (.loadStart) s = execLoadStart s := rfl
@[simp] theorem exec_registerWrite (addr : BitVec 48) (v : BitVec 64) (s : State) : exec (.registerWrite addr v) s = execRegisterWrite addr v s := rfl
@[simp] theorem exec_deviceReset (s : State) : exec (.deviceReset) s = execDeviceReset s := rfl
@[simp] theorem exec_hardwareError (kind : BitVec 4) (part : BitVec 16) (sub : BitVec 4) (s : State) : exec (.hardwareError kind part sub) s = execHardwareError kind part sub s := rfl
@[simp] theorem exec_relocationStallEnd (cluster : BitVec 7) (s : State) : exec (.relocationStallEnd cluster) s = execRelocationStallEnd cluster s := rfl
@[simp] theorem exec_xratioStallEnd (island : BitVec 4) (s : State) : exec (.xratioStallEnd island) s = execXratioStallEnd island s := rfl
@[simp] theorem exec_powerComparison (power : BitVec 16) (islands : List (BitVec 16)) (s : State) : exec (.powerComparison power islands) s = execPowerComparison power islands s := rfl
@[simp] theorem exec_codecLearningComplete (k : BitVec 4) (s : State) : exec (.codecLearningComplete k) s = execCodecLearningComplete k s := rfl
@[simp] theorem exec_codecResampleStart (k : BitVec 4) (s : State) : exec (.codecResampleStart k) s = execCodecResampleStart k s := rfl
@[simp] theorem exec_scrubberRecode (k : BitVec 4) (frame : Nat) (sb : BitVec 4) (s : State) : exec (.scrubberRecode k frame sb) s = execScrubberRecode k frame sb s := rfl
@[simp] theorem exec_scrubberPassEnd (k : BitVec 4) (s : State) : exec (.scrubberPassEnd k) s = execScrubberPassEnd k s := rfl
@[simp] theorem exec_codecTableInstall (k : BitVec 4) (s : State) : exec (.codecTableInstall k) s = execCodecTableInstall k s := rfl
@[simp] theorem exec_illegalInstruction (w : BitVec 32) (s : State) : exec (.illegalInstruction w) s = execIllegalInstruction w s := rfl
@[simp] theorem exec_instructionFetchFault (s : State) : exec (.instructionFetchFault) s = execInstructionFetchFault s := rfl
@[simp] theorem exec_homeAcknowledgement (h : BitVec 1) (s : State) : exec (.homeAcknowledgement h) s = execHomeAcknowledgement h s := rfl
@[simp] theorem exec_msixVectorUnmask (v : BitVec 9) (s : State) : exec (.msixVectorUnmask v) s = execMsixVectorUnmask v s := rfl
@[simp] theorem exec_add (d : BitVec 7) (a : BitVec 7) (b : BitVec 7) (s : State) : exec (.add d a b) s = execAdd d a b s := rfl
@[simp] theorem exec_sub (d : BitVec 7) (a : BitVec 7) (b : BitVec 7) (s : State) : exec (.sub d a b) s = execSub d a b s := rfl
@[simp] theorem exec_and (d : BitVec 7) (a : BitVec 7) (b : BitVec 7) (s : State) : exec (.and d a b) s = execAnd d a b s := rfl
@[simp] theorem exec_or (d : BitVec 7) (a : BitVec 7) (b : BitVec 7) (s : State) : exec (.or d a b) s = execOr d a b s := rfl
@[simp] theorem exec_xor (d : BitVec 7) (a : BitVec 7) (b : BitVec 7) (s : State) : exec (.xor d a b) s = execXor d a b s := rfl
@[simp] theorem exec_andn (d : BitVec 7) (a : BitVec 7) (b : BitVec 7) (s : State) : exec (.andn d a b) s = execAndn d a b s := rfl
@[simp] theorem exec_sll (d : BitVec 7) (a : BitVec 7) (b : BitVec 7) (s : State) : exec (.sll d a b) s = execSll d a b s := rfl
@[simp] theorem exec_srl (d : BitVec 7) (a : BitVec 7) (b : BitVec 7) (s : State) : exec (.srl d a b) s = execSrl d a b s := rfl
@[simp] theorem exec_sra (d : BitVec 7) (a : BitVec 7) (b : BitVec 7) (s : State) : exec (.sra d a b) s = execSra d a b s := rfl
@[simp] theorem exec_slt (d : BitVec 7) (a : BitVec 7) (b : BitVec 7) (s : State) : exec (.slt d a b) s = execSlt d a b s := rfl
@[simp] theorem exec_sltn (d : BitVec 7) (a : BitVec 7) (b : BitVec 7) (s : State) : exec (.sltn d a b) s = execSltn d a b s := rfl
@[simp] theorem exec_min (d : BitVec 7) (a : BitVec 7) (b : BitVec 7) (s : State) : exec (.min d a b) s = execMin d a b s := rfl
@[simp] theorem exec_max (d : BitVec 7) (a : BitVec 7) (b : BitVec 7) (s : State) : exec (.max d a b) s = execMax d a b s := rfl
@[simp] theorem exec_minn (d : BitVec 7) (a : BitVec 7) (b : BitVec 7) (s : State) : exec (.minn d a b) s = execMinn d a b s := rfl
@[simp] theorem exec_maxn (d : BitVec 7) (a : BitVec 7) (b : BitVec 7) (s : State) : exec (.maxn d a b) s = execMaxn d a b s := rfl
@[simp] theorem exec_addw (d : BitVec 7) (a : BitVec 7) (b : BitVec 7) (s : State) : exec (.addw d a b) s = execAddw d a b s := rfl
@[simp] theorem exec_subw (d : BitVec 7) (a : BitVec 7) (b : BitVec 7) (s : State) : exec (.subw d a b) s = execSubw d a b s := rfl
@[simp] theorem exec_cmov (d : BitVec 7) (a : BitVec 7) (b : BitVec 7) (s : State) : exec (.cmov d a b) s = execCmov d a b s := rfl
@[simp] theorem exec_mul (d : BitVec 7) (a : BitVec 7) (b : BitVec 7) (s : State) : exec (.mul d a b) s = execMul d a b s := rfl
@[simp] theorem exec_mulh (d : BitVec 7) (a : BitVec 7) (b : BitVec 7) (s : State) : exec (.mulh d a b) s = execMulh d a b s := rfl
@[simp] theorem exec_mulhn (d : BitVec 7) (a : BitVec 7) (b : BitVec 7) (s : State) : exec (.mulhn d a b) s = execMulhn d a b s := rfl
@[simp] theorem exec_div (d : BitVec 7) (a : BitVec 7) (b : BitVec 7) (s : State) : exec (.div d a b) s = execDiv d a b s := rfl
@[simp] theorem exec_divn (d : BitVec 7) (a : BitVec 7) (b : BitVec 7) (s : State) : exec (.divn d a b) s = execDivn d a b s := rfl
@[simp] theorem exec_rem (d : BitVec 7) (a : BitVec 7) (b : BitVec 7) (s : State) : exec (.rem d a b) s = execRem d a b s := rfl
@[simp] theorem exec_remn (d : BitVec 7) (a : BitVec 7) (b : BitVec 7) (s : State) : exec (.remn d a b) s = execRemn d a b s := rfl
@[simp] theorem exec_clz (d : BitVec 7) (a : BitVec 7) (s : State) : exec (.clz d a) s = execClz d a s := rfl
@[simp] theorem exec_ctz (d : BitVec 7) (a : BitVec 7) (s : State) : exec (.ctz d a) s = execCtz d a s := rfl
@[simp] theorem exec_popc (d : BitVec 7) (a : BitVec 7) (s : State) : exec (.popc d a) s = execPopc d a s := rfl
@[simp] theorem exec_rev (d : BitVec 7) (a : BitVec 7) (s : State) : exec (.rev d a) s = execRev d a s := rfl
@[simp] theorem exec_bswap (d : BitVec 7) (a : BitVec 7) (s : State) : exec (.bswap d a) s = execBswap d a s := rfl
@[simp] theorem exec_rotl (d : BitVec 7) (a : BitVec 7) (b : BitVec 7) (s : State) : exec (.rotl d a b) s = execRotl d a b s := rfl
@[simp] theorem exec_rotr (d : BitVec 7) (a : BitVec 7) (b : BitVec 7) (s : State) : exec (.rotr d a b) s = execRotr d a b s := rfl
@[simp] theorem exec_fadd (d : BitVec 7) (a : BitVec 7) (b : BitVec 7) (s : State) : exec (.fadd d a b) s = execFadd d a b s := rfl
@[simp] theorem exec_fsub (d : BitVec 7) (a : BitVec 7) (b : BitVec 7) (s : State) : exec (.fsub d a b) s = execFsub d a b s := rfl
@[simp] theorem exec_fmul (d : BitVec 7) (a : BitVec 7) (b : BitVec 7) (s : State) : exec (.fmul d a b) s = execFmul d a b s := rfl
@[simp] theorem exec_fdiv (d : BitVec 7) (a : BitVec 7) (b : BitVec 7) (s : State) : exec (.fdiv d a b) s = execFdiv d a b s := rfl
@[simp] theorem exec_fma (d : BitVec 7) (a : BitVec 7) (b : BitVec 7) (s : State) : exec (.fma d a b) s = execFma d a b s := rfl
@[simp] theorem exec_fmin (d : BitVec 7) (a : BitVec 7) (b : BitVec 7) (s : State) : exec (.fmin d a b) s = execFmin d a b s := rfl
@[simp] theorem exec_fmax (d : BitVec 7) (a : BitVec 7) (b : BitVec 7) (s : State) : exec (.fmax d a b) s = execFmax d a b s := rfl
@[simp] theorem exec_fsqrt (d : BitVec 7) (a : BitVec 7) (s : State) : exec (.fsqrt d a) s = execFsqrt d a s := rfl
@[simp] theorem exec_feq (d : BitVec 7) (a : BitVec 7) (b : BitVec 7) (s : State) : exec (.feq d a b) s = execFeq d a b s := rfl
@[simp] theorem exec_flt (d : BitVec 7) (a : BitVec 7) (b : BitVec 7) (s : State) : exec (.flt d a b) s = execFlt d a b s := rfl
@[simp] theorem exec_fle (d : BitVec 7) (a : BitVec 7) (b : BitVec 7) (s : State) : exec (.fle d a b) s = execFle d a b s := rfl
@[simp] theorem exec_fcvtis (d : BitVec 7) (a : BitVec 7) (s : State) : exec (.fcvtis d a) s = execFcvtis d a s := rfl
@[simp] theorem exec_fcvtsi (d : BitVec 7) (a : BitVec 7) (s : State) : exec (.fcvtsi d a) s = execFcvtsi d a s := rfl
@[simp] theorem exec_fclass (d : BitVec 7) (a : BitVec 7) (s : State) : exec (.fclass d a) s = execFclass d a s := rfl
@[simp] theorem exec_fcvtbf (d : BitVec 7) (a : BitVec 7) (s : State) : exec (.fcvtbf d a) s = execFcvtbf d a s := rfl
@[simp] theorem exec_fcvtfb (d : BitVec 7) (a : BitVec 7) (s : State) : exec (.fcvtfb d a) s = execFcvtfb d a s := rfl
@[simp] theorem exec_addi (d : BitVec 7) (a : BitVec 7) (imm : BitVec 12) (s : State) : exec (.addi d a imm) s = execAddi d a imm s := rfl
@[simp] theorem exec_andi (d : BitVec 7) (a : BitVec 7) (imm : BitVec 12) (s : State) : exec (.andi d a imm) s = execAndi d a imm s := rfl
@[simp] theorem exec_ori (d : BitVec 7) (a : BitVec 7) (imm : BitVec 12) (s : State) : exec (.ori d a imm) s = execOri d a imm s := rfl
@[simp] theorem exec_xori (d : BitVec 7) (a : BitVec 7) (imm : BitVec 12) (s : State) : exec (.xori d a imm) s = execXori d a imm s := rfl
@[simp] theorem exec_slli (d : BitVec 7) (a : BitVec 7) (imm : BitVec 6) (s : State) : exec (.slli d a imm) s = execSlli d a imm s := rfl
@[simp] theorem exec_srli (d : BitVec 7) (a : BitVec 7) (imm : BitVec 6) (s : State) : exec (.srli d a imm) s = execSrli d a imm s := rfl
@[simp] theorem exec_srai (d : BitVec 7) (a : BitVec 7) (imm : BitVec 6) (s : State) : exec (.srai d a imm) s = execSrai d a imm s := rfl
@[simp] theorem exec_slti (d : BitVec 7) (a : BitVec 7) (imm : BitVec 12) (s : State) : exec (.slti d a imm) s = execSlti d a imm s := rfl
@[simp] theorem exec_lih (d : BitVec 7) (imm : BitVec 19) (s : State) : exec (.lih d imm) s = execLih d imm s := rfl
@[simp] theorem exec_auip (d : BitVec 7) (imm : BitVec 19) (s : State) : exec (.auip d imm) s = execAuip d imm s := rfl
@[simp] theorem exec_jal (imm : BitVec 26) (s : State) : exec (.jal imm) s = execJal imm s := rfl
@[simp] theorem exec_jalr (d : BitVec 7) (a : BitVec 7) (imm : BitVec 12) (s : State) : exec (.jalr d a imm) s = execJalr d a imm s := rfl
@[simp] theorem exec_beq (hi : BitVec 7) (a : BitVec 7) (b : BitVec 7) (lo : BitVec 5) (s : State) : exec (.beq hi a b lo) s = execBeq hi a b lo s := rfl
@[simp] theorem exec_bne (hi : BitVec 7) (a : BitVec 7) (b : BitVec 7) (lo : BitVec 5) (s : State) : exec (.bne hi a b lo) s = execBne hi a b lo s := rfl
@[simp] theorem exec_blt (hi : BitVec 7) (a : BitVec 7) (b : BitVec 7) (lo : BitVec 5) (s : State) : exec (.blt hi a b lo) s = execBlt hi a b lo s := rfl
@[simp] theorem exec_bge (hi : BitVec 7) (a : BitVec 7) (b : BitVec 7) (lo : BitVec 5) (s : State) : exec (.bge hi a b lo) s = execBge hi a b lo s := rfl
@[simp] theorem exec_bltn (hi : BitVec 7) (a : BitVec 7) (b : BitVec 7) (lo : BitVec 5) (s : State) : exec (.bltn hi a b lo) s = execBltn hi a b lo s := rfl
@[simp] theorem exec_bgen (hi : BitVec 7) (a : BitVec 7) (b : BitVec 7) (lo : BitVec 5) (s : State) : exec (.bgen hi a b lo) s = execBgen hi a b lo s := rfl
@[simp] theorem exec_lb (d : BitVec 7) (a : BitVec 7) (imm : BitVec 9) (s : State) : exec (.lb d a imm) s = execLb d a imm s := rfl
@[simp] theorem exec_lh (d : BitVec 7) (a : BitVec 7) (imm : BitVec 9) (s : State) : exec (.lh d a imm) s = execLh d a imm s := rfl
@[simp] theorem exec_lw (d : BitVec 7) (a : BitVec 7) (imm : BitVec 9) (s : State) : exec (.lw d a imm) s = execLw d a imm s := rfl
@[simp] theorem exec_ld (d : BitVec 7) (a : BitVec 7) (imm : BitVec 9) (s : State) : exec (.ld d a imm) s = execLd d a imm s := rfl
@[simp] theorem exec_lbz (d : BitVec 7) (a : BitVec 7) (imm : BitVec 9) (s : State) : exec (.lbz d a imm) s = execLbz d a imm s := rfl
@[simp] theorem exec_lhz (d : BitVec 7) (a : BitVec 7) (imm : BitVec 9) (s : State) : exec (.lhz d a imm) s = execLhz d a imm s := rfl
@[simp] theorem exec_lwz (d : BitVec 7) (a : BitVec 7) (imm : BitVec 9) (s : State) : exec (.lwz d a imm) s = execLwz d a imm s := rfl
@[simp] theorem exec_sb (d : BitVec 7) (a : BitVec 7) (imm : BitVec 9) (s : State) : exec (.sb d a imm) s = execSb d a imm s := rfl
@[simp] theorem exec_sh (d : BitVec 7) (a : BitVec 7) (imm : BitVec 9) (s : State) : exec (.sh d a imm) s = execSh d a imm s := rfl
@[simp] theorem exec_sw (d : BitVec 7) (a : BitVec 7) (imm : BitVec 9) (s : State) : exec (.sw d a imm) s = execSw d a imm s := rfl
@[simp] theorem exec_sd (d : BitVec 7) (a : BitVec 7) (imm : BitVec 9) (s : State) : exec (.sd d a imm) s = execSd d a imm s := rfl
@[simp] theorem exec_aadd (d : BitVec 7) (a : BitVec 7) (b : BitVec 7) (s : State) : exec (.aadd d a b) s = execAadd d a b s := rfl
@[simp] theorem exec_aswap (d : BitVec 7) (a : BitVec 7) (b : BitVec 7) (s : State) : exec (.aswap d a b) s = execAswap d a b s := rfl
@[simp] theorem exec_aand (d : BitVec 7) (a : BitVec 7) (b : BitVec 7) (s : State) : exec (.aand d a b) s = execAand d a b s := rfl
@[simp] theorem exec_aor (d : BitVec 7) (a : BitVec 7) (b : BitVec 7) (s : State) : exec (.aor d a b) s = execAor d a b s := rfl
@[simp] theorem exec_axor (d : BitVec 7) (a : BitVec 7) (b : BitVec 7) (s : State) : exec (.axor d a b) s = execAxor d a b s := rfl
@[simp] theorem exec_amin (d : BitVec 7) (a : BitVec 7) (b : BitVec 7) (s : State) : exec (.amin d a b) s = execAmin d a b s := rfl
@[simp] theorem exec_amax (d : BitVec 7) (a : BitVec 7) (b : BitVec 7) (s : State) : exec (.amax d a b) s = execAmax d a b s := rfl
@[simp] theorem exec_aminn (d : BitVec 7) (a : BitVec 7) (b : BitVec 7) (s : State) : exec (.aminn d a b) s = execAminn d a b s := rfl
@[simp] theorem exec_amaxn (d : BitVec 7) (a : BitVec 7) (b : BitVec 7) (s : State) : exec (.amaxn d a b) s = execAmaxn d a b s := rfl
@[simp] theorem exec_acas (d : BitVec 7) (a : BitVec 7) (b : BitVec 7) (s : State) : exec (.acas d a b) s = execAcas d a b s := rfl
@[simp] theorem exec_aaddw (d : BitVec 7) (a : BitVec 7) (b : BitVec 7) (s : State) : exec (.aaddw d a b) s = execAaddw d a b s := rfl
@[simp] theorem exec_aswapw (d : BitVec 7) (a : BitVec 7) (b : BitVec 7) (s : State) : exec (.aswapw d a b) s = execAswapw d a b s := rfl
@[simp] theorem exec_aandw (d : BitVec 7) (a : BitVec 7) (b : BitVec 7) (s : State) : exec (.aandw d a b) s = execAandw d a b s := rfl
@[simp] theorem exec_aorw (d : BitVec 7) (a : BitVec 7) (b : BitVec 7) (s : State) : exec (.aorw d a b) s = execAorw d a b s := rfl
@[simp] theorem exec_axorw (d : BitVec 7) (a : BitVec 7) (b : BitVec 7) (s : State) : exec (.axorw d a b) s = execAxorw d a b s := rfl
@[simp] theorem exec_aminw (d : BitVec 7) (a : BitVec 7) (b : BitVec 7) (s : State) : exec (.aminw d a b) s = execAminw d a b s := rfl
@[simp] theorem exec_amaxw (d : BitVec 7) (a : BitVec 7) (b : BitVec 7) (s : State) : exec (.amaxw d a b) s = execAmaxw d a b s := rfl
@[simp] theorem exec_aminnw (d : BitVec 7) (a : BitVec 7) (b : BitVec 7) (s : State) : exec (.aminnw d a b) s = execAminnw d a b s := rfl
@[simp] theorem exec_amaxnw (d : BitVec 7) (a : BitVec 7) (b : BitVec 7) (s : State) : exec (.amaxnw d a b) s = execAmaxnw d a b s := rfl
@[simp] theorem exec_acasw (d : BitVec 7) (a : BitVec 7) (b : BitVec 7) (s : State) : exec (.acasw d a b) s = execAcasw d a b s := rfl
@[simp] theorem exec_afadd (d : BitVec 7) (a : BitVec 7) (b : BitVec 7) (s : State) : exec (.afadd d a b) s = execAfadd d a b s := rfl
@[simp] theorem exec_sbind (d : BitVec 7) (a : BitVec 7) (b : BitVec 7) (s : State) : exec (.sbind d a b) s = execSbind d a b s := rfl
@[simp] theorem exec_sunbind (d : BitVec 7) (a : BitVec 7) (b : BitVec 7) (s : State) : exec (.sunbind d a b) s = execSunbind d a b s := rfl
@[simp] theorem exec_sacq (a : BitVec 7) (s : State) : exec (.sacq a) s = execSacq a s := rfl
@[simp] theorem exec_sacqs (a : BitVec 7) (s : State) : exec (.sacqs a) s = execSacqs a s := rfl
@[simp] theorem exec_stry (d : BitVec 7) (a : BitVec 7) (s : State) : exec (.stry d a) s = execStry d a s := rfl
@[simp] theorem exec_srel (a : BitVec 7) (s : State) : exec (.srel a) s = execSrel a s := rfl
@[simp] theorem exec_fence (sc : BitVec 3) (l : BitVec 2) (k : BitVec 2) (s : State) : exec (.fence sc l k) s = execFence sc l k s := rfl
@[simp] theorem exec_waita (d : BitVec 7) (a : BitVec 7) (b : BitVec 7) (s : State) : exec (.waita d a b) s = execWaita d a b s := rfl
@[simp] theorem exec_csrr (d : BitVec 7) (c : BitVec 10) (s : State) : exec (.csrr d c) s = execCsrr d c s := rfl
@[simp] theorem exec_csrw (d : BitVec 7) (a : BitVec 7) (c : BitVec 10) (s : State) : exec (.csrw d a c) s = execCsrw d a c s := rfl
@[simp] theorem exec_csrs (d : BitVec 7) (a : BitVec 7) (c : BitVec 10) (s : State) : exec (.csrs d a c) s = execCsrs d a c s := rfl
@[simp] theorem exec_csrc (d : BitVec 7) (a : BitVec 7) (c : BitVec 10) (s : State) : exec (.csrc d a c) s = execCsrc d a c s := rfl
@[simp] theorem exec_ecall (s : State) : exec (.ecall) s = execEcall s := rfl
@[simp] theorem exec_ebreak (s : State) : exec (.ebreak) s = execEbreak s := rfl
@[simp] theorem exec_eret (s : State) : exec (.eret) s = execEret s := rfl
@[simp] theorem exec_sleep (s : State) : exec (.sleep) s = execSleep s := rfl
@[simp] theorem exec_switch (s : State) : exec (.switch) s = execSwitch s := rfl
@[simp] theorem exec_tlbinv (a : BitVec 7) (b : BitVec 7) (s : State) : exec (.tlbinv a b) s = execTlbinv a b s := rfl
@[simp] theorem exec_icinv (s : State) : exec (.icinv) s = execIcinv s := rfl
@[simp] theorem exec_xprobe (d : BitVec 7) (a : BitVec 7) (s : State) : exec (.xprobe d a) s = execXprobe d a s := rfl
@[simp] theorem exec_aown (s : State) : exec (.aown) s = execAown s := rfl
@[simp] theorem exec_halt (s : State) : exec (.halt) s = execHalt s := rfl
@[simp] theorem exec_fmt (t : BitVec 5) (u : BitVec 5) (v : BitVec 5) (r : BitVec 3) (sat : BitVec 1) (c : BitVec 2) (s : State) : exec (.fmt t u v r sat c) s = execFmt t u v r sat c s := rfl
@[simp] theorem exec_ldl (d : BitVec 7) (a : BitVec 7) (imm : BitVec 10) (s : State) : exec (.ldl d a imm) s = execLdl d a imm s := rfl
@[simp] theorem exec_stl (d : BitVec 7) (a : BitVec 7) (imm : BitVec 10) (s : State) : exec (.stl d a imm) s = execStl d a imm s := rfl
@[simp] theorem exec_ldy (d : BitVec 7) (a : BitVec 7) (imm : BitVec 10) (s : State) : exec (.ldy d a imm) s = execLdy d a imm s := rfl
@[simp] theorem exec_sty (d : BitVec 7) (a : BitVec 7) (imm : BitVec 10) (s : State) : exec (.sty d a imm) s = execSty d a imm s := rfl
@[simp] theorem exec_cpy (d : BitVec 7) (a : BitVec 7) (s : State) : exec (.cpy d a) s = execCpy d a s := rfl
@[simp] theorem exec_cpyw (a : BitVec 7) (b : BitVec 7) (s : State) : exec (.cpyw a b) s = execCpyw a b s := rfl
@[simp] theorem exec_cpyq (d : BitVec 7) (a : BitVec 7) (s : State) : exec (.cpyq d a) s = execCpyq d a s := rfl
@[simp] theorem exec_cpyx (a : BitVec 7) (s : State) : exec (.cpyx a) s = execCpyx a s := rfl
@[simp] theorem exec_nsend (d : BitVec 7) (a : BitVec 7) (b : BitVec 7) (s : State) : exec (.nsend d a b) s = execNsend d a b s := rfl
@[simp] theorem exec_nput (d : BitVec 7) (a : BitVec 7) (b : BitVec 7) (s : State) : exec (.nput d a b) s = execNput d a b s := rfl
@[simp] theorem exec_nrecv (d : BitVec 7) (a : BitVec 7) (s : State) : exec (.nrecv d a) s = execNrecv d a s := rfl
@[simp] theorem exec_npoll (d : BitVec 7) (a : BitVec 7) (s : State) : exec (.npoll d a) s = execNpoll d a s := rfl
@[simp] theorem exec_nfree (a : BitVec 7) (s : State) : exec (.nfree a) s = execNfree a s := rfl
@[simp] theorem exec_nint (a : BitVec 7) (b : BitVec 7) (s : State) : exec (.nint a b) s = execNint a b s := rfl
@[simp] theorem exec_tkspawn (d : BitVec 7) (a : BitVec 7) (s : State) : exec (.tkspawn d a) s = execTkspawn d a s := rfl
@[simp] theorem exec_tkget (d : BitVec 7) (s : State) : exec (.tkget d) s = execTkget d s := rfl
@[simp] theorem exec_tkdone (a : BitVec 7) (s : State) : exec (.tkdone a) s = execTkdone a s := rfl
@[simp] theorem exec_tkarm (a : BitVec 7) (b : BitVec 7) (s : State) : exec (.tkarm a b) s = execTkarm a b s := rfl
@[simp] theorem exec_tkbind (a : BitVec 7) (b : BitVec 7) (s : State) : exec (.tkbind a b) s = execTkbind a b s := rfl
@[simp] theorem exec_tkunbind (a : BitVec 7) (s : State) : exec (.tkunbind a) s = execTkunbind a s := rfl
@[simp] theorem exec_tkdep (a : BitVec 7) (b : BitVec 7) (s : State) : exec (.tkdep a b) s = execTkdep a b s := rfl
@[simp] theorem exec_scfg (d : BitVec 7) (a : BitVec 7) (b : BitVec 7) (s : State) : exec (.scfg d a b) s = execScfg d a b s := rfl
@[simp] theorem exec_sopen (d : BitVec 7) (a : BitVec 7) (s : State) : exec (.sopen d a) s = execSopen d a s := rfl
@[simp] theorem exec_sclose (a : BitVec 7) (s : State) : exec (.sclose a) s = execSclose a s := rfl
@[simp] theorem exec_sstat (d : BitVec 7) (a : BitVec 7) (s : State) : exec (.sstat d a) s = execSstat d a s := rfl
@[simp] theorem exec_vadd (d : BitVec 7) (a : BitVec 7) (b : BitVec 7) (k : BitVec 1) (j : BitVec 1) (p : BitVec 2) (s : State) : exec (.vadd d a b k j p) s = execVadd d a b k j p s := rfl
@[simp] theorem exec_vsub (d : BitVec 7) (a : BitVec 7) (b : BitVec 7) (k : BitVec 1) (j : BitVec 1) (p : BitVec 2) (s : State) : exec (.vsub d a b k j p) s = execVsub d a b k j p s := rfl
@[simp] theorem exec_vadds (d : BitVec 7) (a : BitVec 7) (b : BitVec 7) (k : BitVec 1) (j : BitVec 1) (p : BitVec 2) (s : State) : exec (.vadds d a b k j p) s = execVadds d a b k j p s := rfl
@[simp] theorem exec_vsubs (d : BitVec 7) (a : BitVec 7) (b : BitVec 7) (k : BitVec 1) (j : BitVec 1) (p : BitVec 2) (s : State) : exec (.vsubs d a b k j p) s = execVsubs d a b k j p s := rfl
@[simp] theorem exec_vmul (d : BitVec 7) (a : BitVec 7) (b : BitVec 7) (k : BitVec 1) (j : BitVec 1) (p : BitVec 2) (s : State) : exec (.vmul d a b k j p) s = execVmul d a b k j p s := rfl
@[simp] theorem exec_vmulh (d : BitVec 7) (a : BitVec 7) (b : BitVec 7) (k : BitVec 1) (j : BitVec 1) (p : BitVec 2) (s : State) : exec (.vmulh d a b k j p) s = execVmulh d a b k j p s := rfl
@[simp] theorem exec_vmin (d : BitVec 7) (a : BitVec 7) (b : BitVec 7) (k : BitVec 1) (j : BitVec 1) (p : BitVec 2) (s : State) : exec (.vmin d a b k j p) s = execVmin d a b k j p s := rfl
@[simp] theorem exec_vmax (d : BitVec 7) (a : BitVec 7) (b : BitVec 7) (k : BitVec 1) (j : BitVec 1) (p : BitVec 2) (s : State) : exec (.vmax d a b k j p) s = execVmax d a b k j p s := rfl
@[simp] theorem exec_vminn (d : BitVec 7) (a : BitVec 7) (b : BitVec 7) (k : BitVec 1) (j : BitVec 1) (p : BitVec 2) (s : State) : exec (.vminn d a b k j p) s = execVminn d a b k j p s := rfl
@[simp] theorem exec_vmaxn (d : BitVec 7) (a : BitVec 7) (b : BitVec 7) (k : BitVec 1) (j : BitVec 1) (p : BitVec 2) (s : State) : exec (.vmaxn d a b k j p) s = execVmaxn d a b k j p s := rfl
@[simp] theorem exec_vand (d : BitVec 7) (a : BitVec 7) (b : BitVec 7) (k : BitVec 1) (j : BitVec 1) (p : BitVec 2) (s : State) : exec (.vand d a b k j p) s = execVand d a b k j p s := rfl
@[simp] theorem exec_vor (d : BitVec 7) (a : BitVec 7) (b : BitVec 7) (k : BitVec 1) (j : BitVec 1) (p : BitVec 2) (s : State) : exec (.vor d a b k j p) s = execVor d a b k j p s := rfl
@[simp] theorem exec_vxor (d : BitVec 7) (a : BitVec 7) (b : BitVec 7) (k : BitVec 1) (j : BitVec 1) (p : BitVec 2) (s : State) : exec (.vxor d a b k j p) s = execVxor d a b k j p s := rfl
@[simp] theorem exec_vbool (d : BitVec 7) (a : BitVec 7) (b : BitVec 7) (k : BitVec 1) (j : BitVec 1) (p : BitVec 2) (s : State) : exec (.vbool d a b k j p) s = execVbool d a b k j p s := rfl
@[simp] theorem exec_vsll (d : BitVec 7) (a : BitVec 7) (b : BitVec 7) (k : BitVec 1) (j : BitVec 1) (p : BitVec 2) (s : State) : exec (.vsll d a b k j p) s = execVsll d a b k j p s := rfl
@[simp] theorem exec_vsrl (d : BitVec 7) (a : BitVec 7) (b : BitVec 7) (k : BitVec 1) (j : BitVec 1) (p : BitVec 2) (s : State) : exec (.vsrl d a b k j p) s = execVsrl d a b k j p s := rfl
@[simp] theorem exec_vsra (d : BitVec 7) (a : BitVec 7) (b : BitVec 7) (k : BitVec 1) (j : BitVec 1) (p : BitVec 2) (s : State) : exec (.vsra d a b k j p) s = execVsra d a b k j p s := rfl
@[simp] theorem exec_vmerge (d : BitVec 7) (a : BitVec 7) (b : BitVec 7) (k : BitVec 1) (j : BitVec 1) (s : State) : exec (.vmerge d a b k j) s = execVmerge d a b k j s := rfl
@[simp] theorem exec_vmac (d : BitVec 7) (a : BitVec 7) (b : BitVec 7) (k : BitVec 1) (j : BitVec 1) (p : BitVec 2) (s : State) : exec (.vmac d a b k j p) s = execVmac d a b k j p s := rfl
@[simp] theorem exec_vwmac (d : BitVec 7) (a : BitVec 7) (b : BitVec 7) (k : BitVec 1) (j : BitVec 1) (p : BitVec 2) (s : State) : exec (.vwmac d a b k j p) s = execVwmac d a b k j p s := rfl
@[simp] theorem exec_vdot (d : BitVec 7) (a : BitVec 7) (b : BitVec 7) (k : BitVec 1) (j : BitVec 1) (p : BitVec 2) (s : State) : exec (.vdot d a b k j p) s = execVdot d a b k j p s := rfl
@[simp] theorem exec_vdots (d : BitVec 7) (a : BitVec 7) (b : BitVec 7) (k : BitVec 1) (j : BitVec 1) (p : BitVec 2) (s : State) : exec (.vdots d a b k j p) s = execVdots d a b k j p s := rfl
@[simp] theorem exec_vfadd (d : BitVec 7) (a : BitVec 7) (b : BitVec 7) (k : BitVec 1) (j : BitVec 1) (p : BitVec 2) (s : State) : exec (.vfadd d a b k j p) s = execVfadd d a b k j p s := rfl
@[simp] theorem exec_vfsub (d : BitVec 7) (a : BitVec 7) (b : BitVec 7) (k : BitVec 1) (j : BitVec 1) (p : BitVec 2) (s : State) : exec (.vfsub d a b k j p) s = execVfsub d a b k j p s := rfl
@[simp] theorem exec_vfmul (d : BitVec 7) (a : BitVec 7) (b : BitVec 7) (k : BitVec 1) (j : BitVec 1) (p : BitVec 2) (s : State) : exec (.vfmul d a b k j p) s = execVfmul d a b k j p s := rfl
@[simp] theorem exec_vfma (d : BitVec 7) (a : BitVec 7) (b : BitVec 7) (k : BitVec 1) (j : BitVec 1) (p : BitVec 2) (s : State) : exec (.vfma d a b k j p) s = execVfma d a b k j p s := rfl
@[simp] theorem exec_vfmin (d : BitVec 7) (a : BitVec 7) (b : BitVec 7) (k : BitVec 1) (j : BitVec 1) (p : BitVec 2) (s : State) : exec (.vfmin d a b k j p) s = execVfmin d a b k j p s := rfl
@[simp] theorem exec_vfmax (d : BitVec 7) (a : BitVec 7) (b : BitVec 7) (k : BitVec 1) (j : BitVec 1) (p : BitVec 2) (s : State) : exec (.vfmax d a b k j p) s = execVfmax d a b k j p s := rfl
@[simp] theorem exec_vfdiv (d : BitVec 7) (a : BitVec 7) (b : BitVec 7) (k : BitVec 1) (j : BitVec 1) (p : BitVec 2) (s : State) : exec (.vfdiv d a b k j p) s = execVfdiv d a b k j p s := rfl
@[simp] theorem exec_vfms (d : BitVec 7) (a : BitVec 7) (b : BitVec 7) (k : BitVec 1) (j : BitVec 1) (p : BitVec 2) (s : State) : exec (.vfms d a b k j p) s = execVfms d a b k j p s := rfl
@[simp] theorem exec_vcfle (d : BitVec 7) (a : BitVec 7) (b : BitVec 7) (k : BitVec 1) (j : BitVec 1) (p : BitVec 2) (s : State) : exec (.vcfle d a b k j p) s = execVcfle d a b k j p s := rfl
@[simp] theorem exec_vcfun (d : BitVec 7) (a : BitVec 7) (b : BitVec 7) (k : BitVec 1) (j : BitVec 1) (p : BitVec 2) (s : State) : exec (.vcfun d a b k j p) s = execVcfun d a b k j p s := rfl
@[simp] theorem exec_vceq (d : BitVec 7) (a : BitVec 7) (b : BitVec 7) (k : BitVec 1) (j : BitVec 1) (p : BitVec 2) (s : State) : exec (.vceq d a b k j p) s = execVceq d a b k j p s := rfl
@[simp] theorem exec_vcne (d : BitVec 7) (a : BitVec 7) (b : BitVec 7) (k : BitVec 1) (j : BitVec 1) (p : BitVec 2) (s : State) : exec (.vcne d a b k j p) s = execVcne d a b k j p s := rfl
@[simp] theorem exec_vclt (d : BitVec 7) (a : BitVec 7) (b : BitVec 7) (k : BitVec 1) (j : BitVec 1) (p : BitVec 2) (s : State) : exec (.vclt d a b k j p) s = execVclt d a b k j p s := rfl
@[simp] theorem exec_vcge (d : BitVec 7) (a : BitVec 7) (b : BitVec 7) (k : BitVec 1) (j : BitVec 1) (p : BitVec 2) (s : State) : exec (.vcge d a b k j p) s = execVcge d a b k j p s := rfl
@[simp] theorem exec_vcltn (d : BitVec 7) (a : BitVec 7) (b : BitVec 7) (k : BitVec 1) (j : BitVec 1) (p : BitVec 2) (s : State) : exec (.vcltn d a b k j p) s = execVcltn d a b k j p s := rfl
@[simp] theorem exec_vcgen (d : BitVec 7) (a : BitVec 7) (b : BitVec 7) (k : BitVec 1) (j : BitVec 1) (p : BitVec 2) (s : State) : exec (.vcgen d a b k j p) s = execVcgen d a b k j p s := rfl
@[simp] theorem exec_vcfeq (d : BitVec 7) (a : BitVec 7) (b : BitVec 7) (k : BitVec 1) (j : BitVec 1) (p : BitVec 2) (s : State) : exec (.vcfeq d a b k j p) s = execVcfeq d a b k j p s := rfl
@[simp] theorem exec_vcflt (d : BitVec 7) (a : BitVec 7) (b : BitVec 7) (k : BitVec 1) (j : BitVec 1) (p : BitVec 2) (s : State) : exec (.vcflt d a b k j p) s = execVcflt d a b k j p s := rfl
@[simp] theorem exec_vmov (d : BitVec 7) (a : BitVec 7) (k : BitVec 1) (p : BitVec 2) (s : State) : exec (.vmov d a k p) s = execVmov d a k p s := rfl
@[simp] theorem exec_vnot (d : BitVec 7) (a : BitVec 7) (k : BitVec 1) (p : BitVec 2) (s : State) : exec (.vnot d a k p) s = execVnot d a k p s := rfl
@[simp] theorem exec_vneg (d : BitVec 7) (a : BitVec 7) (k : BitVec 1) (p : BitVec 2) (s : State) : exec (.vneg d a k p) s = execVneg d a k p s := rfl
@[simp] theorem exec_vabs (d : BitVec 7) (a : BitVec 7) (k : BitVec 1) (p : BitVec 2) (s : State) : exec (.vabs d a k p) s = execVabs d a k p s := rfl
@[simp] theorem exec_vfneg (d : BitVec 7) (a : BitVec 7) (k : BitVec 1) (p : BitVec 2) (s : State) : exec (.vfneg d a k p) s = execVfneg d a k p s := rfl
@[simp] theorem exec_vfabs (d : BitVec 7) (a : BitVec 7) (k : BitVec 1) (p : BitVec 2) (s : State) : exec (.vfabs d a k p) s = execVfabs d a k p s := rfl
@[simp] theorem exec_vfsqrt (d : BitVec 7) (a : BitVec 7) (k : BitVec 1) (p : BitVec 2) (s : State) : exec (.vfsqrt d a k p) s = execVfsqrt d a k p s := rfl
@[simp] theorem exec_vexp2 (d : BitVec 7) (a : BitVec 7) (k : BitVec 1) (p : BitVec 2) (s : State) : exec (.vexp2 d a k p) s = execVexp2 d a k p s := rfl
@[simp] theorem exec_vlog2 (d : BitVec 7) (a : BitVec 7) (k : BitVec 1) (p : BitVec 2) (s : State) : exec (.vlog2 d a k p) s = execVlog2 d a k p s := rfl
@[simp] theorem exec_vrcp (d : BitVec 7) (a : BitVec 7) (k : BitVec 1) (p : BitVec 2) (s : State) : exec (.vrcp d a k p) s = execVrcp d a k p s := rfl
@[simp] theorem exec_vrsqrt (d : BitVec 7) (a : BitVec 7) (k : BitVec 1) (p : BitVec 2) (s : State) : exec (.vrsqrt d a k p) s = execVrsqrt d a k p s := rfl
@[simp] theorem exec_vcvt (d : BitVec 7) (a : BitVec 7) (k : BitVec 1) (p : BitVec 2) (s : State) : exec (.vcvt d a k p) s = execVcvt d a k p s := rfl
@[simp] theorem exec_vclz (d : BitVec 7) (a : BitVec 7) (k : BitVec 1) (p : BitVec 2) (s : State) : exec (.vclz d a k p) s = execVclz d a k p s := rfl
@[simp] theorem exec_vpopc (d : BitVec 7) (a : BitVec 7) (k : BitVec 1) (p : BitVec 2) (s : State) : exec (.vpopc d a k p) s = execVpopc d a k p s := rfl
@[simp] theorem exec_vsearch (d : BitVec 7) (a : BitVec 7) (k : BitVec 1) (p : BitVec 2) (s : State) : exec (.vsearch d a k p) s = execVsearch d a k p s := rfl
@[simp] theorem exec_vkwrite (d : BitVec 7) (a : BitVec 7) (k : BitVec 1) (p : BitVec 1) (s : State) : exec (.vkwrite d a k p) s = execVkwrite d a k p s := rfl
@[simp] theorem exec_vcompress (d : BitVec 7) (a : BitVec 7) (s : State) : exec (.vcompress d a) s = execVcompress d a s := rfl
@[simp] theorem exec_vexpand (d : BitVec 7) (a : BitVec 7) (s : State) : exec (.vexpand d a) s = execVexpand d a s := rfl
@[simp] theorem exec_vrev (d : BitVec 7) (a : BitVec 7) (p : BitVec 2) (s : State) : exec (.vrev d a p) s = execVrev d a p s := rfl
@[simp] theorem exec_viota (d : BitVec 7) (a : BitVec 7) (p : BitVec 2) (s : State) : exec (.viota d a p) s = execViota d a p s := rfl
@[simp] theorem exec_vbcast (d : BitVec 7) (x : BitVec 7) (s : State) : exec (.vbcast d x) s = execVbcast d x s := rfl
@[simp] theorem exec_vextr (d : BitVec 7) (r : BitVec 7) (x : BitVec 7) (s : State) : exec (.vextr d r x) s = execVextr d r x s := rfl
@[simp] theorem exec_vinsr (d : BitVec 7) (r : BitVec 7) (x : BitVec 7) (s : State) : exec (.vinsr d r x) s = execVinsr d r x s := rfl
@[simp] theorem exec_vslli (d : BitVec 7) (r : BitVec 7) (n : BitVec 7) (s : State) : exec (.vslli d r n) s = execVslli d r n s := rfl
@[simp] theorem exec_vsrli (d : BitVec 7) (r : BitVec 7) (n : BitVec 7) (s : State) : exec (.vsrli d r n) s = execVsrli d r n s := rfl
@[simp] theorem exec_vsrai (d : BitVec 7) (r : BitVec 7) (n : BitVec 7) (s : State) : exec (.vsrai d r n) s = execVsrai d r n s := rfl
@[simp] theorem exec_vaddi (d : BitVec 7) (r : BitVec 7) (n : BitVec 7) (s : State) : exec (.vaddi d r n) s = execVaddi d r n s := rfl
@[simp] theorem exec_vslideup (d : BitVec 7) (r : BitVec 7) (x : BitVec 7) (s : State) : exec (.vslideup d r x) s = execVslideup d r x s := rfl
@[simp] theorem exec_vslidedn (d : BitVec 7) (r : BitVec 7) (x : BitVec 7) (s : State) : exec (.vslidedn d r x) s = execVslidedn d r x s := rfl
@[simp] theorem exec_vredsum (d : BitVec 7) (r : BitVec 7) (s : State) : exec (.vredsum d r) s = execVredsum d r s := rfl
@[simp] theorem exec_vredmin (d : BitVec 7) (r : BitVec 7) (s : State) : exec (.vredmin d r) s = execVredmin d r s := rfl
@[simp] theorem exec_vredmax (d : BitVec 7) (r : BitVec 7) (s : State) : exec (.vredmax d r) s = execVredmax d r s := rfl
@[simp] theorem exec_vredand (d : BitVec 7) (r : BitVec 7) (s : State) : exec (.vredand d r) s = execVredand d r s := rfl
@[simp] theorem exec_vredor (d : BitVec 7) (r : BitVec 7) (s : State) : exec (.vredor d r) s = execVredor d r s := rfl
@[simp] theorem exec_vredxor (d : BitVec 7) (r : BitVec 7) (s : State) : exec (.vredxor d r) s = execVredxor d r s := rfl
@[simp] theorem exec_vfredsum (d : BitVec 7) (r : BitVec 7) (x : BitVec 7) (s : State) : exec (.vfredsum d r x) s = execVfredsum d r x s := rfl
@[simp] theorem exec_vfredmax (d : BitVec 7) (r : BitVec 7) (s : State) : exec (.vfredmax d r) s = execVfredmax d r s := rfl
@[simp] theorem exec_vfredmin (d : BitVec 7) (r : BitVec 7) (s : State) : exec (.vfredmin d r) s = execVfredmin d r s := rfl
@[simp] theorem exec_vsegsum (d : BitVec 7) (r : BitVec 7) (x : BitVec 7) (s : State) : exec (.vsegsum d r x) s = execVsegsum d r x s := rfl
@[simp] theorem exec_vmpopc (d : BitVec 7) (r : BitVec 7) (s : State) : exec (.vmpopc d r) s = execVmpopc d r s := rfl
@[simp] theorem exec_vmfirst (d : BitVec 7) (r : BitVec 7) (s : State) : exec (.vmfirst d r) s = execVmfirst d r s := rfl
@[simp] theorem exec_vbcastMd (d : BitVec 7) (x : BitVec 7) (s : State) : exec (.vbcastMd d x) s = execVbcastMd d x s := rfl
@[simp] theorem exec_vslliMd (d : BitVec 7) (r : BitVec 7) (n : BitVec 7) (s : State) : exec (.vslliMd d r n) s = execVslliMd d r n s := rfl
@[simp] theorem exec_vsrliMd (d : BitVec 7) (r : BitVec 7) (n : BitVec 7) (s : State) : exec (.vsrliMd d r n) s = execVsrliMd d r n s := rfl
@[simp] theorem exec_vsraiMd (d : BitVec 7) (r : BitVec 7) (n : BitVec 7) (s : State) : exec (.vsraiMd d r n) s = execVsraiMd d r n s := rfl
@[simp] theorem exec_vaddiMd (d : BitVec 7) (r : BitVec 7) (n : BitVec 7) (s : State) : exec (.vaddiMd d r n) s = execVaddiMd d r n s := rfl
@[simp] theorem exec_vslideupMd (d : BitVec 7) (r : BitVec 7) (x : BitVec 7) (s : State) : exec (.vslideupMd d r x) s = execVslideupMd d r x s := rfl
@[simp] theorem exec_vslidednMd (d : BitVec 7) (r : BitVec 7) (x : BitVec 7) (s : State) : exec (.vslidednMd d r x) s = execVslidednMd d r x s := rfl
@[simp] theorem exec_vredsumMd (d : BitVec 7) (r : BitVec 7) (s : State) : exec (.vredsumMd d r) s = execVredsumMd d r s := rfl
@[simp] theorem exec_vredminMd (d : BitVec 7) (r : BitVec 7) (s : State) : exec (.vredminMd d r) s = execVredminMd d r s := rfl
@[simp] theorem exec_vredmaxMd (d : BitVec 7) (r : BitVec 7) (s : State) : exec (.vredmaxMd d r) s = execVredmaxMd d r s := rfl
@[simp] theorem exec_vredandMd (d : BitVec 7) (r : BitVec 7) (s : State) : exec (.vredandMd d r) s = execVredandMd d r s := rfl
@[simp] theorem exec_vredorMd (d : BitVec 7) (r : BitVec 7) (s : State) : exec (.vredorMd d r) s = execVredorMd d r s := rfl
@[simp] theorem exec_vredxorMd (d : BitVec 7) (r : BitVec 7) (s : State) : exec (.vredxorMd d r) s = execVredxorMd d r s := rfl
@[simp] theorem exec_vfredsumMd (d : BitVec 7) (r : BitVec 7) (x : BitVec 7) (s : State) : exec (.vfredsumMd d r x) s = execVfredsumMd d r x s := rfl
@[simp] theorem exec_vfredmaxMd (d : BitVec 7) (r : BitVec 7) (s : State) : exec (.vfredmaxMd d r) s = execVfredmaxMd d r s := rfl
@[simp] theorem exec_vfredminMd (d : BitVec 7) (r : BitVec 7) (s : State) : exec (.vfredminMd d r) s = execVfredminMd d r s := rfl
@[simp] theorem exec_vsegsumMd (d : BitVec 7) (r : BitVec 7) (x : BitVec 7) (s : State) : exec (.vsegsumMd d r x) s = execVsegsumMd d r x s := rfl
@[simp] theorem exec_vmpopcMd (d : BitVec 7) (r : BitVec 7) (s : State) : exec (.vmpopcMd d r) s = execVmpopcMd d r s := rfl
@[simp] theorem exec_vmfirstMd (d : BitVec 7) (r : BitVec 7) (s : State) : exec (.vmfirstMd d r) s = execVmfirstMd d r s := rfl
@[simp] theorem exec_vld (d : BitVec 7) (b : BitVec 7) (p : BitVec 2) (s : State) : exec (.vld d b p) s = execVld d b p s := rfl
@[simp] theorem exec_vlds (d : BitVec 7) (b : BitVec 7) (r : BitVec 7) (p : BitVec 2) (s : State) : exec (.vlds d b r p) s = execVlds d b r p s := rfl
@[simp] theorem exec_vldx (d : BitVec 7) (b : BitVec 7) (x : BitVec 7) (p : BitVec 2) (s : State) : exec (.vldx d b x p) s = execVldx d b x p s := rfl
@[simp] theorem exec_vldl (d : BitVec 7) (b : BitVec 7) (p : BitVec 2) (s : State) : exec (.vldl d b p) s = execVldl d b p s := rfl
@[simp] theorem exec_vldy (d : BitVec 7) (b : BitVec 7) (p : BitVec 2) (s : State) : exec (.vldy d b p) s = execVldy d b p s := rfl
@[simp] theorem exec_vldys (d : BitVec 7) (b : BitVec 7) (r : BitVec 7) (p : BitVec 2) (s : State) : exec (.vldys d b r p) s = execVldys d b r p s := rfl
@[simp] theorem exec_vldff (d : BitVec 7) (b : BitVec 7) (p : BitVec 2) (s : State) : exec (.vldff d b p) s = execVldff d b p s := rfl
@[simp] theorem exec_vst (d : BitVec 7) (b : BitVec 7) (p : BitVec 2) (s : State) : exec (.vst d b p) s = execVst d b p s := rfl
@[simp] theorem exec_vsts (d : BitVec 7) (b : BitVec 7) (r : BitVec 7) (p : BitVec 2) (s : State) : exec (.vsts d b r p) s = execVsts d b r p s := rfl
@[simp] theorem exec_vstx (d : BitVec 7) (b : BitVec 7) (x : BitVec 7) (p : BitVec 2) (s : State) : exec (.vstx d b x p) s = execVstx d b x p s := rfl
@[simp] theorem exec_vstl (d : BitVec 7) (b : BitVec 7) (p : BitVec 2) (s : State) : exec (.vstl d b p) s = execVstl d b p s := rfl
@[simp] theorem exec_vsty (d : BitVec 7) (b : BitVec 7) (p : BitVec 2) (s : State) : exec (.vsty d b p) s = execVsty d b p s := rfl
@[simp] theorem exec_vstys (d : BitVec 7) (b : BitVec 7) (r : BitVec 7) (p : BitVec 2) (s : State) : exec (.vstys d b r p) s = execVstys d b r p s := rfl
@[simp] theorem exec_waitv (d : BitVec 7) (a : BitVec 7) (b : BitVec 7) (k : BitVec 1) (s : State) : exec (.waitv d a b k) s = execWaitv d a b k s := rfl
@[simp] theorem exec_vstr (d : BitVec 7) (a : BitVec 7) (b : BitVec 7) (p : BitVec 2) (s : State) : exec (.vstr d a b p) s = execVstr d a b p s := rfl
@[simp] theorem exec_ashape (d : BitVec 7) (a : BitVec 7) (b : BitVec 7) (s : State) : exec (.ashape d a b) s = execAshape d a b s := rfl
@[simp] theorem exec_await (s : State) : exec (.await) s = execAwait s := rfl
@[simp] theorem exec_arole (d : BitVec 7) (a : BitVec 7) (b : BitVec 7) (s : State) : exec (.arole d a b) s = execArole d a b s := rfl
@[simp] theorem exec_aflush (a : BitVec 7) (b : BitVec 7) (s : State) : exec (.aflush a b) s = execAflush a b s := rfl
@[simp] theorem exec_aclr (s : State) : exec (.aclr) s = execAclr s := rfl
@[simp] theorem exec_ainval (a : BitVec 7) (b : BitVec 7) (s : State) : exec (.ainval a b) s = execAinval a b s := rfl
@[simp] theorem exec_mbegin (a : BitVec 7) (s : State) : exec (.mbegin a) s = execMbegin a s := rfl
@[simp] theorem exec_mend (s : State) : exec (.mend) s = execMend s := rfl
@[simp] theorem exec_msplit (a : BitVec 7) (b : BitVec 7) (s : State) : exec (.msplit a b) s = execMsplit a b s := rfl
@[simp] theorem exec_mjoin (d : BitVec 7) (a : BitVec 7) (s : State) : exec (.mjoin d a) s = execMjoin d a s := rfl
@[simp] theorem exec_mstop (s : State) : exec (.mstop) s = execMstop s := rfl
@[simp] theorem exec_mnext (a : BitVec 3) (s : State) : exec (.mnext a) s = execMnext a s := rfl
@[simp] theorem exec_mbr (a : BitVec 3) (b : BitVec 3) (s : State) : exec (.mbr a b) s = execMbr a b s := rfl
@[simp] theorem exec_mlinkr (d : BitVec 3) (l : BitVec 1) (s : State) : exec (.mlinkr d l) s = execMlinkr d l s := rfl
@[simp] theorem exec_mlinkw (s : State) : exec (.mlinkw) s = execMlinkw s := rfl
@[simp] theorem exec_msetm (d : BitVec 7) (a : BitVec 7) (m : BitVec 3) (s : State) : exec (.msetm d a m) s = execMsetm d a m s := rfl
@[simp] theorem exec_mgetm (d : BitVec 7) (a : BitVec 7) (m : BitVec 3) (s : State) : exec (.mgetm d a m) s = execMgetm d a m s := rfl
@[simp] theorem exec_mstat (d : BitVec 7) (a : BitVec 7) (s : State) : exec (.mstat d a) s = execMstat d a s := rfl
@[simp] theorem exec_mreset (a : BitVec 7) (s : State) : exec (.mreset a) s = execMreset a s := rfl
@[simp] theorem exec_tattach (d : BitVec 7) (a : BitVec 7) (s : State) : exec (.tattach d a) s = execTattach d a s := rfl
@[simp] theorem exec_tdetach (s : State) : exec (.tdetach) s = execTdetach s := rfl
@[simp] theorem exec_tmma (t : BitVec 1) (a : BitVec 7) (b : BitVec 7) (s : State) : exec (.tmma t a b) s = execTmma t a b s := rfl
@[simp] theorem exec_tzero (t : BitVec 1) (s : State) : exec (.tzero t) s = execTzero t s := rfl
@[simp] theorem exec_tread (d : BitVec 7) (t : BitVec 1) (b : BitVec 7) (s : State) : exec (.tread d t b) s = execTread d t b s := rfl
@[simp] theorem exec_tload (t : BitVec 1) (a : BitVec 7) (b : BitVec 7) (s : State) : exec (.tload t a b) s = execTload t a b s := rfl
@[simp] theorem exec_twait (t : BitVec 1) (s : State) : exec (.twait t) s = execTwait t s := rfl

end Sys2Proof.Machine
end

