-- ==== Sys2Proof/Laws/Stores.lean ====
section
/-! SUPPORT. Sparse stores: reads after writes, and the canonical form. -/

namespace Sys2Proof.Machine

variable {α : Type} {d : α}

/-! ### Reads after writes -/

theorem Map.get_put (m : Map α) (k j : Nat) (v : α) : Map.get d (Map.put m k v) j = if j = k then v else Map.get d m j := by
  induction m with
  | nil => simp [Map.put, Map.get]
  | cons e m ih =>
    simp only [Map.put]
    split
    · simp [Map.get]
    · split
      · next he => simp only [Map.get, ← he]; split <;> rfl
      · next he =>
        simp only [Map.get, ih]
        split
        · next hj => rw [if_neg (by omega)]
        · rfl

theorem Map.get_erase (m : Map α) (k j : Nat) :
    Map.get d (m.filter (fun e => decide (e.1 ≠ k))) j = if j = k then d else Map.get d m j := by
  induction m with
  | nil => simp [Map.get]
  | cons e m ih =>
    rw [List.filter_cons]
    split
    · next h => simp only [Map.get, ih]; simp at h; split <;> split <;> simp_all
    · next h => simp at h; simp only [ih, Map.get, h]; split <;> simp_all

variable [DecidableEq α]

/-- A read after a write gives the value written, and a write leaves every other key alone. -/
theorem Map.get_set (m : Map α) (k j : Nat) (v : α) :
    Map.get d (Map.set d m k v) j = if j = k then v else Map.get d m j := by
  unfold Map.set
  split
  · next h => rw [Map.get_erase, h]
  · exact Map.get_put m k j v

/-! ### The canonical form -/

theorem Map.above_mono {m : Map α} {b c : Nat} (w : Map.above d b m = true) (h : c ≤ b) : Map.above d c m = true := by
  cases m with
  | nil => rfl
  | cons e m => simp only [Map.above, Bool.and_eq_true, decide_eq_true_eq] at w ⊢; exact ⟨⟨by omega, w.1.2⟩, w.2⟩

theorem Map.wf_of_above {m : Map α} {b : Nat} (w : Map.above d b m = true) : Map.wf d m = true := by
  cases m with
  | nil => rfl
  | cons e m => simp only [Map.above, Bool.and_eq_true, decide_eq_true_eq] at w; simp [Map.wf, w]

theorem Map.above_put {m : Map α} {b k : Nat} {v : α} (w : Map.above d b m = true) (h : b < k) (n : v ≠ d) :
    Map.above d b (Map.put m k v) = true := by
  induction m generalizing b with
  | nil => simp [Map.put, Map.above, h, n]
  | cons e m ih =>
    simp only [Map.above, Bool.and_eq_true, decide_eq_true_eq] at w
    simp only [Map.put]
    split
    · next hk => simp [Map.above, h, n, hk, w]
    · split
      · next he => subst he; simp [Map.above, h, n, w]
      · next hk he => simp [Map.above, w]; exact ih w.2 (by omega)

theorem Map.wf_put {m : Map α} {k : Nat} {v : α} (w : Map.wf d m = true) (n : v ≠ d) : Map.wf d (Map.put m k v) = true := by
  cases m with
  | nil => simp [Map.put, Map.wf, Map.above, n]
  | cons e m =>
    simp only [Map.wf, Bool.and_eq_true, decide_eq_true_eq] at w
    simp only [Map.put]
    split
    · next hk => simp [Map.wf, Map.above, n, hk, w]
    · split
      · next he => subst he; simp [Map.wf, n, w]
      · next hk he => simp [Map.wf, w]; exact Map.above_put w.2 (by omega) n

/-- What is filtered from a canonical store is canonical. -/
theorem Map.above_filter {m : Map α} {b : Nat} (p : Nat × α → Bool) (w : Map.above d b m = true) :
    Map.above d b (m.filter p) = true := by
  induction m generalizing b with
  | nil => rfl
  | cons e m ih =>
    simp only [Map.above, Bool.and_eq_true, decide_eq_true_eq] at w
    rw [List.filter_cons]
    split
    · simp [Map.above, w.1.1, w.1.2, ih w.2]
    · exact ih (Map.above_mono w.2 (by omega))

theorem Map.wf_filter {m : Map α} (p : Nat × α → Bool) (w : Map.wf d m = true) : Map.wf d (m.filter p) = true := by
  cases m with
  | nil => rfl
  | cons e m =>
    simp only [Map.wf, Bool.and_eq_true, decide_eq_true_eq] at w
    rw [List.filter_cons]
    split
    · simp [Map.wf, w.1, Map.above_filter p w.2]
    · exact Map.wf_of_above (Map.above_filter p w.2)

/-- A write keeps the canonical form. -/
theorem Map.wf_set {m : Map α} (k : Nat) (v : α) (w : Map.wf d m = true) : Map.wf d (Map.set d m k v) = true := by
  unfold Map.set
  split
  · exact Map.wf_filter _ w
  · next n => exact Map.wf_put w n

/-- Clearing a range keeps the canonical form. -/
theorem Map.wf_clear {m : Map α} (lo n : Nat) (w : Map.wf d m = true) : Map.wf d (Map.clear m lo n) = true :=
  Map.wf_filter _ w

/-! ### Stores of words and bytes -/

theorem Store.get_set {w : Nat} (m : Store w) (k j : Nat) (v : BitVec w) :
    Store.get (Store.set m k v) j = if j = k then v else Store.get m j := Map.get_set m k j v

theorem Store.wf_set {w : Nat} {m : Store w} (k : Nat) (v : BitVec w) (h : Store.wf m = true) :
    Store.wf (Store.set m k v) = true := Map.wf_set k v h

theorem Memory.byte_setByte (m : Memory) (a b : Nat) (v : Byte) :
    Memory.byte (Memory.setByte m a v) b = if b = a then v else Memory.byte m b := Store.get_set m a b v

theorem Memory.wf_setByte {m : Memory} (a : Nat) (v : Byte) (h : Memory.wf m = true) :
    Memory.wf (Memory.setByte m a v) = true := Store.wf_set a v h

/-- A store of n bytes keeps the canonical form. -/
theorem Memory.wf_store {m : Memory} (a n v : Nat) (h : Memory.wf m = true) : Memory.wf (Memory.store m a n v) = true := by
  induction n generalizing m a v with
  | zero => exact h
  | succ n ih => exact ih _ _ (Memory.wf_setByte _ _ h)

/-- The bytes after a store: those stored, and every other as before. -/
theorem Memory.byte_store (m : Memory) (a n v b : Nat) :
    Memory.byte (Memory.store m a n v) b =
      if a ≤ b ∧ b < a + n then BitVec.ofNat 8 (v / 256 ^ (b - a)) else Memory.byte m b := by
  induction n generalizing m a v with
  | zero => rw [if_neg (by omega)]; rfl
  | succ n ih =>
    rw [Memory.store, ih, Memory.byte_setByte]
    by_cases h : a + 1 ≤ b ∧ b < a + 1 + n
    · rw [if_pos h, if_pos (by omega), Nat.div_div_eq_div_mul, ← Nat.pow_succ', show (b - (a + 1)).succ = b - a by omega]
    · rw [if_neg h]
      by_cases e : b = a
      · subst e; rw [if_pos rfl, if_pos (by omega)]; simp
      · rw [if_neg e, if_neg (by omega)]

/-- A load reads the bytes it covers and no others. -/
theorem Memory.load_congr {m m' : Memory} (a n : Nat) (h : ∀ b, a ≤ b → b < a + n → Memory.byte m b = Memory.byte m' b) :
    Memory.load m a n = Memory.load m' a n := by
  induction n generalizing a with
  | zero => rfl
  | succ n ih =>
    rw [Memory.load, Memory.load, h a (by omega) (by omega), ih (a + 1) (fun b h1 h2 => h b (by omega) (by omega))]

/-- A load after a store of the same bytes gives the value stored. -/
theorem Memory.load_store (m : Memory) (a n v : Nat) : Memory.load (Memory.store m a n v) a n = v % 256 ^ n := by
  induction n generalizing m a v with
  | zero => simp [Memory.load, Nat.mod_one]
  | succ n ih =>
    rw [Memory.store, Memory.load, ih, Memory.byte_store, if_neg (by omega), Memory.byte_setByte, if_pos rfl, Nat.pow_succ',
      Nat.mod_mul]
    simp

/-- A load below 256^n. -/
theorem Memory.load_lt (m : Memory) (a n : Nat) : Memory.load m a n < 256 ^ n := by
  induction n generalizing a with
  | zero => simp [Memory.load]
  | succ n ih =>
    have h1 := ih (a + 1)
    have h2 := (Memory.byte m a).isLt
    rw [Memory.load, Nat.pow_succ']
    omega

end Sys2Proof.Machine
end

