-- ==== Sys2Proof/Laws/Memory.lean ====
section
/-! SUPPORT. Every operation that writes a memory keeps its canonical form, and says which bytes it changes. -/

namespace Sys2Proof.Machine

/-! ### Bytes at offsets (R293) -/

theorem wf_writeBytes {m : Memory} (a : Nat) (bs : List (Nat × Byte)) (h : Memory.wf m = true) :
    Memory.wf (writeBytes m a bs) = true := by
  induction bs generalizing m with
  | nil => exact h
  | cons b bs ih => exact ih (Memory.wf_setByte _ _ h)

theorem byte_writeBytes_other (m : Memory) (a x : Nat) (bs : List (Nat × Byte)) (h : ∀ b ∈ bs, x ≠ a + b.1) :
    Memory.byte (writeBytes m a bs) x = Memory.byte m x := by
  induction bs generalizing m with
  | nil => rfl
  | cons b bs ih =>
    obtain ⟨o, v⟩ := b
    simp only [writeBytes]
    rw [ih _ (fun b hb => h b (List.mem_cons_of_mem _ hb)), Memory.byte_setByte, if_neg (h _ (List.mem_cons_self ..))]

/-! ### Rows of the array (R157, R158) -/

theorem wf_putColumn {m : Memory} (way col row n v : Nat) (h : Memory.wf m = true) :
    Memory.wf (putColumn m way col row n v) = true := by
  induction n generalizing m row v with
  | zero => exact h
  | succ n ih => exact ih _ _ (Memory.wf_setByte _ _ h)

theorem ArrCtx.wf_put {m : Memory} (c : ArrCtx) (g regs e v : Nat) (h : Memory.wf m = true) :
    Memory.wf (c.put m g regs e v) = true := by
  unfold ArrCtx.put
  split
  · exact wf_putColumn _ _ _ _ _ h
  · exact h

theorem wf_foldl_setByte {α : Type} {m : Memory} (l : List α) (k : α → Nat) (v : α → Byte) (h : Memory.wf m = true) :
    Memory.wf (l.foldl (fun m e => Memory.setByte m (k e) (v e)) m) = true := by
  induction l generalizing m with
  | nil => exact h
  | cons x l ih => exact ih (Memory.wf_setByte _ _ h)

theorem State.wf_scratchPut (s : State) (layer : Bool) (o n v : Nat) (h : Memory.wf s.core.sram = true) :
    Memory.wf (s.scratchPut layer o n v) = true := wf_foldl_setByte _ _ _ h

theorem Memory.wf_clear {m : Memory} (lo n : Nat) (h : Memory.wf m = true) : Memory.wf (Map.clear m lo n) = true :=
  Map.wf_clear (d := (0 : BitVec 8)) lo n h

/-! ### Ranges replaced at once (R155, R487) -/

theorem above_rising (a : Nat) (m : Memory) : ∀ b, b < a → Map.above (0 : BitVec 8) b (rising a m) = true := by
  induction m generalizing a with
  | nil => intro b _; rfl
  | cons c m ih =>
    intro b hb
    simp only [rising]
    split
    · next h => simp only [Map.above, Bool.and_eq_true, decide_eq_true_eq]
                exact ⟨⟨by omega, h.2⟩, ih _ _ (by omega)⟩
    · exact ih a b hb

theorem wf_rising (a : Nat) (m : Memory) : Memory.wf (rising a m) = true := by
  induction m generalizing a with
  | nil => rfl
  | cons c m ih =>
    simp only [rising]
    split
    · next h => simp only [Memory.wf, Store.wf, Map.wf, Bool.and_eq_true, decide_eq_true_eq]
                exact ⟨h.2, above_rising _ _ _ (by omega)⟩
    · exact ih a

theorem above_append {b c : Nat} {x y : Map (BitVec 8)} (hx : Map.above 0 b x = true) (hl : ∀ e ∈ x, e.1 < c)
    (hb : b < c) (hy : ∀ k, k < c → Map.above 0 k y = true) : Map.above 0 b (x ++ y) = true := by
  induction x generalizing b with
  | nil => exact hy b hb
  | cons e x ih =>
    simp only [List.cons_append, Map.above, Bool.and_eq_true] at hx ⊢
    exact ⟨hx.1, ih hx.2 (fun e he => hl e (List.mem_cons_of_mem _ he)) (hl e (List.mem_cons_self ..))⟩

theorem wf_append {c : Nat} {x y : Map (BitVec 8)} (hx : Map.wf 0 x = true) (hl : ∀ e ∈ x, e.1 < c)
    (hy : ∀ k, k < c → Map.above 0 k y = true) (wy : Map.wf 0 y = true) : Map.wf 0 (x ++ y) = true := by
  cases x with
  | nil => exact wy
  | cons e x =>
    simp only [List.cons_append, Map.wf, Bool.and_eq_true] at hx ⊢
    exact ⟨hx.1, above_append hx.2 (fun e he => hl e (List.mem_cons_of_mem _ he)) (hl e (List.mem_cons_self ..)) hy⟩

theorem above_of_keys {k : Nat} {m : Map (BitVec 8)} (h : Map.wf 0 m = true) (g : ∀ e ∈ m, k < e.1) :
    Map.above 0 k m = true := by
  cases m with
  | nil => rfl
  | cons e m =>
    simp only [Map.wf, Map.above, Bool.and_eq_true, decide_eq_true_eq] at h ⊢
    exact ⟨⟨g e (List.mem_cons_self ..), h.1⟩, h.2⟩

/-- Replacing a range keeps the canonical form, whatever the new cells are. -/
theorem wf_replaceRange {m : Memory} (a b : Nat) (new : Memory) (h : Memory.wf m = true) :
    Memory.wf (replaceRange m a b new) = true := by
  unfold replaceRange
  have up : Map.wf (0 : BitVec 8) (m.filter (fun c => decide (max a b ≤ c.1))) = true := Map.wf_filter _ h
  have upAbove (k : Nat) (hk : k < max a b) :
      Map.above (0 : BitVec 8) k (m.filter (fun c => decide (max a b ≤ c.1))) = true :=
    above_of_keys up (fun e he => by have := (List.mem_filter.mp he).2; simp only [decide_eq_true_eq] at this; omega)
  have mid : Map.wf (0 : BitVec 8) ((rising a new).filter (fun c => decide (c.1 < b))) = true :=
    Map.wf_filter _ (wf_rising a new)
  have midKeys (e : Nat × BitVec 8) (he : e ∈ (rising a new).filter (fun c => decide (c.1 < b))) : e.1 < b := by
    have := (List.mem_filter.mp he).2; simpa using this
  rw [List.append_assoc]
  refine wf_append (c := a) (Map.wf_filter _ h) (fun e he => ?_) (fun k hk => ?_) ?_
  · have := (List.mem_filter.mp he).2; simpa using this
  · have g := Map.above_filter (fun c => decide (c.1 < b)) (above_rising a new k hk)
    exact above_append (c := max a b) g (fun e he => by have := midKeys e he; omega) (by omega) upAbove
  · exact wf_append (c := max a b) mid (fun e he => by have := midKeys e he; omega) upAbove up

/-! ### After reset -/

theorem reset_memory_wf : Memory.wf State.reset.home.mem = true := rfl

theorem reset_wf : State.reset.wf = true := rfl

end Sys2Proof.Machine
end

