-- ==== Sys2Proof/Laws/State.lean ====
section
/-! SUPPORT. What each named update of the state leaves in each field. -/

namespace Sys2Proof.Machine

/-! ### The harts -/

@[simp] theorem State.hart_zero (s : State) : s.hart 0 = s.h0 := rfl
@[simp] theorem State.hart_one (s : State) : s.hart 1 = s.h1 := rfl

/-- A hart number is 0 or 1. -/
theorem hart_cases (h : BitVec 1) : h = 0 ∨ h = 1 := by
  rcases h with ⟨⟨n, hn⟩⟩
  rcases n with _ | _ | n
  · exact .inl rfl
  · exact .inr rfl
  · omega

@[simp] theorem other_ne (h : BitVec 1) : other h ≠ h := by rcases hart_cases h with rfl | rfl <;> decide
@[simp] theorem ne_other (h : BitVec 1) : h ≠ other h := (other_ne h).symm
@[simp] theorem other_other (h : BitVec 1) : other (other h) = h := by rcases hart_cases h with rfl | rfl <;> decide

/-- A hart is `h` or the other one. -/
theorem eq_or_other (h k : BitVec 1) : k = h ∨ k = other h := by
  rcases hart_cases h with rfl | rfl <;> rcases hart_cases k with rfl | rfl <;> decide

@[simp] theorem State.hart_setHart (s : State) (h : BitVec 1) (x : Hart) : (s.setHart h x).hart h = x := by
  rcases hart_cases h with rfl | rfl <;> rfl

theorem State.hart_setHart_of_ne (s : State) {h k : BitVec 1} (x : Hart) (n : k ≠ h) :
    (s.setHart h x).hart k = s.hart k := by
  rcases hart_cases h with rfl | rfl <;> rcases hart_cases k with rfl | rfl <;> first | rfl | exact absurd rfl n

@[simp] theorem State.hart_setHart_other (s : State) (h : BitVec 1) (x : Hart) :
    (s.setHart h x).hart (other h) = s.hart (other h) := s.hart_setHart_of_ne x (other_ne h)

@[simp] theorem State.setHart_setHart (s : State) (h : BitVec 1) (x y : Hart) :
    (s.setHart h x).setHart h y = s.setHart h y := by
  rcases hart_cases h with rfl | rfl <;> rfl

@[simp] theorem State.setHart_hart (s : State) (h : BitVec 1) : s.setHart h (s.hart h) = s := by
  rcases hart_cases h with rfl | rfl <;> rfl

@[simp] theorem State.hart_modHart (s : State) (h : BitVec 1) (f : Hart → Hart) :
    (s.modHart h f).hart h = f (s.hart h) := by simp [State.modHart]

@[simp] theorem State.hart_modHart_other (s : State) (h : BitVec 1) (f : Hart → Hart) :
    (s.modHart h f).hart (other h) = s.hart (other h) := by simp [State.modHart]

@[simp] theorem State.hart_modCsr (s : State) (h : BitVec 1) (f : HartCsr → HartCsr) :
    (s.modCsr h f).hart h = { s.hart h with csr := f (s.hart h).csr } := by simp [State.modCsr]

@[simp] theorem State.hart_modCsr_other (s : State) (h : BitVec 1) (f : HartCsr → HartCsr) :
    (s.modCsr h f).hart (other h) = s.hart (other h) := by simp [State.modCsr]

/-- A state whose other fields change has the same harts. -/
@[simp] theorem State.hart_core (s : State) (h : BitVec 1) (c : CoreState) : ({ s with core := c } : State).hart h = s.hart h := rfl

@[simp] theorem State.hart_tile (s : State) (h : BitVec 1) (c : TileUnit) : ({ s with tile := c } : State).hart h = s.hart h := rfl
@[simp] theorem State.hart_cache (s : State) (h : BitVec 1) (c : List Line) : ({ s with cache := c } : State).hart h = s.hart h := rfl
@[simp] theorem State.hart_mmu (s : State) (h : BitVec 1) (c : Mmu) : ({ s with mmu := c } : State).hart h = s.hart h := rfl
@[simp] theorem State.hart_home (s : State) (h : BitVec 1) (c : Home) : ({ s with home := c } : State).hart h = s.hart h := rfl
@[simp] theorem State.hart_dir (s : State) (h : BitVec 1) (c : Directory) : ({ s with dir := c } : State).hart h = s.hart h := rfl
@[simp] theorem State.hart_copy (s : State) (h : BitVec 1) (c : CopyEngine) : ({ s with copy := c } : State).hart h = s.hart h := rfl
@[simp] theorem State.hart_stream (s : State) (h : BitVec 1) (c : Streams) : ({ s with stream := c } : State).hart h = s.hart h := rfl
@[simp] theorem State.hart_net (s : State) (h : BitVec 1) (c : Network) : ({ s with net := c } : State).hart h = s.hart h := rfl
@[simp] theorem State.hart_pool (s : State) (h : BitVec 1) (c : Pool) : ({ s with pool := c } : State).hart h = s.hart h := rfl
@[simp] theorem State.hart_ctr (s : State) (h : BitVec 1) (c : Counters) : ({ s with ctr := c } : State).hart h = s.hart h := rfl
@[simp] theorem State.hart_mgmt (s : State) (h : BitVec 1) (c : Management) : ({ s with mgmt := c } : State).hart h = s.hart h := rfl
@[simp] theorem State.hart_host (s : State) (h : BitVec 1) (c : HostSide) : ({ s with host := c } : State).hart h = s.hart h := rfl
@[simp] theorem State.hart_cur (s : State) (h : BitVec 1) (c : Agent) : ({ s with cur := c } : State).hart h = s.hart h := rfl
@[simp] theorem State.hart_turn (s : State) (h : BitVec 1) (c : BitVec 1) : ({ s with turn := c } : State).hart h = s.hart h := rfl
@[simp] theorem State.hart_bg (s : State) (h : BitVec 1) (c : Bool) : ({ s with bg := c } : State).hart h = s.hart h := rfl
@[simp] theorem State.hart_scan (s : State) (h : BitVec 1) (c : Nat) : ({ s with scan := c } : State).hart h = s.hart h := rfl
@[simp] theorem State.hart_agenda (s : State) (h : BitVec 1) (c : List (Option Instr)) : ({ s with agenda := c } : State).hart h = s.hart h := rfl
@[simp] theorem State.hart_dt (s : State) (h : BitVec 1) (c : List Nat) : ({ s with dt := c } : State).hart h = s.hart h := rfl
@[simp] theorem State.hart_free (s : State) (h : BitVec 1) (c : Nat) : ({ s with free := c } : State).hart h = s.hart h := rfl

/-! ### A hart replaced -/

@[simp] theorem State.setHart_core (s : State) (h : BitVec 1) (x : Hart) : (s.setHart h x).core = s.core := by
  unfold State.setHart; split <;> rfl
@[simp] theorem State.setHart_tile (s : State) (h : BitVec 1) (x : Hart) : (s.setHart h x).tile = s.tile := by
  unfold State.setHart; split <;> rfl
@[simp] theorem State.setHart_cache (s : State) (h : BitVec 1) (x : Hart) : (s.setHart h x).cache = s.cache := by
  unfold State.setHart; split <;> rfl
@[simp] theorem State.setHart_mmu (s : State) (h : BitVec 1) (x : Hart) : (s.setHart h x).mmu = s.mmu := by
  unfold State.setHart; split <;> rfl
@[simp] theorem State.setHart_home (s : State) (h : BitVec 1) (x : Hart) : (s.setHart h x).home = s.home := by
  unfold State.setHart; split <;> rfl
@[simp] theorem State.setHart_dir (s : State) (h : BitVec 1) (x : Hart) : (s.setHart h x).dir = s.dir := by
  unfold State.setHart; split <;> rfl
@[simp] theorem State.setHart_copy (s : State) (h : BitVec 1) (x : Hart) : (s.setHart h x).copy = s.copy := by
  unfold State.setHart; split <;> rfl
@[simp] theorem State.setHart_stream (s : State) (h : BitVec 1) (x : Hart) : (s.setHart h x).stream = s.stream := by
  unfold State.setHart; split <;> rfl
@[simp] theorem State.setHart_net (s : State) (h : BitVec 1) (x : Hart) : (s.setHart h x).net = s.net := by
  unfold State.setHart; split <;> rfl
@[simp] theorem State.setHart_pool (s : State) (h : BitVec 1) (x : Hart) : (s.setHart h x).pool = s.pool := by
  unfold State.setHart; split <;> rfl
@[simp] theorem State.setHart_ctr (s : State) (h : BitVec 1) (x : Hart) : (s.setHart h x).ctr = s.ctr := by
  unfold State.setHart; split <;> rfl
@[simp] theorem State.setHart_mgmt (s : State) (h : BitVec 1) (x : Hart) : (s.setHart h x).mgmt = s.mgmt := by
  unfold State.setHart; split <;> rfl
@[simp] theorem State.setHart_host (s : State) (h : BitVec 1) (x : Hart) : (s.setHart h x).host = s.host := by
  unfold State.setHart; split <;> rfl
@[simp] theorem State.setHart_cur (s : State) (h : BitVec 1) (x : Hart) : (s.setHart h x).cur = s.cur := by
  unfold State.setHart; split <;> rfl
@[simp] theorem State.setHart_turn (s : State) (h : BitVec 1) (x : Hart) : (s.setHart h x).turn = s.turn := by
  unfold State.setHart; split <;> rfl
@[simp] theorem State.setHart_bg (s : State) (h : BitVec 1) (x : Hart) : (s.setHart h x).bg = s.bg := by
  unfold State.setHart; split <;> rfl
@[simp] theorem State.setHart_scan (s : State) (h : BitVec 1) (x : Hart) : (s.setHart h x).scan = s.scan := by
  unfold State.setHart; split <;> rfl
@[simp] theorem State.setHart_agenda (s : State) (h : BitVec 1) (x : Hart) : (s.setHart h x).agenda = s.agenda := by
  unfold State.setHart; split <;> rfl
@[simp] theorem State.setHart_dt (s : State) (h : BitVec 1) (x : Hart) : (s.setHart h x).dt = s.dt := by
  unfold State.setHart; split <;> rfl
@[simp] theorem State.setHart_free (s : State) (h : BitVec 1) (x : Hart) : (s.setHart h x).free = s.free := by
  unfold State.setHart; split <;> rfl

/-! ### A hart changed -/

@[simp] theorem State.modHart_core (s : State) (h : BitVec 1) (f : Hart → Hart) : (s.modHart h f).core = s.core := by
  simp [State.modHart]
@[simp] theorem State.modHart_tile (s : State) (h : BitVec 1) (f : Hart → Hart) : (s.modHart h f).tile = s.tile := by
  simp [State.modHart]
@[simp] theorem State.modHart_cache (s : State) (h : BitVec 1) (f : Hart → Hart) : (s.modHart h f).cache = s.cache := by
  simp [State.modHart]
@[simp] theorem State.modHart_mmu (s : State) (h : BitVec 1) (f : Hart → Hart) : (s.modHart h f).mmu = s.mmu := by
  simp [State.modHart]
@[simp] theorem State.modHart_home (s : State) (h : BitVec 1) (f : Hart → Hart) : (s.modHart h f).home = s.home := by
  simp [State.modHart]
@[simp] theorem State.modHart_dir (s : State) (h : BitVec 1) (f : Hart → Hart) : (s.modHart h f).dir = s.dir := by
  simp [State.modHart]
@[simp] theorem State.modHart_copy (s : State) (h : BitVec 1) (f : Hart → Hart) : (s.modHart h f).copy = s.copy := by
  simp [State.modHart]
@[simp] theorem State.modHart_stream (s : State) (h : BitVec 1) (f : Hart → Hart) : (s.modHart h f).stream = s.stream := by
  simp [State.modHart]
@[simp] theorem State.modHart_net (s : State) (h : BitVec 1) (f : Hart → Hart) : (s.modHart h f).net = s.net := by
  simp [State.modHart]
@[simp] theorem State.modHart_pool (s : State) (h : BitVec 1) (f : Hart → Hart) : (s.modHart h f).pool = s.pool := by
  simp [State.modHart]
@[simp] theorem State.modHart_ctr (s : State) (h : BitVec 1) (f : Hart → Hart) : (s.modHart h f).ctr = s.ctr := by
  simp [State.modHart]
@[simp] theorem State.modHart_mgmt (s : State) (h : BitVec 1) (f : Hart → Hart) : (s.modHart h f).mgmt = s.mgmt := by
  simp [State.modHart]
@[simp] theorem State.modHart_host (s : State) (h : BitVec 1) (f : Hart → Hart) : (s.modHart h f).host = s.host := by
  simp [State.modHart]
@[simp] theorem State.modHart_cur (s : State) (h : BitVec 1) (f : Hart → Hart) : (s.modHart h f).cur = s.cur := by
  simp [State.modHart]
@[simp] theorem State.modHart_turn (s : State) (h : BitVec 1) (f : Hart → Hart) : (s.modHart h f).turn = s.turn := by
  simp [State.modHart]
@[simp] theorem State.modHart_bg (s : State) (h : BitVec 1) (f : Hart → Hart) : (s.modHart h f).bg = s.bg := by
  simp [State.modHart]
@[simp] theorem State.modHart_scan (s : State) (h : BitVec 1) (f : Hart → Hart) : (s.modHart h f).scan = s.scan := by
  simp [State.modHart]
@[simp] theorem State.modHart_agenda (s : State) (h : BitVec 1) (f : Hart → Hart) : (s.modHart h f).agenda = s.agenda := by
  simp [State.modHart]
@[simp] theorem State.modHart_dt (s : State) (h : BitVec 1) (f : Hart → Hart) : (s.modHart h f).dt = s.dt := by
  simp [State.modHart]
@[simp] theorem State.modHart_free (s : State) (h : BitVec 1) (f : Hart → Hart) : (s.modHart h f).free = s.free := by
  simp [State.modHart]

/-! ### CSRs of a hart changed -/

@[simp] theorem State.modCsr_core (s : State) (h : BitVec 1) (f : HartCsr → HartCsr) : (s.modCsr h f).core = s.core := by
  simp [State.modCsr]
@[simp] theorem State.modCsr_tile (s : State) (h : BitVec 1) (f : HartCsr → HartCsr) : (s.modCsr h f).tile = s.tile := by
  simp [State.modCsr]
@[simp] theorem State.modCsr_cache (s : State) (h : BitVec 1) (f : HartCsr → HartCsr) : (s.modCsr h f).cache = s.cache := by
  simp [State.modCsr]
@[simp] theorem State.modCsr_mmu (s : State) (h : BitVec 1) (f : HartCsr → HartCsr) : (s.modCsr h f).mmu = s.mmu := by
  simp [State.modCsr]
@[simp] theorem State.modCsr_home (s : State) (h : BitVec 1) (f : HartCsr → HartCsr) : (s.modCsr h f).home = s.home := by
  simp [State.modCsr]
@[simp] theorem State.modCsr_dir (s : State) (h : BitVec 1) (f : HartCsr → HartCsr) : (s.modCsr h f).dir = s.dir := by
  simp [State.modCsr]
@[simp] theorem State.modCsr_copy (s : State) (h : BitVec 1) (f : HartCsr → HartCsr) : (s.modCsr h f).copy = s.copy := by
  simp [State.modCsr]
@[simp] theorem State.modCsr_stream (s : State) (h : BitVec 1) (f : HartCsr → HartCsr) : (s.modCsr h f).stream = s.stream := by
  simp [State.modCsr]
@[simp] theorem State.modCsr_net (s : State) (h : BitVec 1) (f : HartCsr → HartCsr) : (s.modCsr h f).net = s.net := by
  simp [State.modCsr]
@[simp] theorem State.modCsr_pool (s : State) (h : BitVec 1) (f : HartCsr → HartCsr) : (s.modCsr h f).pool = s.pool := by
  simp [State.modCsr]
@[simp] theorem State.modCsr_ctr (s : State) (h : BitVec 1) (f : HartCsr → HartCsr) : (s.modCsr h f).ctr = s.ctr := by
  simp [State.modCsr]
@[simp] theorem State.modCsr_mgmt (s : State) (h : BitVec 1) (f : HartCsr → HartCsr) : (s.modCsr h f).mgmt = s.mgmt := by
  simp [State.modCsr]
@[simp] theorem State.modCsr_host (s : State) (h : BitVec 1) (f : HartCsr → HartCsr) : (s.modCsr h f).host = s.host := by
  simp [State.modCsr]
@[simp] theorem State.modCsr_cur (s : State) (h : BitVec 1) (f : HartCsr → HartCsr) : (s.modCsr h f).cur = s.cur := by
  simp [State.modCsr]
@[simp] theorem State.modCsr_turn (s : State) (h : BitVec 1) (f : HartCsr → HartCsr) : (s.modCsr h f).turn = s.turn := by
  simp [State.modCsr]
@[simp] theorem State.modCsr_bg (s : State) (h : BitVec 1) (f : HartCsr → HartCsr) : (s.modCsr h f).bg = s.bg := by
  simp [State.modCsr]
@[simp] theorem State.modCsr_scan (s : State) (h : BitVec 1) (f : HartCsr → HartCsr) : (s.modCsr h f).scan = s.scan := by
  simp [State.modCsr]
@[simp] theorem State.modCsr_agenda (s : State) (h : BitVec 1) (f : HartCsr → HartCsr) : (s.modCsr h f).agenda = s.agenda := by
  simp [State.modCsr]
@[simp] theorem State.modCsr_dt (s : State) (h : BitVec 1) (f : HartCsr → HartCsr) : (s.modCsr h f).dt = s.dt := by
  simp [State.modCsr]
@[simp] theorem State.modCsr_free (s : State) (h : BitVec 1) (f : HartCsr → HartCsr) : (s.modCsr h f).free = s.free := by
  simp [State.modCsr]

end Sys2Proof.Machine
end

