-- ==== Sys2Proof/Laws/Home.lean ====
section
/-! SUPPORT. What the operations at a home change: the bytes written, the codec and heat of the unit, monitors and triggers. -/

namespace Sys2Proof.Machine

/-! ### Heat, logs and stored forms leave every byte as it is -/

theorem State.heat_eq (s : State) (name : Nat) : (s.heat name).2 = { s with ctr := (s.heat name).2.ctr } := by
  simp only [State.heat]; split <;> rfl

theorem State.logViolation_eq (s : State) (q src kind why : Nat) (pa : Word) (cid : Nat) :
    s.logViolation q src kind why pa cid =
      { s with home := { s.home with
          vlog := (s.logViolation q src kind why pa cid).home.vlog
          overrun := (s.logViolation q src kind why pa cid).home.overrun } } := by
  simp only [State.logViolation]; split <;> rfl

theorem State.logError_eq (s : State) (kind name cid : Nat) (e : Nat × Nat) :
    s.logError kind name cid e =
      { s with home := { s.home with
          vlog := (s.logError kind name cid e).home.vlog, overrun := (s.logError kind name cid e).home.overrun } } :=
  s.logViolation_eq ..

/-- Recoding a frame changes its header and its codec, no byte. -/
theorem State.recode_eq (s : State) (f k : Nat) (b : Bool) (m : Memory) (o : BitVec 2) :
    (s.recode f k b m o).2 =
      { s with home := { s.home with
          frames := (s.recode f k b m o).2.home.frames, codecs := (s.recode f k b m o).2.home.codecs } } := by
  unfold State.recode
  split
  · rfl
  · simp only
    repeat' split
    all_goals rfl

/-- A write that has been performed wakes monitors and arms triggers (R333, R383). -/
theorem State.afterWrite_eq (s : State) (name : Nat) (offs : List Nat) :
    s.afterWrite name offs =
      { s with
        h0 := { s.h0 with run := (s.afterWrite name offs).h0.run }, h1 := { s.h1 with run := (s.afterWrite name offs).h1.run }
        pool := { s.pool with fired := (s.afterWrite name offs).pool.fired } } := by
  simp only [State.afterWrite]; split <;> rfl

/-! ### A write at its home (R293) -/

/-- What a home address's bytes depend on is as before: the bytes, and which frames are compressed and how far they
reach. -/
def State.SameBytes (s t : State) : Prop :=
  t.home.mem = s.home.mem ∧
    ∀ f, (Map.get none t.home.frames f).map (·.cmp) = (Map.get none s.home.frames f).map (·.cmp)

theorem State.SameBytes.refl (s : State) : s.SameBytes s := ⟨rfl, fun _ => rfl⟩

theorem State.SameBytes.trans {s t u : State} (a : s.SameBytes t) (b : t.SameBytes u) : s.SameBytes u :=
  ⟨b.1.trans a.1, fun f => (b.2 f).trans (a.2 f)⟩

/-- The key of a home address depends only on which frames are compressed. -/
theorem State.SameBytes.homeKey {s t : State} (h : s.SameBytes t) (name : Nat) : t.homeKey name = s.homeKey name := by
  simp only [State.homeKey]
  have k := h.2 (frameOf name).1
  revert k
  cases Map.get none t.home.frames (frameOf name).1 <;> cases Map.get none s.home.frames (frameOf name).1 <;> simp

theorem findSome?_isSome_congr {α β : Type} (l : List α) (f g : α → Option β) (h : ∀ a, (f a).isSome = (g a).isSome) :
    (l.findSome? f).isSome = (l.findSome? g).isSome := by
  induction l with
  | nil => rfl
  | cons a l ih =>
    have := h a
    cases hf : f a <;> cases hg : g a <;> simp_all [List.findSome?_cons]

theorem State.SameBytes.frameAt {s t : State} (h : s.SameBytes t) (pa : Nat) :
    (t.frameAt pa).isSome = (s.frameAt pa).isSome := by
  refine findSome?_isSome_congr _ _ _ fun i => ?_
  have k := h.2 (pa / 1024 - i)
  revert k
  cases Map.get none t.home.frames (pa / 1024 - i) <;> cases Map.get none s.home.frames (pa / 1024 - i) <;> simp
  intro k
  rw [k]
  split <;> rfl

/-- Whether bytes lie raw in a compressed frame, without the short cut for a device that has none. -/
theorem State.codedOver_eq (s : State) (name : Nat) (offs : List Nat) :
    s.codedOver name offs =
      (decide (s.homeKey name < 2 ^ 48) && offs.any (fun o => (s.frameAt (s.homeKey name + o)).isSome)) := by
  unfold State.codedOver
  cases h : s.home.frames with
  | nil => simp [State.frameAt, h, Map.get]
  | cons => simp

theorem State.SameBytes.codedOver {s t : State} (h : s.SameBytes t) (name : Nat) (offs : List Nat) :
    t.codedOver name offs = s.codedOver name offs := by
  rw [State.codedOver_eq, State.codedOver_eq, h.homeKey]
  simp only [h.frameAt]

theorem State.heat_same (s : State) (name : Nat) : s.SameBytes (s.heat name).2 := by rw [State.heat_eq]; exact .refl _

theorem State.logError_same (s : State) (kind name cid : Nat) (e : Nat × Nat) : s.SameBytes (s.logError kind name cid e) := by
  rw [State.logError_eq]; exact ⟨rfl, fun _ => rfl⟩

theorem State.recode_same (s : State) (f k : Nat) (b : Bool) (m : Memory) (o : BitVec 2) :
    s.SameBytes (s.recode f k b m o).2 := by
  refine ⟨by rw [State.recode_eq], fun j => ?_⟩
  unfold State.recode
  split
  · rfl
  · next fr h =>
    simp only
    repeat' split
    all_goals first
      | rfl
      | (simp only [State.placeBlock, State.setCodec, Map.get_set]
         split
         · next e => subst e; rw [h]; rfl
         · rfl)

theorem State.deposit_home (s : State) (d : Deposit) : (s.deposit d).2.home = s.home := by
  simp only [State.deposit]
  split
  · simp only [State.toHostBuffer]
    split
    · simp only [State.msix]; repeat' split
      all_goals rfl
    · rfl
  · rfl

theorem State.depositOverflow_same {s t : State} {va : Word} {cid : BitVec 16} (h : s.depositOverflow va cid = some t) :
    s.SameBytes t := by
  unfold State.depositOverflow at h
  split at h
  · cases h
    exact ⟨by rw [State.deposit_home], fun _ => by rw [State.deposit_home]⟩
  · cases h

theorem State.foldl_heat_same (ks : List Nat) (f : Nat → Nat) (s : State) :
    s.SameBytes (ks.foldl (fun s k => (s.heat (f k)).2) s) := by
  induction ks generalizing s with
  | nil => exact .refl _
  | cons k ks ih => exact (s.heat_same _).trans (ih _)

/-- A slice that writes a line back changes no byte of the byte order (R279). -/
theorem State.llcWriteBack_same {s t : State} {l : LlcLine} (h : s.llcWriteBack l = some t) : s.SameBytes t := by
  unfold State.llcWriteBack at h
  simp only at h
  split at h
  · cases h; exact .refl _
  · split at h
    · cases h; exact s.logError_same ..
    · split at h
      · have k := State.recode_same (s.heat (l.tag * 256)).2 (frameOf (l.tag * 256)).1 ((frameOf (l.tag * 256)).2 / 256)
          (s.heat (l.tag * 256)).1
          (Memory.store (s.heat (l.tag * 256)).2.home.mem ((s.heat (l.tag * 256)).2.homeKey (l.tag * 256)) 256 l.stored) l.own
        have k := (s.heat_same (l.tag * 256)).trans k
        revert k h
        generalize State.recode _ _ _ _ _ _ = r
        obtain ⟨r, s2⟩ := r
        intro h k
        cases r <;> simp only at h
        · cases h; exact k
        · cases h; exact k
        · exact k.trans (State.depositOverflow_same h)
        · cases h
      · cases h
        exact State.foldl_heat_same _ _ _

theorem State.llcStored_same {s t : State} {name : Nat} (h : s.llcStored name = some t) : s.SameBytes t := by
  unfold State.llcStored at h
  split at h
  · split at h
    · cases h; exact .refl _
    · unfold State.llcClean at h
      cases e : s.llcWriteBack _ with
      | none => rw [e] at h; cases h
      | some u =>
        rw [e] at h
        cases h
        exact (State.llcWriteBack_same e).trans ⟨rfl, fun _ => rfl⟩
  · cases h; exact .refl _

theorem State.llcRoom_same {s t : State} {name : Nat} (h : s.llcRoom name = some t) : s.SameBytes t := by
  unfold State.llcRoom at h
  simp only at h
  split at h
  · cases h; exact .refl _
  · split at h
    · unfold State.llcFlush at h
      cases e : State.llcWriteBack _ _ with
      | none => rw [e] at h; cases h
      | some u =>
        rw [e] at h
        cases h
        exact (State.SameBytes.trans ⟨rfl, fun _ => rfl⟩ (State.llcWriteBack_same e)).trans ⟨rfl, fun _ => rfl⟩
    · cases h; exact ⟨rfl, fun _ => rfl⟩

theorem State.llcWrite_same {s t : State} {own : BitVec 2} {cid name : Nat} {va : Word} {offs : List Nat}
    (h : s.llcWrite own cid name va offs = some t) : s.SameBytes t := by
  unfold State.llcWrite State.llcLine at h
  split at h
  · cases h; exact ⟨rfl, fun _ => rfl⟩
  · cases e : s.llcRoom name with
    | none => rw [e] at h; cases h
    | some u =>
      rw [e] at h
      cases h
      exact (State.llcRoom_same e).trans ⟨rfl, fun _ => rfl⟩

/-- A raw byte that reaches a compressed frame keeps memory canonical (R436). -/
theorem State.rawPut_wf (s : State) (pa : Nat) (b : Byte) (w : Memory.wf s.home.mem = true) :
    Memory.wf (s.rawPut pa b).home.mem = true := by
  unfold State.rawPut
  split
  · simp only
    split
    · simp only [State.loadForm]
      generalize s.home.mem = m at w
      generalize List.range 16 = l
      induction l generalizing m with
      | nil => exact w
      | cons k l ih => exact ih _ (Memory.wf_store _ _ _ w)
    · exact w
  · exact w

/-- Bytes that reach compressed frames keep memory canonical. -/
theorem State.rawPuts_wf (mem : Memory) (key : Nat) (offs : List Nat) (s : State) (w : Memory.wf s.home.mem = true) :
    Memory.wf (offs.foldl (fun (s : State) o => s.rawPut (key + o) (Memory.byte mem (key + o))) s).home.mem = true := by
  induction offs generalizing s with
  | nil => exact w
  | cons o offs ih => exact ih _ (State.rawPut_wf _ _ _ w)

theorem State.enterMem_mem (s : State) (name : Nat) (mem : Memory) (offs : List Nat) (c : s.codedOver name offs = false) :
    (s.enterMem name mem offs).home.mem = mem := by
  unfold State.enterMem
  rw [if_neg (by rw [c]; exact Bool.false_ne_true)]

theorem State.enterMem_wf (s : State) (name : Nat) (mem : Memory) (offs : List Nat) (w : Memory.wf mem = true) :
    Memory.wf (s.enterMem name mem offs).home.mem = true := by
  unfold State.enterMem
  simp only
  generalize hs : ({ s with home := { s.home with mem := mem } } : State) = t
  have v : Memory.wf t.home.mem = true := by rw [← hs]; exact w
  split
  · exact State.rawPuts_wf _ _ _ _ v
  · exact v

theorem State.afterWrite_mem (s : State) (name : Nat) (offs : List Nat) : (s.afterWrite name offs).home.mem = s.home.mem := by
  rw [State.afterWrite_eq]

theorem State.memoryWrite_home (s : State) (kind name : Nat) (mem : Memory) (offs : List Nat) (sampled : Bool) :
    (s.memoryWrite kind name mem offs sampled).2.home.mem = (s.enterMem name mem offs).home.mem :=
  (State.afterWrite_mem _ _ _).trans (State.recode_same _ _ _ _ _ _).1

/-- A write past its slice leaves in memory what it was told, where it reaches no compressed frame's sectors, unless it
must wait. -/
theorem State.pastSlice_mem (s : State) (kind name : Nat) (mem : Memory) (offs : List Nat) (again : Bool)
    (c : s.codedOver name offs = false) :
    (s.pastSlice kind name mem offs again).2.home.mem =
      if (s.pastSlice kind name mem offs again).1 = .full then s.home.mem else mem := by
  unfold State.pastSlice
  cases e : s.llcStored name with
  | none => rfl
  | some t =>
    have k := ((State.llcStored_same e).codedOver name offs).trans c
    have one (r : Bool × State) (v : r.2.codedOver name offs = false) :
        let w := r.2.memoryWrite kind name mem offs r.1
        (if w.1 = .full then (.full, s) else w : WriteResult × State).2.home.mem =
          if (if w.1 = .full then (.full, s) else w : WriteResult × State).1 = .full then s.home.mem else mem := by
      have m := (State.memoryWrite_home r.2 kind name mem offs r.1).trans (State.enterMem_mem _ _ _ _ v)
      revert m
      generalize State.memoryWrite _ _ _ _ _ _ = w
      intro m
      by_cases n : w.1 = .full
      · simp [n]
      · simp [n, m]
    cases again
    · exact one _ (((t.heat_same name).codedOver name offs).trans k)
    · exact one (false, t) k

/-- The same of a write that its slice takes. -/
theorem State.sliceWrite_mem (s : State) (own : BitVec 2) (cid name : Nat) (va : Word) (mem : Memory) (offs : List Nat)
    (c : s.codedOver name offs = false) :
    (s.sliceWrite own cid name va mem offs).2.home.mem =
      if (s.sliceWrite own cid name va mem offs).1 = .full then s.home.mem else mem := by
  unfold State.sliceWrite
  cases e : s.llcWrite own cid name va offs with
  | none => rfl
  | some t =>
    exact (State.afterWrite_mem _ _ _).trans
      (State.enterMem_mem _ _ _ _ (((State.llcWrite_same e).codedOver name offs).trans c))

/-- What a write at a home that answers leaves of memory, where it reaches no compressed frame's sectors: what it was told,
unless it must wait. -/
theorem State.enterBytes_mem (s : State) (kind cid name : Nat) (mem : Memory) (offs : List Nat) (via : Via)
    (h : s.homeError name = none) (c : s.codedOver name offs = false) :
    (s.enterBytes kind cid name mem offs via).2.home.mem =
      if (s.enterBytes kind cid name mem offs via).1 = .full then s.home.mem else mem := by
  unfold State.enterBytes
  rw [h]
  cases via with
  | slice own va => exact State.sliceWrite_mem _ _ _ _ _ _ _ c
  | memory => exact State.pastSlice_mem _ _ _ _ _ _ c
  | again => exact State.pastSlice_mem _ _ _ _ _ _ c

/-- An access that gets an error response writes nothing (R317). -/
theorem State.enterBytes_error (s : State) (kind cid name : Nat) (mem : Memory) (offs : List Nat) (via : Via) (e : Nat × Nat)
    (h : s.homeError name = some e) : s.enterBytes kind cid name mem offs via = (.error, s.logError kind name cid e) := by
  simp [State.enterBytes, h]

theorem State.pastSlice_wf (s : State) (kind name : Nat) (mem : Memory) (offs : List Nat) (again : Bool)
    (w : Memory.wf s.home.mem = true) (v : Memory.wf mem = true) :
    Memory.wf (s.pastSlice kind name mem offs again).2.home.mem = true := by
  unfold State.pastSlice
  cases s.llcStored name with
  | none => exact w
  | some t =>
    have one (r : Bool × State) :
        let w := r.2.memoryWrite kind name mem offs r.1
        Memory.wf (if w.1 = .full then (.full, s) else w : WriteResult × State).2.home.mem = true := by
      have m := (congrArg Memory.wf (State.memoryWrite_home r.2 kind name mem offs r.1)).trans (State.enterMem_wf _ _ _ _ v)
      revert m
      generalize State.memoryWrite _ _ _ _ _ _ = k
      intro m
      by_cases n : k.1 = .full
      · simp [n, w]
      · simp [n, m]
    cases again
    · exact one _
    · exact one (false, t)

theorem State.sliceWrite_wf (s : State) (own : BitVec 2) (cid name : Nat) (va : Word) (mem : Memory) (offs : List Nat)
    (w : Memory.wf s.home.mem = true) (v : Memory.wf mem = true) :
    Memory.wf (s.sliceWrite own cid name va mem offs).2.home.mem = true := by
  unfold State.sliceWrite
  cases s.llcWrite own cid name va offs with
  | none => exact w
  | some t => exact (congrArg Memory.wf (State.afterWrite_mem _ _ _)).trans (State.enterMem_wf _ _ _ _ v)

/-- Home memory keeps its canonical form under a write. -/
theorem State.enterBytes_wf (s : State) (kind cid name : Nat) (mem : Memory) (offs : List Nat) (via : Via)
    (w : Memory.wf s.home.mem = true) (v : Memory.wf mem = true) :
    Memory.wf (s.enterBytes kind cid name mem offs via).2.home.mem = true := by
  unfold State.enterBytes
  cases s.homeError name with
  | some e => simp only; rw [State.logError_eq]; exact w
  | none =>
    cases via with
    | slice own va => exact State.sliceWrite_wf _ _ _ _ _ _ _ w v
    | memory => exact State.pastSlice_wf _ _ _ _ _ _ w v
    | again => exact State.pastSlice_wf _ _ _ _ _ _ w v

theorem State.homeWrite_wf (s : State) (kind cid name n v : Nat) (via : Via) (w : Memory.wf s.home.mem = true) :
    Memory.wf (s.homeWrite kind cid name n v via).2.home.mem = true :=
  State.enterBytes_wf _ _ _ _ _ _ _ w (Memory.wf_store _ _ _ w)

theorem State.homeWriteBytes_wf (s : State) (kind cid name : Nat) (bs : List (Nat × Byte)) (via : Via)
    (w : Memory.wf s.home.mem = true) : Memory.wf (s.homeWriteBytes kind cid name bs via).2.home.mem = true :=
  State.enterBytes_wf _ _ _ _ _ _ _ w (wf_writeBytes _ _ w)

/-- A read at a home changes no byte: no more than the counters of its unit, what its slice holds, or the violation log. -/
theorem State.homeRead_same (s : State) (kind cid name n : Nat) (via : Via) :
    s.SameBytes (s.homeRead kind cid name n via).2 := by
  unfold State.homeRead
  split
  · exact s.logError_same ..
  · unfold State.homeTouch
    split
    · exact s.heat_same _
    · exact .refl _
    · unfold State.llcRead
      split
      · exact .refl _
      · simp only
        split
        · next l s2 e =>
          unfold State.llcLine at e
          split at e
          · cases e; exact (s.heat_same _).trans ⟨rfl, fun _ => rfl⟩
          · cases r : State.llcRoom _ name with
            | none => rw [r] at e; cases e
            | some u =>
              rw [r] at e
              cases e
              exact ((s.heat_same _).trans (State.llcRoom_same r)).trans ⟨rfl, fun _ => rfl⟩
        · exact s.heat_same _

end Sys2Proof.Machine
end

