-- ==== Sys2Proof/Laws/Issue.lean ====
section
/-! SUPPORT. What the shared operations of issue and retirement leave: one lemma for each says all of it. -/

namespace Sys2Proof.Machine

/-! ### Registers and the scoreboard -/

@[simp] theorem Hart.reg_zero (x : Hart) : x.reg 0 = 0 := rfl

theorem Hart.reg_setReg (x : Hart) (r k : Nat) (v : Word) :
    (x.setReg r v).reg k = if k = 0 then 0 else if k = r then v else x.reg k := by
  unfold Hart.setReg Hart.reg
  by_cases hr : r = 0
  · subst hr; by_cases hk : k = 0 <;> simp [hk]
  · by_cases hk : k = 0 <;> simp [hr, hk, Store.get_set]

@[simp] theorem Hart.pending_setReg (x : Hart) (r : Nat) (v : Word) : (x.setReg r v).pending = x.pending := by
  unfold Hart.setReg; split <;> rfl

@[simp] theorem Hart.late_setReg (x : Hart) (r : Nat) (v : Word) : (x.setReg r v).late = x.late := by
  unfold Hart.setReg; split <;> rfl

theorem Hart.setReg_eq (x : Hart) (r : Nat) (v : Word) : x.setReg r v = { x with g := (x.setReg r v).g } := by
  unfold Hart.setReg; split <;> rfl

/-! ### Counting and going on -/

/-- Counting changes performance counters only. -/
theorem State.count_eq (s : State) (h : BitVec 1) (ev n : Nat) :
    s.count h ev n =
      { s.setHart h { s.hart h with csr := { (s.hart h).csr with pcnt := countIn (s.hart h).csr.psel (s.hart h).csr.pcnt ev n 0 4 } }
        with core := { s.core with pcnt := countIn s.core.psel s.core.pcnt ev n 4 4 } } := by
  simp [State.count, State.modCsr, State.modHart, State.countCore]

@[simp] theorem State.hart_countCore (s : State) (h : BitVec 1) (ev n : Nat) : (s.countCore ev n).hart h = s.hart h := rfl

theorem State.hart_count (s : State) (h : BitVec 1) (ev n : Nat) :
    (s.count h ev n).hart h =
      { s.hart h with csr := { (s.hart h).csr with pcnt := countIn (s.hart h).csr.psel (s.hart h).csr.pcnt ev n 0 4 } } := by
  simp [State.count]

/-- A word that changes only its hart, and goes on to `pc`. -/
theorem State.setHart_retireAt (s : State) (h : BitVec 1) (x : Hart) (pc : Word) (j : Bool)
    (k : x = { s.hart h with g := x.g, pending := x.pending, late := x.late }) :
    s.OnlyHart h ((s.setHart h x).retireAt h pc j) ∧ (s.hart h).GoneOn pc j (((s.setHart h x).retireAt h pc j).hart h) ∧
      (((s.setHart h x).retireAt h pc j).hart h).g = x.g ∧
      (((s.setHart h x).retireAt h pc j).hart h).pending = x.pending ∧
      (((s.setHart h x).retireAt h pc j).hart h).late = x.late := by
  refine ⟨?_, ?_, ?_, ?_, ?_⟩
  · rcases hart_cases h with rfl | rfl <;> rfl
  · rw [k]; simp [Hart.GoneOn, State.retireAt, State.hart_count]
  all_goals simp [State.retireAt, State.hart_count]

/-- A word that only goes on. -/
theorem State.retireAt_spec (s : State) (h : BitVec 1) (pc : Word) (j : Bool) :
    s.OnlyHart h (s.retireAt h pc j) ∧ (s.hart h).GoneOn pc j ((s.retireAt h pc j).hart h) ∧
      ((s.retireAt h pc j).hart h).g = (s.hart h).g ∧
      ((s.retireAt h pc j).hart h).pending = (s.hart h).pending ∧
      ((s.retireAt h pc j).hart h).late = (s.hart h).late := by
  have := s.setHart_retireAt h (s.hart h) pc j rfl
  rwa [State.setHart_hart] at this

/-- A result written at once (latency 1 of Table 05-3). -/
theorem State.writeReg_retireAt (s : State) (h : BitVec 1) (r : Nat) (v pc : Word) (j : Bool) :
    s.OnlyHart h ((s.writeReg h r v).retireAt h pc j) ∧
      (s.hart h).GoneOn pc j (((s.writeReg h r v).retireAt h pc j).hart h) ∧
      (s.hart h).Wrote r v (((s.writeReg h r v).retireAt h pc j).hart h) := by
  have k := s.setHart_retireAt h ((s.hart h).setReg r v) pc j (by rw [Hart.setReg_eq])
  refine ⟨k.1, k.2.1, k.2.2.2.1.trans (by simp), k.2.2.2.2.trans (by simp), fun i => ?_⟩
  rw [← Hart.reg_setReg]
  unfold Hart.reg
  rw [show ((s.writeReg h r v).retireAt h pc j) = ((s.setHart h ((s.hart h).setReg r v)).retireAt h pc j) from rfl, k.2.2.1]

/-- What a late result leaves on the scoreboard. -/
theorem State.lateReg_eq (s : State) (h : BitVec 1) (r : Nat) (v : Word) (fl : BitVec 6) (o dv : Bool) :
    s.lateReg h r v fl o dv = s.setHart h { s.hart h with
      pending := if r = 0 then (s.hart h).pending else BitVec.ofNat 64 (setBits (s.hart h).pending.toNat r 1 1)
      late := if r = 0 ∧ fl = 0 ∧ o = false ∧ dv = false then (s.hart h).late
        else (s.hart h).late ++ [{ reg := BitVec.ofNat 6 r, val := v, flags := fl, opf := o, divider := dv }] } := by
  unfold State.lateReg State.setPending State.modHart
  by_cases hr : r = 0 <;> simp only [hr, if_true, if_false, State.hart_setHart, State.setHart_setHart] <;> split <;>
    first | rfl | (rcases hart_cases h with rfl | rfl <;> rfl)

theorem Hart.isPending_set (x : Hart) (r k : Nat) (hk : k < 64) :
    ({ x with pending := BitVec.ofNat 64 (setBits x.pending.toNat r 1 1) } : Hart).isPending k =
      (x.isPending k || (k == r && k != 0)) := by
  simp only [Hart.isPending, bit_eq_testBit, BitVec.toNat_ofNat, Nat.testBit_mod_two_pow, testBit_setBits]
  by_cases h : k = r
  · subst h; simp [hk]; cases k <;> simp
  · by_cases h1 : k < r
    · simp [h1, h, hk]
    · rw [if_neg h1, if_neg (by omega)]; simp [h, hk]

/-- A result that arrives later (Table 05-2). -/
theorem State.lateReg_retireAt (s : State) (h : BitVec 1) (r : Nat) (v : Word) (fl : BitVec 6) (o dv : Bool) (pc : Word)
    (j : Bool) :
    s.OnlyHart h ((s.lateReg h r v fl o dv).retireAt h pc j) ∧
      (s.hart h).GoneOn pc j (((s.lateReg h r v fl o dv).retireAt h pc j).hart h) ∧
      (s.hart h).Sent r v fl (((s.lateReg h r v fl o dv).retireAt h pc j).hart h) o dv := by
  rw [State.lateReg_eq]
  obtain ⟨k1, k2, k3, k4, k5⟩ := s.setHart_retireAt h { s.hart h with
      pending := if r = 0 then (s.hart h).pending else BitVec.ofNat 64 (setBits (s.hart h).pending.toNat r 1 1)
      late := if r = 0 ∧ fl = 0 ∧ o = false ∧ dv = false then (s.hart h).late
        else (s.hart h).late ++ [{ reg := BitVec.ofNat 6 r, val := v, flags := fl, opf := o, divider := dv }] } pc j rfl
  refine ⟨k1, k2, k3, fun k hk => ?_, k5⟩
  have e := Hart.isPending_set (s.hart h) r k hk
  unfold Hart.isPending at e ⊢
  rw [k4]
  by_cases hr : r = 0
  · subst hr; simp
  · rw [if_neg hr]
    refine e.trans ?_
    by_cases hkr : k = r
    · subst hkr; rfl
    · rw [beq_false_of_ne hkr]; simp

/-! ### Shapes of scalar words -/

/-- A hart's word all of whose registers are free issues. -/
theorem State.Issues.ready {s : State} {h : BitVec 1} {rs qs : List (BitVec 7)} (k : s.Issues h rs)
    (sub : ∀ r ∈ qs, r ∈ rs) : (s.hart h).ready (qs.map (·.toNat)) = true := by
  simp only [Hart.ready, List.all_map, List.all_eq_true, Function.comp]
  intro r hr
  simp [k.2 r (sub r hr)]

theorem issue_of_issues {s : State} {h : BitVec 1} {rs qs : List (BitVec 7)} {f : BitVec 1 → Result} (k : s.Issues h rs)
    (sub : ∀ r ∈ qs, r ∈ rs) : issue qs s f = f h := by
  simp only [issue, hartOnly, k.1, k.ready sub, if_true]

theorem hartOnly_of_issues {s : State} {h : BitVec 1} {rs : List (BitVec 7)} {f : BitVec 1 → Result} (k : s.Issues h rs) :
    hartOnly s f = f h := by
  simp only [hartOnly, k.1]

/-- A hart's word of two operands and latency 1. -/
theorem scalar3_hart {s : State} {h : BitVec 1} {d a b : BitVec 7} (k : s.Issues h [d, a, b]) (f : Word → Word → Word)
    (f32 : BitVec 32 → BitVec 32 → BitVec 32) (p : Bool) :
    scalar3 d a b f f32 p s =
      .next ((s.writeReg h d.toNat (f ((s.hart h).reg a.toNat) ((s.hart h).reg b.toNat))).retire h) := by
  have r := k.ready (qs := [d, a, b]) (fun _ h => h)
  simp only [List.map] at r
  simp only [scalar3, k.1, r, if_true]

/-- A hart's word with an immediate. -/
theorem scalarI_hart {s : State} {h : BitVec 1} {d a : BitVec 7} (k : s.Issues h [d, a]) (f : Word → Word)
    (f32 : BitVec 32 → BitVec 32) (p : Bool) :
    scalarI d a f f32 p s = .next ((s.writeReg h d.toNat (f ((s.hart h).reg a.toNat))).retire h) := by
  have r := k.ready (qs := [d, a]) (fun _ h => h)
  simp only [List.map] at r
  simp only [scalarI, k.1, r, if_true]

@[simp] theorem State.pc_writeReg (s : State) (h : BitVec 1) (r : Nat) (v : Word) :
    ((s.writeReg h r v).hart h).pc = (s.hart h).pc := by
  simp only [State.writeReg, State.hart_modHart]; rw [Hart.setReg_eq]

@[simp] theorem State.pc_lateReg (s : State) (h : BitVec 1) (r : Nat) (v : Word) (fl : BitVec 6) (o dv : Bool) :
    ((s.lateReg h r v fl o dv).hart h).pc = (s.hart h).pc := by
  rw [State.lateReg_eq, State.hart_setHart]

/-- A word that writes its result at once completes as `WritesNow` says. -/
theorem writesNow_of_exec {i : Instr} {s : State} {h : BitVec 1} {d : BitVec 7} {v : Word}
    (e : exec i s = .next ((s.writeReg h d.toNat v).retire h)) : WritesNow i s h d v := by
  refine ⟨_, e, ?_⟩
  unfold State.retire
  rw [State.pc_writeReg]
  exact s.writeReg_retireAt h d.toNat v _ false

/-- A word whose result arrives later completes as `WritesLate` says. -/
theorem writesLate_of_exec {i : Instr} {s : State} {h : BitVec 1} {d : BitVec 7} {v : Word} {fl : BitVec 6} {o dv : Bool}
    (e : exec i s = .next ((s.lateReg h d.toNat v fl o dv).retire h)) : WritesLate i s h d v fl o dv := by
  refine ⟨_, e, ?_⟩
  unfold State.retire
  rw [State.pc_lateReg]
  exact s.lateReg_retireAt h d.toNat v fl o dv _ false

end Sys2Proof.Machine
end

