-- ==== Sys2Proof/Laws/PerInstr.lean ====
section
/-! SUPPORT. One lemma per constructor: the raw decoder reads the word of an instruction back, field by field.  (Whether
the word is then well formed is what `decode` asks besides.) -/

open Sys2Proof

/-- The word of the instruction, where it has one, decodes to the instruction, whatever its operands. -/
def Sys2Proof.Laws.Encoding.Statement (i : Instr) : Prop := hasWord i = true → decodeRaw (encode i) = some i

theorem Sys2Proof.Laws.Encoding.no_word {i : Instr} (h : hasWord i = false) : Statement i := fun g => by simp [h] at g

theorem Sys2Proof.Laws.Encoding.contextSave (x0 : BitVec 1) : Statement (.contextSave x0) := no_word rfl

theorem Sys2Proof.Laws.Encoding.contextRestore (x0 : BitVec 1) : Statement (.contextRestore x0) := no_word rfl

theorem Sys2Proof.Laws.Encoding.scalarResultArrival (x0 : BitVec 1) (x1 : BitVec 6) : Statement (.scalarResultArrival x0 x1) := no_word rfl

theorem Sys2Proof.Laws.Encoding.arrayInstructionBegin (x0 : Nat) : Statement (.arrayInstructionBegin x0) := no_word rfl

theorem Sys2Proof.Laws.Encoding.arrayInstructionComplete (x0 : Nat) : Statement (.arrayInstructionComplete x0) := no_word rfl

theorem Sys2Proof.Laws.Encoding.tileAccept (x0 : BitVec 2) (x1 : BitVec 8) : Statement (.tileAccept x0 x1) := no_word rfl

theorem Sys2Proof.Laws.Encoding.tileWordComplete : Statement .tileWordComplete := no_word rfl

theorem Sys2Proof.Laws.Encoding.microThreadRelease (x0 : BitVec 5) : Statement (.microThreadRelease x0) := no_word rfl

theorem Sys2Proof.Laws.Encoding.blockFetch (x0 : BitVec 5) : Statement (.blockFetch x0) := no_word rfl

theorem Sys2Proof.Laws.Encoding.peerFaultInterrupt (x0 : BitVec 1) : Statement (.peerFaultInterrupt x0) := no_word rfl

theorem Sys2Proof.Laws.Encoding.meshInterrupt (x0 : BitVec 1) : Statement (.meshInterrupt x0) := no_word rfl

theorem Sys2Proof.Laws.Encoding.cycleCompare (x0 : BitVec 1) : Statement (.cycleCompare x0) := no_word rfl

theorem Sys2Proof.Laws.Encoding.mailboxInterrupt (x0 : BitVec 1) : Statement (.mailboxInterrupt x0) := no_word rfl

theorem Sys2Proof.Laws.Encoding.faultQueueNonEmpty (x0 : BitVec 1) : Statement (.faultQueueNonEmpty x0) := no_word rfl

theorem Sys2Proof.Laws.Encoding.microThreadSummary (x0 : BitVec 1) : Statement (.microThreadSummary x0) := no_word rfl

theorem Sys2Proof.Laws.Encoding.managementInterrupt (x0 : BitVec 1) : Statement (.managementInterrupt x0) := no_word rfl

theorem Sys2Proof.Laws.Encoding.arrayParityTrap (x0 : BitVec 1) : Statement (.arrayParityTrap x0) := no_word rfl

theorem Sys2Proof.Laws.Encoding.busErrorTrap (x0 : BitVec 1) : Statement (.busErrorTrap x0) := no_word rfl

theorem Sys2Proof.Laws.Encoding.streamFaultTrap (x0 : BitVec 1) : Statement (.streamFaultTrap x0) := no_word rfl

theorem Sys2Proof.Laws.Encoding.directoryOverflowTrap (x0 : BitVec 1) : Statement (.directoryOverflowTrap x0) := no_word rfl

theorem Sys2Proof.Laws.Encoding.microThreadFaultTrap (x0 : BitVec 1) : Statement (.microThreadFaultTrap x0) := no_word rfl

theorem Sys2Proof.Laws.Encoding.sleepWake (x0 : BitVec 1) : Statement (.sleepWake x0) := no_word rfl

theorem Sys2Proof.Laws.Encoding.walkComplete (x0 : BitVec 64) : Statement (.walkComplete x0) := no_word rfl

theorem Sys2Proof.Laws.Encoding.homeReadRequest (x0 : Nat) : Statement (.homeReadRequest x0) := no_word rfl

theorem Sys2Proof.Laws.Encoding.homeWriteArrival (x0 : Option Nat) (x1 : Nat) (x2 : Nat) (x3 : BitVec 64) : Statement (.homeWriteArrival x0 x1 x2 x3) := no_word rfl

theorem Sys2Proof.Laws.Encoding.homeAtomic (x0 : BitVec 5) (x1 : Nat) (x2 : BitVec 64) (x3 : BitVec 64) : Statement (.homeAtomic x0 x1 x2 x3) := no_word rfl

theorem Sys2Proof.Laws.Encoding.monitorMatchReply (x0 : BitVec 1) : Statement (.monitorMatchReply x0) := no_word rfl

theorem Sys2Proof.Laws.Encoding.waitaTimeout (x0 : BitVec 1) : Statement (.waitaTimeout x0) := no_word rfl

theorem Sys2Proof.Laws.Encoding.waitvTimeout (x0 : BitVec 1) : Statement (.waitvTimeout x0) := no_word rfl

theorem Sys2Proof.Laws.Encoding.vstrPacketArrival (x0 : Option Nat) (x1 : Nat) (x2 : BitVec 5) (x3 : BitVec 32) (x4 : BitVec 3) (x5 : Bool) : Statement (.vstrPacketArrival x0 x1 x2 x3 x4 x5) := no_word rfl

theorem Sys2Proof.Laws.Encoding.syncRequestArrival (x0 : BitVec 2) (x1 : Nat) (x2 : BitVec 10) (x3 : BitVec 1) (x4 : BitVec 16) : Statement (.syncRequestArrival x0 x1 x2 x3 x4) := no_word rfl

theorem Sys2Proof.Laws.Encoding.syncGrant (x0 : BitVec 1) : Statement (.syncGrant x0) := no_word rfl

theorem Sys2Proof.Laws.Encoding.copyChunk (x0 : BitVec 6) : Statement (.copyChunk x0) := no_word rfl

theorem Sys2Proof.Laws.Encoding.copyComplete (x0 : BitVec 6) : Statement (.copyComplete x0) := no_word rfl

theorem Sys2Proof.Laws.Encoding.promiseMissed (x0 : BitVec 1) : Statement (.promiseMissed x0) := no_word rfl

theorem Sys2Proof.Laws.Encoding.faultReply (x0 : BitVec 64) : Statement (.faultReply x0) := no_word rfl

theorem Sys2Proof.Laws.Encoding.streamUnit (x0 : BitVec 3) (x1 : Nat) : Statement (.streamUnit x0 x1) := no_word rfl

theorem Sys2Proof.Laws.Encoding.streamComplete (x0 : BitVec 3) : Statement (.streamComplete x0) := no_word rfl

theorem Sys2Proof.Laws.Encoding.scfgInstall (x0 : BitVec 5) : Statement (.scfgInstall x0) := no_word rfl

theorem Sys2Proof.Laws.Encoding.channelMessageDelivery (x0 : Option Nat) (x1 : BitVec 1) (x2 : BitVec 12) (x3 : BitVec 10) (x4 : BitVec 32) (x5 : List (BitVec 8)) : Statement (.channelMessageDelivery x0 x1 x2 x3 x4 x5) := no_word rfl

theorem Sys2Proof.Laws.Encoding.nputLanding (x0 : Option Nat) (x1 : BitVec 4) (x2 : BitVec 22) (x3 : BitVec 12) (x4 : BitVec 10) (x5 : List (BitVec 8)) : Statement (.nputLanding x0 x1 x2 x3 x4 x5) := no_word rfl

theorem Sys2Proof.Laws.Encoding.meshMessageArrival (x0 : Option Nat) (x1 : BitVec 1) (x2 : BitVec 2) (x3 : BitVec 64) (x4 : BitVec 10) : Statement (.meshMessageArrival x0 x1 x2 x3 x4) := no_word rfl

theorem Sys2Proof.Laws.Encoding.preemptMessage (x0 : Option Nat) (x1 : BitVec 64) (x2 : BitVec 10) : Statement (.preemptMessage x0 x1 x2) := no_word rfl

theorem Sys2Proof.Laws.Encoding.spillRedelivery : Statement .spillRedelivery := no_word rfl

theorem Sys2Proof.Laws.Encoding.nodeDispatch (x0 : Nat) : Statement (.nodeDispatch x0) := no_word rfl

theorem Sys2Proof.Laws.Encoding.nodeAging (x0 : BitVec 16) : Statement (.nodeAging x0) := no_word rfl

theorem Sys2Proof.Laws.Encoding.triggerArrival (x0 : BitVec 8) (x1 : Nat) : Statement (.triggerArrival x0 x1) := no_word rfl

theorem Sys2Proof.Laws.Encoding.triggerSpawnRetry (x0 : BitVec 8) : Statement (.triggerSpawnRetry x0) := no_word rfl

theorem Sys2Proof.Laws.Encoding.mailboxRequest (x0 : BitVec 2) (x1 : BitVec 8) (x2 : BitVec 64) : Statement (.mailboxRequest x0 x1 x2) := no_word rfl

theorem Sys2Proof.Laws.Encoding.mailboxNext (x0 : BitVec 2) : Statement (.mailboxNext x0) := no_word rfl

theorem Sys2Proof.Laws.Encoding.mailboxNotify (x0 : BitVec 2) (x1 : BitVec 64) : Statement (.mailboxNotify x0 x1) := no_word rfl

theorem Sys2Proof.Laws.Encoding.faultWindowTake (x0 : BitVec 1) : Statement (.faultWindowTake x0) := no_word rfl

theorem Sys2Proof.Laws.Encoding.faultWindowReply (x0 : BitVec 64) : Statement (.faultWindowReply x0) := no_word rfl

theorem Sys2Proof.Laws.Encoding.directoryTake (x0 : BitVec 8) (x1 : Nat) : Statement (.directoryTake x0 x1) := no_word rfl

theorem Sys2Proof.Laws.Encoding.directoryAck (x0 : BitVec 8) (x1 : BitVec 64) : Statement (.directoryAck x0 x1) := no_word rfl

theorem Sys2Proof.Laws.Encoding.violationLogTake (x0 : BitVec 2) (x1 : Nat) : Statement (.violationLogTake x0 x1) := no_word rfl

theorem Sys2Proof.Laws.Encoding.errorCountersClear (x0 : BitVec 2) : Statement (.errorCountersClear x0) := no_word rfl

theorem Sys2Proof.Laws.Encoding.heatEntryRead (x0 : BitVec 8) (x1 : BitVec 10) : Statement (.heatEntryRead x0 x1) := no_word rfl

theorem Sys2Proof.Laws.Encoding.heatSeedWrite (x0 : BitVec 8) (x1 : BitVec 64) : Statement (.heatSeedWrite x0 x1) := no_word rfl

theorem Sys2Proof.Laws.Encoding.heatClear (x0 : BitVec 8) : Statement (.heatClear x0) := no_word rfl

theorem Sys2Proof.Laws.Encoding.hostFaultTake (x0 : BitVec 2) : Statement (.hostFaultTake x0) := no_word rfl

theorem Sys2Proof.Laws.Encoding.hostFaultReply (x0 : BitVec 2) (x1 : BitVec 64) : Statement (.hostFaultReply x0 x1) := no_word rfl

theorem Sys2Proof.Laws.Encoding.svcRetire (x0 : BitVec 8) (x1 : BitVec 16) : Statement (.svcRetire x0 x1) := no_word rfl

theorem Sys2Proof.Laws.Encoding.svcClear (x0 : BitVec 8) (x1 : BitVec 16) : Statement (.svcClear x0 x1) := no_word rfl

theorem Sys2Proof.Laws.Encoding.svcReleaseHart (x0 : BitVec 16) : Statement (.svcReleaseHart x0) := no_word rfl

theorem Sys2Proof.Laws.Encoding.evlogRead : Statement .evlogRead := no_word rfl

theorem Sys2Proof.Laws.Encoding.codecInstallWrite (x0 : BitVec 4) : Statement (.codecInstallWrite x0) := no_word rfl

theorem Sys2Proof.Laws.Encoding.attestationRequest : Statement .attestationRequest := no_word rfl

theorem Sys2Proof.Laws.Encoding.loadStart : Statement .loadStart := no_word rfl

theorem Sys2Proof.Laws.Encoding.registerWrite (x0 : BitVec 48) (x1 : BitVec 64) : Statement (.registerWrite x0 x1) := no_word rfl

theorem Sys2Proof.Laws.Encoding.deviceReset : Statement .deviceReset := no_word rfl

theorem Sys2Proof.Laws.Encoding.hardwareError (x0 : BitVec 4) (x1 : BitVec 16) (x2 : BitVec 4) : Statement (.hardwareError x0 x1 x2) := no_word rfl

theorem Sys2Proof.Laws.Encoding.relocationStallEnd (x0 : BitVec 7) : Statement (.relocationStallEnd x0) := no_word rfl

theorem Sys2Proof.Laws.Encoding.xratioStallEnd (x0 : BitVec 4) : Statement (.xratioStallEnd x0) := no_word rfl

theorem Sys2Proof.Laws.Encoding.powerComparison (x0 : BitVec 16) (x1 : List (BitVec 16)) : Statement (.powerComparison x0 x1) := no_word rfl

theorem Sys2Proof.Laws.Encoding.codecLearningComplete (x0 : BitVec 4) : Statement (.codecLearningComplete x0) := no_word rfl

theorem Sys2Proof.Laws.Encoding.codecResampleStart (x0 : BitVec 4) : Statement (.codecResampleStart x0) := no_word rfl

theorem Sys2Proof.Laws.Encoding.scrubberRecode (x0 : BitVec 4) (x1 : Nat) (x2 : BitVec 4) : Statement (.scrubberRecode x0 x1 x2) := no_word rfl

theorem Sys2Proof.Laws.Encoding.scrubberPassEnd (x0 : BitVec 4) : Statement (.scrubberPassEnd x0) := no_word rfl

theorem Sys2Proof.Laws.Encoding.codecTableInstall (x0 : BitVec 4) : Statement (.codecTableInstall x0) := no_word rfl

theorem Sys2Proof.Laws.Encoding.illegalInstruction (x0 : BitVec 32) : Statement (.illegalInstruction x0) := no_word rfl

theorem Sys2Proof.Laws.Encoding.instructionFetchFault : Statement .instructionFetchFault := no_word rfl

theorem Sys2Proof.Laws.Encoding.homeAcknowledgement (x0 : BitVec 1) : Statement (.homeAcknowledgement x0) := no_word rfl

theorem Sys2Proof.Laws.Encoding.msixVectorUnmask (x0 : BitVec 9) : Statement (.msixVectorUnmask x0) := no_word rfl

theorem Sys2Proof.Laws.Encoding.add (d : BitVec 7) (a : BitVec 7) (b : BitVec 7) : Statement (.add d a b) := by
  obtain ⟨e, f0, f1, f2, f3, f4⟩ := fields0 (w := encode (.add d a b)) (c0 := 0) (c1 := 1) (by decide) b a d rfl
  refine fun _ => ?_
  generalize encode (.add d a b) = w at *
  simp [raw01 f1, decodeMajor01, f0, f2, f3, f4]

theorem Sys2Proof.Laws.Encoding.sub (d : BitVec 7) (a : BitVec 7) (b : BitVec 7) : Statement (.sub d a b) := by
  obtain ⟨e, f0, f1, f2, f3, f4⟩ := fields0 (w := encode (.sub d a b)) (c0 := 1) (c1 := 1) (by decide) b a d rfl
  refine fun _ => ?_
  generalize encode (.sub d a b) = w at *
  simp [raw01 f1, decodeMajor01, f0, f2, f3, f4]

theorem Sys2Proof.Laws.Encoding.and (d : BitVec 7) (a : BitVec 7) (b : BitVec 7) : Statement (.and d a b) := by
  obtain ⟨e, f0, f1, f2, f3, f4⟩ := fields0 (w := encode (.and d a b)) (c0 := 2) (c1 := 1) (by decide) b a d rfl
  refine fun _ => ?_
  generalize encode (.and d a b) = w at *
  simp [raw01 f1, decodeMajor01, f0, f2, f3, f4]

theorem Sys2Proof.Laws.Encoding.or (d : BitVec 7) (a : BitVec 7) (b : BitVec 7) : Statement (.or d a b) := by
  obtain ⟨e, f0, f1, f2, f3, f4⟩ := fields0 (w := encode (.or d a b)) (c0 := 3) (c1 := 1) (by decide) b a d rfl
  refine fun _ => ?_
  generalize encode (.or d a b) = w at *
  simp [raw01 f1, decodeMajor01, f0, f2, f3, f4]

theorem Sys2Proof.Laws.Encoding.xor (d : BitVec 7) (a : BitVec 7) (b : BitVec 7) : Statement (.xor d a b) := by
  obtain ⟨e, f0, f1, f2, f3, f4⟩ := fields0 (w := encode (.xor d a b)) (c0 := 4) (c1 := 1) (by decide) b a d rfl
  refine fun _ => ?_
  generalize encode (.xor d a b) = w at *
  simp [raw01 f1, decodeMajor01, f0, f2, f3, f4]

theorem Sys2Proof.Laws.Encoding.andn (d : BitVec 7) (a : BitVec 7) (b : BitVec 7) : Statement (.andn d a b) := by
  obtain ⟨e, f0, f1, f2, f3, f4⟩ := fields0 (w := encode (.andn d a b)) (c0 := 5) (c1 := 1) (by decide) b a d rfl
  refine fun _ => ?_
  generalize encode (.andn d a b) = w at *
  simp [raw01 f1, decodeMajor01, f0, f2, f3, f4]

theorem Sys2Proof.Laws.Encoding.sll (d : BitVec 7) (a : BitVec 7) (b : BitVec 7) : Statement (.sll d a b) := by
  obtain ⟨e, f0, f1, f2, f3, f4⟩ := fields0 (w := encode (.sll d a b)) (c0 := 6) (c1 := 1) (by decide) b a d rfl
  refine fun _ => ?_
  generalize encode (.sll d a b) = w at *
  simp [raw01 f1, decodeMajor01, f0, f2, f3, f4]

theorem Sys2Proof.Laws.Encoding.srl (d : BitVec 7) (a : BitVec 7) (b : BitVec 7) : Statement (.srl d a b) := by
  obtain ⟨e, f0, f1, f2, f3, f4⟩ := fields0 (w := encode (.srl d a b)) (c0 := 7) (c1 := 1) (by decide) b a d rfl
  refine fun _ => ?_
  generalize encode (.srl d a b) = w at *
  simp [raw01 f1, decodeMajor01, f0, f2, f3, f4]

theorem Sys2Proof.Laws.Encoding.sra (d : BitVec 7) (a : BitVec 7) (b : BitVec 7) : Statement (.sra d a b) := by
  obtain ⟨e, f0, f1, f2, f3, f4⟩ := fields0 (w := encode (.sra d a b)) (c0 := 8) (c1 := 1) (by decide) b a d rfl
  refine fun _ => ?_
  generalize encode (.sra d a b) = w at *
  simp [raw01 f1, decodeMajor01, f0, f2, f3, f4]

theorem Sys2Proof.Laws.Encoding.slt (d : BitVec 7) (a : BitVec 7) (b : BitVec 7) : Statement (.slt d a b) := by
  obtain ⟨e, f0, f1, f2, f3, f4⟩ := fields0 (w := encode (.slt d a b)) (c0 := 9) (c1 := 1) (by decide) b a d rfl
  refine fun _ => ?_
  generalize encode (.slt d a b) = w at *
  simp [raw01 f1, decodeMajor01, f0, f2, f3, f4]

theorem Sys2Proof.Laws.Encoding.sltn (d : BitVec 7) (a : BitVec 7) (b : BitVec 7) : Statement (.sltn d a b) := by
  obtain ⟨e, f0, f1, f2, f3, f4⟩ := fields0 (w := encode (.sltn d a b)) (c0 := 10) (c1 := 1) (by decide) b a d rfl
  refine fun _ => ?_
  generalize encode (.sltn d a b) = w at *
  simp [raw01 f1, decodeMajor01, f0, f2, f3, f4]

theorem Sys2Proof.Laws.Encoding.min (d : BitVec 7) (a : BitVec 7) (b : BitVec 7) : Statement (.min d a b) := by
  obtain ⟨e, f0, f1, f2, f3, f4⟩ := fields0 (w := encode (.min d a b)) (c0 := 11) (c1 := 1) (by decide) b a d rfl
  refine fun _ => ?_
  generalize encode (.min d a b) = w at *
  simp [raw01 f1, decodeMajor01, f0, f2, f3, f4]

theorem Sys2Proof.Laws.Encoding.max (d : BitVec 7) (a : BitVec 7) (b : BitVec 7) : Statement (.max d a b) := by
  obtain ⟨e, f0, f1, f2, f3, f4⟩ := fields0 (w := encode (.max d a b)) (c0 := 12) (c1 := 1) (by decide) b a d rfl
  refine fun _ => ?_
  generalize encode (.max d a b) = w at *
  simp [raw01 f1, decodeMajor01, f0, f2, f3, f4]

theorem Sys2Proof.Laws.Encoding.minn (d : BitVec 7) (a : BitVec 7) (b : BitVec 7) : Statement (.minn d a b) := by
  obtain ⟨e, f0, f1, f2, f3, f4⟩ := fields0 (w := encode (.minn d a b)) (c0 := 13) (c1 := 1) (by decide) b a d rfl
  refine fun _ => ?_
  generalize encode (.minn d a b) = w at *
  simp [raw01 f1, decodeMajor01, f0, f2, f3, f4]

theorem Sys2Proof.Laws.Encoding.maxn (d : BitVec 7) (a : BitVec 7) (b : BitVec 7) : Statement (.maxn d a b) := by
  obtain ⟨e, f0, f1, f2, f3, f4⟩ := fields0 (w := encode (.maxn d a b)) (c0 := 14) (c1 := 1) (by decide) b a d rfl
  refine fun _ => ?_
  generalize encode (.maxn d a b) = w at *
  simp [raw01 f1, decodeMajor01, f0, f2, f3, f4]

theorem Sys2Proof.Laws.Encoding.addw (d : BitVec 7) (a : BitVec 7) (b : BitVec 7) : Statement (.addw d a b) := by
  obtain ⟨e, f0, f1, f2, f3, f4⟩ := fields0 (w := encode (.addw d a b)) (c0 := 15) (c1 := 1) (by decide) b a d rfl
  refine fun _ => ?_
  generalize encode (.addw d a b) = w at *
  simp [raw01 f1, decodeMajor01, f0, f2, f3, f4]

theorem Sys2Proof.Laws.Encoding.subw (d : BitVec 7) (a : BitVec 7) (b : BitVec 7) : Statement (.subw d a b) := by
  obtain ⟨e, f0, f1, f2, f3, f4⟩ := fields0 (w := encode (.subw d a b)) (c0 := 16) (c1 := 1) (by decide) b a d rfl
  refine fun _ => ?_
  generalize encode (.subw d a b) = w at *
  simp [raw01 f1, decodeMajor01, f0, f2, f3, f4]

theorem Sys2Proof.Laws.Encoding.cmov (d : BitVec 7) (a : BitVec 7) (b : BitVec 7) : Statement (.cmov d a b) := by
  obtain ⟨e, f0, f1, f2, f3, f4⟩ := fields0 (w := encode (.cmov d a b)) (c0 := 17) (c1 := 1) (by decide) b a d rfl
  refine fun _ => ?_
  generalize encode (.cmov d a b) = w at *
  simp [raw01 f1, decodeMajor01, f0, f2, f3, f4]

theorem Sys2Proof.Laws.Encoding.mul (d : BitVec 7) (a : BitVec 7) (b : BitVec 7) : Statement (.mul d a b) := by
  obtain ⟨e, f0, f1, f2, f3, f4⟩ := fields0 (w := encode (.mul d a b)) (c0 := 0) (c1 := 2) (by decide) b a d rfl
  refine fun _ => ?_
  generalize encode (.mul d a b) = w at *
  simp [raw02 f1, decodeMajor02, f0, f2, f3, f4]

theorem Sys2Proof.Laws.Encoding.mulh (d : BitVec 7) (a : BitVec 7) (b : BitVec 7) : Statement (.mulh d a b) := by
  obtain ⟨e, f0, f1, f2, f3, f4⟩ := fields0 (w := encode (.mulh d a b)) (c0 := 1) (c1 := 2) (by decide) b a d rfl
  refine fun _ => ?_
  generalize encode (.mulh d a b) = w at *
  simp [raw02 f1, decodeMajor02, f0, f2, f3, f4]

theorem Sys2Proof.Laws.Encoding.mulhn (d : BitVec 7) (a : BitVec 7) (b : BitVec 7) : Statement (.mulhn d a b) := by
  obtain ⟨e, f0, f1, f2, f3, f4⟩ := fields0 (w := encode (.mulhn d a b)) (c0 := 2) (c1 := 2) (by decide) b a d rfl
  refine fun _ => ?_
  generalize encode (.mulhn d a b) = w at *
  simp [raw02 f1, decodeMajor02, f0, f2, f3, f4]

theorem Sys2Proof.Laws.Encoding.div (d : BitVec 7) (a : BitVec 7) (b : BitVec 7) : Statement (.div d a b) := by
  obtain ⟨e, f0, f1, f2, f3, f4⟩ := fields0 (w := encode (.div d a b)) (c0 := 3) (c1 := 2) (by decide) b a d rfl
  refine fun _ => ?_
  generalize encode (.div d a b) = w at *
  simp [raw02 f1, decodeMajor02, f0, f2, f3, f4]

theorem Sys2Proof.Laws.Encoding.divn (d : BitVec 7) (a : BitVec 7) (b : BitVec 7) : Statement (.divn d a b) := by
  obtain ⟨e, f0, f1, f2, f3, f4⟩ := fields0 (w := encode (.divn d a b)) (c0 := 4) (c1 := 2) (by decide) b a d rfl
  refine fun _ => ?_
  generalize encode (.divn d a b) = w at *
  simp [raw02 f1, decodeMajor02, f0, f2, f3, f4]

theorem Sys2Proof.Laws.Encoding.rem (d : BitVec 7) (a : BitVec 7) (b : BitVec 7) : Statement (.rem d a b) := by
  obtain ⟨e, f0, f1, f2, f3, f4⟩ := fields0 (w := encode (.rem d a b)) (c0 := 5) (c1 := 2) (by decide) b a d rfl
  refine fun _ => ?_
  generalize encode (.rem d a b) = w at *
  simp [raw02 f1, decodeMajor02, f0, f2, f3, f4]

theorem Sys2Proof.Laws.Encoding.remn (d : BitVec 7) (a : BitVec 7) (b : BitVec 7) : Statement (.remn d a b) := by
  obtain ⟨e, f0, f1, f2, f3, f4⟩ := fields0 (w := encode (.remn d a b)) (c0 := 6) (c1 := 2) (by decide) b a d rfl
  refine fun _ => ?_
  generalize encode (.remn d a b) = w at *
  simp [raw02 f1, decodeMajor02, f0, f2, f3, f4]

theorem Sys2Proof.Laws.Encoding.clz (d : BitVec 7) (a : BitVec 7) : Statement (.clz d a) := by
  obtain ⟨e, f0, f1, f2, f3⟩ := fields1 (w := encode (.clz d a)) (c0 := 8) (c1 := 2) (by decide) a d rfl
  refine fun _ => ?_
  generalize encode (.clz d a) = w at *
  have := d.isLt
  have := a.isLt
  have g0 := eqc (w := w) (lo := 0) (n := 5) (v := 8) (by rw [e] <;> omega)
  simp [raw02 f1, decodeMajor02, f0, f2, f3, g0]

theorem Sys2Proof.Laws.Encoding.ctz (d : BitVec 7) (a : BitVec 7) : Statement (.ctz d a) := by
  obtain ⟨e, f0, f1, f2, f3⟩ := fields1 (w := encode (.ctz d a)) (c0 := 9) (c1 := 2) (by decide) a d rfl
  refine fun _ => ?_
  generalize encode (.ctz d a) = w at *
  have := d.isLt
  have := a.isLt
  have g0 := eqc (w := w) (lo := 0) (n := 5) (v := 9) (by rw [e] <;> omega)
  simp [raw02 f1, decodeMajor02, f0, f2, f3, g0]

theorem Sys2Proof.Laws.Encoding.popc (d : BitVec 7) (a : BitVec 7) : Statement (.popc d a) := by
  obtain ⟨e, f0, f1, f2, f3⟩ := fields1 (w := encode (.popc d a)) (c0 := 10) (c1 := 2) (by decide) a d rfl
  refine fun _ => ?_
  generalize encode (.popc d a) = w at *
  have := d.isLt
  have := a.isLt
  have g0 := eqc (w := w) (lo := 0) (n := 5) (v := 10) (by rw [e] <;> omega)
  simp [raw02 f1, decodeMajor02, f0, f2, f3, g0]

theorem Sys2Proof.Laws.Encoding.rev (d : BitVec 7) (a : BitVec 7) : Statement (.rev d a) := by
  obtain ⟨e, f0, f1, f2, f3⟩ := fields1 (w := encode (.rev d a)) (c0 := 11) (c1 := 2) (by decide) a d rfl
  refine fun _ => ?_
  generalize encode (.rev d a) = w at *
  have := d.isLt
  have := a.isLt
  have g0 := eqc (w := w) (lo := 0) (n := 5) (v := 11) (by rw [e] <;> omega)
  simp [raw02 f1, decodeMajor02, f0, f2, f3, g0]

theorem Sys2Proof.Laws.Encoding.bswap (d : BitVec 7) (a : BitVec 7) : Statement (.bswap d a) := by
  obtain ⟨e, f0, f1, f2, f3⟩ := fields1 (w := encode (.bswap d a)) (c0 := 12) (c1 := 2) (by decide) a d rfl
  refine fun _ => ?_
  generalize encode (.bswap d a) = w at *
  have := d.isLt
  have := a.isLt
  have g0 := eqc (w := w) (lo := 0) (n := 5) (v := 12) (by rw [e] <;> omega)
  simp [raw02 f1, decodeMajor02, f0, f2, f3, g0]

theorem Sys2Proof.Laws.Encoding.rotl (d : BitVec 7) (a : BitVec 7) (b : BitVec 7) : Statement (.rotl d a b) := by
  obtain ⟨e, f0, f1, f2, f3, f4⟩ := fields0 (w := encode (.rotl d a b)) (c0 := 13) (c1 := 2) (by decide) b a d rfl
  refine fun _ => ?_
  generalize encode (.rotl d a b) = w at *
  have := d.isLt
  have := a.isLt
  have := b.isLt
  have g0 := nec (w := w) (lo := 0) (n := 12) (v := 8) (by decide) (by rw [e] <;> omega)
  have g1 := nec (w := w) (lo := 0) (n := 12) (v := 9) (by decide) (by rw [e] <;> omega)
  have g2 := nec (w := w) (lo := 0) (n := 12) (v := 10) (by decide) (by rw [e] <;> omega)
  have g3 := nec (w := w) (lo := 0) (n := 12) (v := 11) (by decide) (by rw [e] <;> omega)
  have g4 := nec (w := w) (lo := 0) (n := 12) (v := 12) (by decide) (by rw [e] <;> omega)
  simp [raw02 f1, decodeMajor02, f0, f2, f3, f4, g0, g1, g2, g3, g4]

theorem Sys2Proof.Laws.Encoding.rotr (d : BitVec 7) (a : BitVec 7) (b : BitVec 7) : Statement (.rotr d a b) := by
  obtain ⟨e, f0, f1, f2, f3, f4⟩ := fields0 (w := encode (.rotr d a b)) (c0 := 14) (c1 := 2) (by decide) b a d rfl
  refine fun _ => ?_
  generalize encode (.rotr d a b) = w at *
  have := d.isLt
  have := a.isLt
  have := b.isLt
  have g0 := nec (w := w) (lo := 0) (n := 12) (v := 8) (by decide) (by rw [e] <;> omega)
  have g1 := nec (w := w) (lo := 0) (n := 12) (v := 9) (by decide) (by rw [e] <;> omega)
  have g2 := nec (w := w) (lo := 0) (n := 12) (v := 10) (by decide) (by rw [e] <;> omega)
  have g3 := nec (w := w) (lo := 0) (n := 12) (v := 11) (by decide) (by rw [e] <;> omega)
  have g4 := nec (w := w) (lo := 0) (n := 12) (v := 12) (by decide) (by rw [e] <;> omega)
  simp [raw02 f1, decodeMajor02, f0, f2, f3, f4, g0, g1, g2, g3, g4]

theorem Sys2Proof.Laws.Encoding.fadd (d : BitVec 7) (a : BitVec 7) (b : BitVec 7) : Statement (.fadd d a b) := by
  obtain ⟨e, f0, f1, f2, f3, f4⟩ := fields0 (w := encode (.fadd d a b)) (c0 := 0) (c1 := 3) (by decide) b a d rfl
  refine fun _ => ?_
  generalize encode (.fadd d a b) = w at *
  simp [raw03 f1, decodeMajor03, f0, f2, f3, f4]

theorem Sys2Proof.Laws.Encoding.fsub (d : BitVec 7) (a : BitVec 7) (b : BitVec 7) : Statement (.fsub d a b) := by
  obtain ⟨e, f0, f1, f2, f3, f4⟩ := fields0 (w := encode (.fsub d a b)) (c0 := 1) (c1 := 3) (by decide) b a d rfl
  refine fun _ => ?_
  generalize encode (.fsub d a b) = w at *
  simp [raw03 f1, decodeMajor03, f0, f2, f3, f4]

theorem Sys2Proof.Laws.Encoding.fmul (d : BitVec 7) (a : BitVec 7) (b : BitVec 7) : Statement (.fmul d a b) := by
  obtain ⟨e, f0, f1, f2, f3, f4⟩ := fields0 (w := encode (.fmul d a b)) (c0 := 2) (c1 := 3) (by decide) b a d rfl
  refine fun _ => ?_
  generalize encode (.fmul d a b) = w at *
  simp [raw03 f1, decodeMajor03, f0, f2, f3, f4]

theorem Sys2Proof.Laws.Encoding.fdiv (d : BitVec 7) (a : BitVec 7) (b : BitVec 7) : Statement (.fdiv d a b) := by
  obtain ⟨e, f0, f1, f2, f3, f4⟩ := fields0 (w := encode (.fdiv d a b)) (c0 := 3) (c1 := 3) (by decide) b a d rfl
  refine fun _ => ?_
  generalize encode (.fdiv d a b) = w at *
  simp [raw03 f1, decodeMajor03, f0, f2, f3, f4]

theorem Sys2Proof.Laws.Encoding.fma (d : BitVec 7) (a : BitVec 7) (b : BitVec 7) : Statement (.fma d a b) := by
  obtain ⟨e, f0, f1, f2, f3, f4⟩ := fields0 (w := encode (.fma d a b)) (c0 := 4) (c1 := 3) (by decide) b a d rfl
  refine fun _ => ?_
  generalize encode (.fma d a b) = w at *
  simp [raw03 f1, decodeMajor03, f0, f2, f3, f4]

theorem Sys2Proof.Laws.Encoding.fmin (d : BitVec 7) (a : BitVec 7) (b : BitVec 7) : Statement (.fmin d a b) := by
  obtain ⟨e, f0, f1, f2, f3, f4⟩ := fields0 (w := encode (.fmin d a b)) (c0 := 5) (c1 := 3) (by decide) b a d rfl
  refine fun _ => ?_
  generalize encode (.fmin d a b) = w at *
  simp [raw03 f1, decodeMajor03, f0, f2, f3, f4]

theorem Sys2Proof.Laws.Encoding.fmax (d : BitVec 7) (a : BitVec 7) (b : BitVec 7) : Statement (.fmax d a b) := by
  obtain ⟨e, f0, f1, f2, f3, f4⟩ := fields0 (w := encode (.fmax d a b)) (c0 := 6) (c1 := 3) (by decide) b a d rfl
  refine fun _ => ?_
  generalize encode (.fmax d a b) = w at *
  simp [raw03 f1, decodeMajor03, f0, f2, f3, f4]

theorem Sys2Proof.Laws.Encoding.fsqrt (d : BitVec 7) (a : BitVec 7) : Statement (.fsqrt d a) := by
  obtain ⟨e, f0, f1, f2, f3⟩ := fields1 (w := encode (.fsqrt d a)) (c0 := 7) (c1 := 3) (by decide) a d rfl
  refine fun _ => ?_
  generalize encode (.fsqrt d a) = w at *
  have := d.isLt
  have := a.isLt
  have g0 := eqc (w := w) (lo := 0) (n := 5) (v := 7) (by rw [e] <;> omega)
  simp [raw03 f1, decodeMajor03, f0, f2, f3, g0]

theorem Sys2Proof.Laws.Encoding.feq (d : BitVec 7) (a : BitVec 7) (b : BitVec 7) : Statement (.feq d a b) := by
  obtain ⟨e, f0, f1, f2, f3, f4⟩ := fields0 (w := encode (.feq d a b)) (c0 := 8) (c1 := 3) (by decide) b a d rfl
  refine fun _ => ?_
  generalize encode (.feq d a b) = w at *
  have := d.isLt
  have := a.isLt
  have := b.isLt
  have g0 := nec (w := w) (lo := 0) (n := 12) (v := 7) (by decide) (by rw [e] <;> omega)
  simp [raw03 f1, decodeMajor03, f0, f2, f3, f4, g0]

theorem Sys2Proof.Laws.Encoding.flt (d : BitVec 7) (a : BitVec 7) (b : BitVec 7) : Statement (.flt d a b) := by
  obtain ⟨e, f0, f1, f2, f3, f4⟩ := fields0 (w := encode (.flt d a b)) (c0 := 9) (c1 := 3) (by decide) b a d rfl
  refine fun _ => ?_
  generalize encode (.flt d a b) = w at *
  have := d.isLt
  have := a.isLt
  have := b.isLt
  have g0 := nec (w := w) (lo := 0) (n := 12) (v := 7) (by decide) (by rw [e] <;> omega)
  simp [raw03 f1, decodeMajor03, f0, f2, f3, f4, g0]

theorem Sys2Proof.Laws.Encoding.fle (d : BitVec 7) (a : BitVec 7) (b : BitVec 7) : Statement (.fle d a b) := by
  obtain ⟨e, f0, f1, f2, f3, f4⟩ := fields0 (w := encode (.fle d a b)) (c0 := 10) (c1 := 3) (by decide) b a d rfl
  refine fun _ => ?_
  generalize encode (.fle d a b) = w at *
  have := d.isLt
  have := a.isLt
  have := b.isLt
  have g0 := nec (w := w) (lo := 0) (n := 12) (v := 7) (by decide) (by rw [e] <;> omega)
  simp [raw03 f1, decodeMajor03, f0, f2, f3, f4, g0]

theorem Sys2Proof.Laws.Encoding.fcvtis (d : BitVec 7) (a : BitVec 7) : Statement (.fcvtis d a) := by
  obtain ⟨e, f0, f1, f2, f3⟩ := fields1 (w := encode (.fcvtis d a)) (c0 := 11) (c1 := 3) (by decide) a d rfl
  refine fun _ => ?_
  generalize encode (.fcvtis d a) = w at *
  have := d.isLt
  have := a.isLt
  have g0 := eqc (w := w) (lo := 0) (n := 5) (v := 11) (by rw [e] <;> omega)
  simp [raw03 f1, decodeMajor03, f0, f2, f3, g0]

theorem Sys2Proof.Laws.Encoding.fcvtsi (d : BitVec 7) (a : BitVec 7) : Statement (.fcvtsi d a) := by
  obtain ⟨e, f0, f1, f2, f3⟩ := fields1 (w := encode (.fcvtsi d a)) (c0 := 12) (c1 := 3) (by decide) a d rfl
  refine fun _ => ?_
  generalize encode (.fcvtsi d a) = w at *
  have := d.isLt
  have := a.isLt
  have g0 := eqc (w := w) (lo := 0) (n := 5) (v := 12) (by rw [e] <;> omega)
  simp [raw03 f1, decodeMajor03, f0, f2, f3, g0]

theorem Sys2Proof.Laws.Encoding.fclass (d : BitVec 7) (a : BitVec 7) : Statement (.fclass d a) := by
  obtain ⟨e, f0, f1, f2, f3⟩ := fields1 (w := encode (.fclass d a)) (c0 := 13) (c1 := 3) (by decide) a d rfl
  refine fun _ => ?_
  generalize encode (.fclass d a) = w at *
  have := d.isLt
  have := a.isLt
  have g0 := eqc (w := w) (lo := 0) (n := 5) (v := 13) (by rw [e] <;> omega)
  simp [raw03 f1, decodeMajor03, f0, f2, f3, g0]

theorem Sys2Proof.Laws.Encoding.fcvtbf (d : BitVec 7) (a : BitVec 7) : Statement (.fcvtbf d a) := by
  obtain ⟨e, f0, f1, f2, f3⟩ := fields1 (w := encode (.fcvtbf d a)) (c0 := 14) (c1 := 3) (by decide) a d rfl
  refine fun _ => ?_
  generalize encode (.fcvtbf d a) = w at *
  have := d.isLt
  have := a.isLt
  have g0 := eqc (w := w) (lo := 0) (n := 5) (v := 14) (by rw [e] <;> omega)
  simp [raw03 f1, decodeMajor03, f0, f2, f3, g0]

theorem Sys2Proof.Laws.Encoding.fcvtfb (d : BitVec 7) (a : BitVec 7) : Statement (.fcvtfb d a) := by
  obtain ⟨e, f0, f1, f2, f3⟩ := fields1 (w := encode (.fcvtfb d a)) (c0 := 15) (c1 := 3) (by decide) a d rfl
  refine fun _ => ?_
  generalize encode (.fcvtfb d a) = w at *
  have := d.isLt
  have := a.isLt
  have g0 := eqc (w := w) (lo := 0) (n := 5) (v := 15) (by rw [e] <;> omega)
  simp [raw03 f1, decodeMajor03, f0, f2, f3, g0]

theorem Sys2Proof.Laws.Encoding.addi (d : BitVec 7) (a : BitVec 7) (i : BitVec 12) : Statement (.addi d a i) := by
  obtain ⟨e, f0, f1, f2, f3⟩ := fields2 (w := encode (.addi d a i)) (c0 := 4) (by decide) i a d rfl
  refine fun _ => ?_
  generalize encode (.addi d a i) = w at *
  simp only [raw04 f0, decodeMajor04, f1, f2, f3]

theorem Sys2Proof.Laws.Encoding.andi (d : BitVec 7) (a : BitVec 7) (i : BitVec 12) : Statement (.andi d a i) := by
  obtain ⟨e, f0, f1, f2, f3⟩ := fields2 (w := encode (.andi d a i)) (c0 := 5) (by decide) i a d rfl
  refine fun _ => ?_
  generalize encode (.andi d a i) = w at *
  simp only [raw05 f0, decodeMajor05, f1, f2, f3]

theorem Sys2Proof.Laws.Encoding.ori (d : BitVec 7) (a : BitVec 7) (i : BitVec 12) : Statement (.ori d a i) := by
  obtain ⟨e, f0, f1, f2, f3⟩ := fields2 (w := encode (.ori d a i)) (c0 := 6) (by decide) i a d rfl
  refine fun _ => ?_
  generalize encode (.ori d a i) = w at *
  simp only [raw06 f0, decodeMajor06, f1, f2, f3]

theorem Sys2Proof.Laws.Encoding.xori (d : BitVec 7) (a : BitVec 7) (i : BitVec 12) : Statement (.xori d a i) := by
  obtain ⟨e, f0, f1, f2, f3⟩ := fields2 (w := encode (.xori d a i)) (c0 := 7) (by decide) i a d rfl
  refine fun _ => ?_
  generalize encode (.xori d a i) = w at *
  simp only [raw07 f0, decodeMajor07, f1, f2, f3]

theorem Sys2Proof.Laws.Encoding.slli (d : BitVec 7) (a : BitVec 7) (n : BitVec 6) : Statement (.slli d a n) := by
  obtain ⟨e, f0, f1, f2, f3, f4⟩ := fields3 (w := encode (.slli d a n)) (c0 := 0) (c1 := 8) (by decide) n a d rfl
  refine fun _ => ?_
  generalize encode (.slli d a n) = w at *
  simp [raw08 f1, decodeMajor08, f0, f2, f3, f4]

theorem Sys2Proof.Laws.Encoding.srli (d : BitVec 7) (a : BitVec 7) (n : BitVec 6) : Statement (.srli d a n) := by
  obtain ⟨e, f0, f1, f2, f3, f4⟩ := fields3 (w := encode (.srli d a n)) (c0 := 16) (c1 := 8) (by decide) n a d rfl
  refine fun _ => ?_
  generalize encode (.srli d a n) = w at *
  simp [raw08 f1, decodeMajor08, f0, f2, f3, f4]

theorem Sys2Proof.Laws.Encoding.srai (d : BitVec 7) (a : BitVec 7) (n : BitVec 6) : Statement (.srai d a n) := by
  obtain ⟨e, f0, f1, f2, f3, f4⟩ := fields3 (w := encode (.srai d a n)) (c0 := 32) (c1 := 8) (by decide) n a d rfl
  refine fun _ => ?_
  generalize encode (.srai d a n) = w at *
  simp [raw08 f1, decodeMajor08, f0, f2, f3, f4]

theorem Sys2Proof.Laws.Encoding.slti (d : BitVec 7) (a : BitVec 7) (i : BitVec 12) : Statement (.slti d a i) := by
  obtain ⟨e, f0, f1, f2, f3⟩ := fields2 (w := encode (.slti d a i)) (c0 := 9) (by decide) i a d rfl
  refine fun _ => ?_
  generalize encode (.slti d a i) = w at *
  simp only [raw09 f0, decodeMajor09, f1, f2, f3]

theorem Sys2Proof.Laws.Encoding.lih (d : BitVec 7) (i : BitVec 19) : Statement (.lih d i) := by
  obtain ⟨e, f0, f1, f2⟩ := fields4 (w := encode (.lih d i)) (c0 := 10) (by decide) i d rfl
  refine fun _ => ?_
  generalize encode (.lih d i) = w at *
  simp only [raw0A f0, decodeMajor0A, f1, f2]

theorem Sys2Proof.Laws.Encoding.auip (d : BitVec 7) (i : BitVec 19) : Statement (.auip d i) := by
  obtain ⟨e, f0, f1, f2⟩ := fields4 (w := encode (.auip d i)) (c0 := 11) (by decide) i d rfl
  refine fun _ => ?_
  generalize encode (.auip d i) = w at *
  simp only [raw0B f0, decodeMajor0B, f1, f2]

theorem Sys2Proof.Laws.Encoding.jal (i : BitVec 26) : Statement (.jal i) := by
  obtain ⟨e, f0, f1⟩ := fields5 (w := encode (.jal i)) (c0 := 12) (by decide) i rfl
  refine fun _ => ?_
  generalize encode (.jal i) = w at *
  simp only [raw0C f0, decodeMajor0C, f1]

theorem Sys2Proof.Laws.Encoding.jalr (d : BitVec 7) (a : BitVec 7) (i : BitVec 12) : Statement (.jalr d a i) := by
  obtain ⟨e, f0, f1, f2, f3⟩ := fields2 (w := encode (.jalr d a i)) (c0 := 13) (by decide) i a d rfl
  refine fun _ => ?_
  generalize encode (.jalr d a i) = w at *
  simp only [raw0D f0, decodeMajor0D, f1, f2, f3]

theorem Sys2Proof.Laws.Encoding.beq (i : BitVec 7) (a : BitVec 7) (b : BitVec 7) (i2 : BitVec 5) : Statement (.beq i a b i2) := by
  obtain ⟨e, f0, f1, f2, f3, f4⟩ := fields6 (w := encode (.beq i a b i2)) (c0 := 14) (by decide) i2 b a i rfl
  refine fun _ => ?_
  generalize encode (.beq i a b i2) = w at *
  simp only [raw0E f0, decodeMajor0E, f1, f2, f3, f4]

theorem Sys2Proof.Laws.Encoding.bne (i : BitVec 7) (a : BitVec 7) (b : BitVec 7) (i2 : BitVec 5) : Statement (.bne i a b i2) := by
  obtain ⟨e, f0, f1, f2, f3, f4⟩ := fields6 (w := encode (.bne i a b i2)) (c0 := 15) (by decide) i2 b a i rfl
  refine fun _ => ?_
  generalize encode (.bne i a b i2) = w at *
  simp only [raw0F f0, decodeMajor0F, f1, f2, f3, f4]

theorem Sys2Proof.Laws.Encoding.blt (i : BitVec 7) (a : BitVec 7) (b : BitVec 7) (i2 : BitVec 5) : Statement (.blt i a b i2) := by
  obtain ⟨e, f0, f1, f2, f3, f4⟩ := fields6 (w := encode (.blt i a b i2)) (c0 := 16) (by decide) i2 b a i rfl
  refine fun _ => ?_
  generalize encode (.blt i a b i2) = w at *
  simp only [raw10 f0, decodeMajor10, f1, f2, f3, f4]

theorem Sys2Proof.Laws.Encoding.bge (i : BitVec 7) (a : BitVec 7) (b : BitVec 7) (i2 : BitVec 5) : Statement (.bge i a b i2) := by
  obtain ⟨e, f0, f1, f2, f3, f4⟩ := fields6 (w := encode (.bge i a b i2)) (c0 := 17) (by decide) i2 b a i rfl
  refine fun _ => ?_
  generalize encode (.bge i a b i2) = w at *
  simp only [raw11 f0, decodeMajor11, f1, f2, f3, f4]

theorem Sys2Proof.Laws.Encoding.bltn (i : BitVec 7) (a : BitVec 7) (b : BitVec 7) (i2 : BitVec 5) : Statement (.bltn i a b i2) := by
  obtain ⟨e, f0, f1, f2, f3, f4⟩ := fields6 (w := encode (.bltn i a b i2)) (c0 := 18) (by decide) i2 b a i rfl
  refine fun _ => ?_
  generalize encode (.bltn i a b i2) = w at *
  simp only [raw12 f0, decodeMajor12, f1, f2, f3, f4]

theorem Sys2Proof.Laws.Encoding.bgen (i : BitVec 7) (a : BitVec 7) (b : BitVec 7) (i2 : BitVec 5) : Statement (.bgen i a b i2) := by
  obtain ⟨e, f0, f1, f2, f3, f4⟩ := fields6 (w := encode (.bgen i a b i2)) (c0 := 19) (by decide) i2 b a i rfl
  refine fun _ => ?_
  generalize encode (.bgen i a b i2) = w at *
  simp only [raw13 f0, decodeMajor13, f1, f2, f3, f4]

theorem Sys2Proof.Laws.Encoding.lb (d : BitVec 7) (a : BitVec 7) (i : BitVec 9) : Statement (.lb d a i) := by
  obtain ⟨e, f0, f1, f2, f3, f4⟩ := fields7 (w := encode (.lb d a i)) (c0 := 0) (c1 := 20) (by decide) i a d rfl
  refine fun _ => ?_
  generalize encode (.lb d a i) = w at *
  simp [raw14 f1, decodeMajor14, f0, f2, f3, f4]

theorem Sys2Proof.Laws.Encoding.lh (d : BitVec 7) (a : BitVec 7) (i : BitVec 9) : Statement (.lh d a i) := by
  obtain ⟨e, f0, f1, f2, f3, f4⟩ := fields7 (w := encode (.lh d a i)) (c0 := 1) (c1 := 20) (by decide) i a d rfl
  refine fun _ => ?_
  generalize encode (.lh d a i) = w at *
  simp [raw14 f1, decodeMajor14, f0, f2, f3, f4]

theorem Sys2Proof.Laws.Encoding.lw (d : BitVec 7) (a : BitVec 7) (i : BitVec 9) : Statement (.lw d a i) := by
  obtain ⟨e, f0, f1, f2, f3, f4⟩ := fields7 (w := encode (.lw d a i)) (c0 := 2) (c1 := 20) (by decide) i a d rfl
  refine fun _ => ?_
  generalize encode (.lw d a i) = w at *
  simp [raw14 f1, decodeMajor14, f0, f2, f3, f4]

theorem Sys2Proof.Laws.Encoding.ld (d : BitVec 7) (a : BitVec 7) (i : BitVec 9) : Statement (.ld d a i) := by
  obtain ⟨e, f0, f1, f2, f3, f4⟩ := fields7 (w := encode (.ld d a i)) (c0 := 3) (c1 := 20) (by decide) i a d rfl
  refine fun _ => ?_
  generalize encode (.ld d a i) = w at *
  simp [raw14 f1, decodeMajor14, f0, f2, f3, f4]

theorem Sys2Proof.Laws.Encoding.lbz (d : BitVec 7) (a : BitVec 7) (i : BitVec 9) : Statement (.lbz d a i) := by
  obtain ⟨e, f0, f1, f2, f3, f4⟩ := fields7 (w := encode (.lbz d a i)) (c0 := 4) (c1 := 20) (by decide) i a d rfl
  refine fun _ => ?_
  generalize encode (.lbz d a i) = w at *
  simp [raw14 f1, decodeMajor14, f0, f2, f3, f4]

theorem Sys2Proof.Laws.Encoding.lhz (d : BitVec 7) (a : BitVec 7) (i : BitVec 9) : Statement (.lhz d a i) := by
  obtain ⟨e, f0, f1, f2, f3, f4⟩ := fields7 (w := encode (.lhz d a i)) (c0 := 5) (c1 := 20) (by decide) i a d rfl
  refine fun _ => ?_
  generalize encode (.lhz d a i) = w at *
  simp [raw14 f1, decodeMajor14, f0, f2, f3, f4]

theorem Sys2Proof.Laws.Encoding.lwz (d : BitVec 7) (a : BitVec 7) (i : BitVec 9) : Statement (.lwz d a i) := by
  obtain ⟨e, f0, f1, f2, f3, f4⟩ := fields7 (w := encode (.lwz d a i)) (c0 := 6) (c1 := 20) (by decide) i a d rfl
  refine fun _ => ?_
  generalize encode (.lwz d a i) = w at *
  simp [raw14 f1, decodeMajor14, f0, f2, f3, f4]

theorem Sys2Proof.Laws.Encoding.sb (s : BitVec 7) (a : BitVec 7) (i : BitVec 9) : Statement (.sb s a i) := by
  obtain ⟨e, f0, f1, f2, f3, f4⟩ := fields7 (w := encode (.sb s a i)) (c0 := 0) (c1 := 21) (by decide) i a s rfl
  refine fun _ => ?_
  generalize encode (.sb s a i) = w at *
  simp [raw15 f1, decodeMajor15, f0, f2, f3, f4]

theorem Sys2Proof.Laws.Encoding.sh (s : BitVec 7) (a : BitVec 7) (i : BitVec 9) : Statement (.sh s a i) := by
  obtain ⟨e, f0, f1, f2, f3, f4⟩ := fields7 (w := encode (.sh s a i)) (c0 := 1) (c1 := 21) (by decide) i a s rfl
  refine fun _ => ?_
  generalize encode (.sh s a i) = w at *
  simp [raw15 f1, decodeMajor15, f0, f2, f3, f4]

theorem Sys2Proof.Laws.Encoding.sw (s : BitVec 7) (a : BitVec 7) (i : BitVec 9) : Statement (.sw s a i) := by
  obtain ⟨e, f0, f1, f2, f3, f4⟩ := fields7 (w := encode (.sw s a i)) (c0 := 2) (c1 := 21) (by decide) i a s rfl
  refine fun _ => ?_
  generalize encode (.sw s a i) = w at *
  simp [raw15 f1, decodeMajor15, f0, f2, f3, f4]

theorem Sys2Proof.Laws.Encoding.sd (s : BitVec 7) (a : BitVec 7) (i : BitVec 9) : Statement (.sd s a i) := by
  obtain ⟨e, f0, f1, f2, f3, f4⟩ := fields7 (w := encode (.sd s a i)) (c0 := 3) (c1 := 21) (by decide) i a s rfl
  refine fun _ => ?_
  generalize encode (.sd s a i) = w at *
  simp [raw15 f1, decodeMajor15, f0, f2, f3, f4]

theorem Sys2Proof.Laws.Encoding.aadd (d : BitVec 7) (a : BitVec 7) (b : BitVec 7) : Statement (.aadd d a b) := by
  obtain ⟨e, f0, f1, f2, f3, f4⟩ := fields0 (w := encode (.aadd d a b)) (c0 := 0) (c1 := 22) (by decide) b a d rfl
  refine fun _ => ?_
  generalize encode (.aadd d a b) = w at *
  simp [raw16 f1, decodeMajor16, f0, f2, f3, f4]

theorem Sys2Proof.Laws.Encoding.aswap (d : BitVec 7) (a : BitVec 7) (b : BitVec 7) : Statement (.aswap d a b) := by
  obtain ⟨e, f0, f1, f2, f3, f4⟩ := fields0 (w := encode (.aswap d a b)) (c0 := 1) (c1 := 22) (by decide) b a d rfl
  refine fun _ => ?_
  generalize encode (.aswap d a b) = w at *
  simp [raw16 f1, decodeMajor16, f0, f2, f3, f4]

theorem Sys2Proof.Laws.Encoding.aand (d : BitVec 7) (a : BitVec 7) (b : BitVec 7) : Statement (.aand d a b) := by
  obtain ⟨e, f0, f1, f2, f3, f4⟩ := fields0 (w := encode (.aand d a b)) (c0 := 2) (c1 := 22) (by decide) b a d rfl
  refine fun _ => ?_
  generalize encode (.aand d a b) = w at *
  simp [raw16 f1, decodeMajor16, f0, f2, f3, f4]

theorem Sys2Proof.Laws.Encoding.aor (d : BitVec 7) (a : BitVec 7) (b : BitVec 7) : Statement (.aor d a b) := by
  obtain ⟨e, f0, f1, f2, f3, f4⟩ := fields0 (w := encode (.aor d a b)) (c0 := 3) (c1 := 22) (by decide) b a d rfl
  refine fun _ => ?_
  generalize encode (.aor d a b) = w at *
  simp [raw16 f1, decodeMajor16, f0, f2, f3, f4]

theorem Sys2Proof.Laws.Encoding.axor (d : BitVec 7) (a : BitVec 7) (b : BitVec 7) : Statement (.axor d a b) := by
  obtain ⟨e, f0, f1, f2, f3, f4⟩ := fields0 (w := encode (.axor d a b)) (c0 := 4) (c1 := 22) (by decide) b a d rfl
  refine fun _ => ?_
  generalize encode (.axor d a b) = w at *
  simp [raw16 f1, decodeMajor16, f0, f2, f3, f4]

theorem Sys2Proof.Laws.Encoding.amin (d : BitVec 7) (a : BitVec 7) (b : BitVec 7) : Statement (.amin d a b) := by
  obtain ⟨e, f0, f1, f2, f3, f4⟩ := fields0 (w := encode (.amin d a b)) (c0 := 5) (c1 := 22) (by decide) b a d rfl
  refine fun _ => ?_
  generalize encode (.amin d a b) = w at *
  simp [raw16 f1, decodeMajor16, f0, f2, f3, f4]

theorem Sys2Proof.Laws.Encoding.amax (d : BitVec 7) (a : BitVec 7) (b : BitVec 7) : Statement (.amax d a b) := by
  obtain ⟨e, f0, f1, f2, f3, f4⟩ := fields0 (w := encode (.amax d a b)) (c0 := 6) (c1 := 22) (by decide) b a d rfl
  refine fun _ => ?_
  generalize encode (.amax d a b) = w at *
  simp [raw16 f1, decodeMajor16, f0, f2, f3, f4]

theorem Sys2Proof.Laws.Encoding.aminn (d : BitVec 7) (a : BitVec 7) (b : BitVec 7) : Statement (.aminn d a b) := by
  obtain ⟨e, f0, f1, f2, f3, f4⟩ := fields0 (w := encode (.aminn d a b)) (c0 := 7) (c1 := 22) (by decide) b a d rfl
  refine fun _ => ?_
  generalize encode (.aminn d a b) = w at *
  simp [raw16 f1, decodeMajor16, f0, f2, f3, f4]

theorem Sys2Proof.Laws.Encoding.amaxn (d : BitVec 7) (a : BitVec 7) (b : BitVec 7) : Statement (.amaxn d a b) := by
  obtain ⟨e, f0, f1, f2, f3, f4⟩ := fields0 (w := encode (.amaxn d a b)) (c0 := 8) (c1 := 22) (by decide) b a d rfl
  refine fun _ => ?_
  generalize encode (.amaxn d a b) = w at *
  simp [raw16 f1, decodeMajor16, f0, f2, f3, f4]

theorem Sys2Proof.Laws.Encoding.acas (d : BitVec 7) (a : BitVec 7) (b : BitVec 7) : Statement (.acas d a b) := by
  obtain ⟨e, f0, f1, f2, f3, f4⟩ := fields0 (w := encode (.acas d a b)) (c0 := 9) (c1 := 22) (by decide) b a d rfl
  refine fun _ => ?_
  generalize encode (.acas d a b) = w at *
  simp [raw16 f1, decodeMajor16, f0, f2, f3, f4]

theorem Sys2Proof.Laws.Encoding.aaddw (d : BitVec 7) (a : BitVec 7) (b : BitVec 7) : Statement (.aaddw d a b) := by
  obtain ⟨e, f0, f1, f2, f3, f4⟩ := fields0 (w := encode (.aaddw d a b)) (c0 := 16) (c1 := 22) (by decide) b a d rfl
  refine fun _ => ?_
  generalize encode (.aaddw d a b) = w at *
  simp [raw16 f1, decodeMajor16, f0, f2, f3, f4]

theorem Sys2Proof.Laws.Encoding.aswapw (d : BitVec 7) (a : BitVec 7) (b : BitVec 7) : Statement (.aswapw d a b) := by
  obtain ⟨e, f0, f1, f2, f3, f4⟩ := fields0 (w := encode (.aswapw d a b)) (c0 := 17) (c1 := 22) (by decide) b a d rfl
  refine fun _ => ?_
  generalize encode (.aswapw d a b) = w at *
  simp [raw16 f1, decodeMajor16, f0, f2, f3, f4]

theorem Sys2Proof.Laws.Encoding.aandw (d : BitVec 7) (a : BitVec 7) (b : BitVec 7) : Statement (.aandw d a b) := by
  obtain ⟨e, f0, f1, f2, f3, f4⟩ := fields0 (w := encode (.aandw d a b)) (c0 := 18) (c1 := 22) (by decide) b a d rfl
  refine fun _ => ?_
  generalize encode (.aandw d a b) = w at *
  simp [raw16 f1, decodeMajor16, f0, f2, f3, f4]

theorem Sys2Proof.Laws.Encoding.aorw (d : BitVec 7) (a : BitVec 7) (b : BitVec 7) : Statement (.aorw d a b) := by
  obtain ⟨e, f0, f1, f2, f3, f4⟩ := fields0 (w := encode (.aorw d a b)) (c0 := 19) (c1 := 22) (by decide) b a d rfl
  refine fun _ => ?_
  generalize encode (.aorw d a b) = w at *
  simp [raw16 f1, decodeMajor16, f0, f2, f3, f4]

theorem Sys2Proof.Laws.Encoding.axorw (d : BitVec 7) (a : BitVec 7) (b : BitVec 7) : Statement (.axorw d a b) := by
  obtain ⟨e, f0, f1, f2, f3, f4⟩ := fields0 (w := encode (.axorw d a b)) (c0 := 20) (c1 := 22) (by decide) b a d rfl
  refine fun _ => ?_
  generalize encode (.axorw d a b) = w at *
  simp [raw16 f1, decodeMajor16, f0, f2, f3, f4]

theorem Sys2Proof.Laws.Encoding.aminw (d : BitVec 7) (a : BitVec 7) (b : BitVec 7) : Statement (.aminw d a b) := by
  obtain ⟨e, f0, f1, f2, f3, f4⟩ := fields0 (w := encode (.aminw d a b)) (c0 := 21) (c1 := 22) (by decide) b a d rfl
  refine fun _ => ?_
  generalize encode (.aminw d a b) = w at *
  simp [raw16 f1, decodeMajor16, f0, f2, f3, f4]

theorem Sys2Proof.Laws.Encoding.amaxw (d : BitVec 7) (a : BitVec 7) (b : BitVec 7) : Statement (.amaxw d a b) := by
  obtain ⟨e, f0, f1, f2, f3, f4⟩ := fields0 (w := encode (.amaxw d a b)) (c0 := 22) (c1 := 22) (by decide) b a d rfl
  refine fun _ => ?_
  generalize encode (.amaxw d a b) = w at *
  simp [raw16 f1, decodeMajor16, f0, f2, f3, f4]

theorem Sys2Proof.Laws.Encoding.aminnw (d : BitVec 7) (a : BitVec 7) (b : BitVec 7) : Statement (.aminnw d a b) := by
  obtain ⟨e, f0, f1, f2, f3, f4⟩ := fields0 (w := encode (.aminnw d a b)) (c0 := 23) (c1 := 22) (by decide) b a d rfl
  refine fun _ => ?_
  generalize encode (.aminnw d a b) = w at *
  simp [raw16 f1, decodeMajor16, f0, f2, f3, f4]

theorem Sys2Proof.Laws.Encoding.amaxnw (d : BitVec 7) (a : BitVec 7) (b : BitVec 7) : Statement (.amaxnw d a b) := by
  obtain ⟨e, f0, f1, f2, f3, f4⟩ := fields0 (w := encode (.amaxnw d a b)) (c0 := 24) (c1 := 22) (by decide) b a d rfl
  refine fun _ => ?_
  generalize encode (.amaxnw d a b) = w at *
  simp [raw16 f1, decodeMajor16, f0, f2, f3, f4]

theorem Sys2Proof.Laws.Encoding.acasw (d : BitVec 7) (a : BitVec 7) (b : BitVec 7) : Statement (.acasw d a b) := by
  obtain ⟨e, f0, f1, f2, f3, f4⟩ := fields0 (w := encode (.acasw d a b)) (c0 := 25) (c1 := 22) (by decide) b a d rfl
  refine fun _ => ?_
  generalize encode (.acasw d a b) = w at *
  simp [raw16 f1, decodeMajor16, f0, f2, f3, f4]

theorem Sys2Proof.Laws.Encoding.afadd (d : BitVec 7) (a : BitVec 7) (b : BitVec 7) : Statement (.afadd d a b) := by
  obtain ⟨e, f0, f1, f2, f3, f4⟩ := fields0 (w := encode (.afadd d a b)) (c0 := 26) (c1 := 22) (by decide) b a d rfl
  refine fun _ => ?_
  generalize encode (.afadd d a b) = w at *
  simp [raw16 f1, decodeMajor16, f0, f2, f3, f4]

theorem Sys2Proof.Laws.Encoding.sbind (d : BitVec 7) (a : BitVec 7) (b : BitVec 7) : Statement (.sbind d a b) := by
  obtain ⟨e, f0, f1, f2, f3, f4⟩ := fields0 (w := encode (.sbind d a b)) (c0 := 0) (c1 := 23) (by decide) b a d rfl
  refine fun _ => ?_
  generalize encode (.sbind d a b) = w at *
  simp [raw17 f1, decodeMajor17, f0, f2, f3, f4]

theorem Sys2Proof.Laws.Encoding.sunbind (d : BitVec 7) (a : BitVec 7) (b : BitVec 7) : Statement (.sunbind d a b) := by
  obtain ⟨e, f0, f1, f2, f3, f4⟩ := fields0 (w := encode (.sunbind d a b)) (c0 := 1) (c1 := 23) (by decide) b a d rfl
  refine fun _ => ?_
  generalize encode (.sunbind d a b) = w at *
  simp [raw17 f1, decodeMajor17, f0, f2, f3, f4]

theorem Sys2Proof.Laws.Encoding.sacq (a : BitVec 7) : Statement (.sacq a) := by
  obtain ⟨e, f0, f1, f2, f3⟩ := fields8 (w := encode (.sacq a)) (c0 := 2) (c1 := 0) (c2 := 23) (by decide) a rfl
  refine fun _ => ?_
  generalize encode (.sacq a) = w at *
  have := a.isLt
  have g0 := eqc (w := w) (lo := 0) (n := 5) (v := 2) (by rw [e] <;> omega)
  simp [raw17 f2, decodeMajor17, f0, f1, f3, g0]

theorem Sys2Proof.Laws.Encoding.sacqs (a : BitVec 7) : Statement (.sacqs a) := by
  obtain ⟨e, f0, f1, f2, f3⟩ := fields8 (w := encode (.sacqs a)) (c0 := 3) (c1 := 0) (c2 := 23) (by decide) a rfl
  refine fun _ => ?_
  generalize encode (.sacqs a) = w at *
  have := a.isLt
  have g0 := eqc (w := w) (lo := 0) (n := 5) (v := 3) (by rw [e] <;> omega)
  simp [raw17 f2, decodeMajor17, f0, f1, f3, g0]

theorem Sys2Proof.Laws.Encoding.stry (d : BitVec 7) (a : BitVec 7) : Statement (.stry d a) := by
  obtain ⟨e, f0, f1, f2, f3⟩ := fields1 (w := encode (.stry d a)) (c0 := 4) (c1 := 23) (by decide) a d rfl
  refine fun _ => ?_
  generalize encode (.stry d a) = w at *
  have := d.isLt
  have := a.isLt
  have g0 := eqc (w := w) (lo := 0) (n := 5) (v := 4) (by rw [e] <;> omega)
  simp [raw17 f1, decodeMajor17, f0, f2, f3, g0]

theorem Sys2Proof.Laws.Encoding.srel (a : BitVec 7) : Statement (.srel a) := by
  obtain ⟨e, f0, f1, f2, f3⟩ := fields8 (w := encode (.srel a)) (c0 := 5) (c1 := 0) (c2 := 23) (by decide) a rfl
  refine fun _ => ?_
  generalize encode (.srel a) = w at *
  have := a.isLt
  have g0 := eqc (w := w) (lo := 0) (n := 5) (v := 5) (by rw [e] <;> omega)
  simp [raw17 f2, decodeMajor17, f0, f1, f3, g0]

theorem Sys2Proof.Laws.Encoding.fence (s : BitVec 3) (l : BitVec 2) (k : BitVec 2) : Statement (.fence s l k) := by
  obtain ⟨e, f0, f1, f2, f3, f4, f5⟩ := fields9 (w := encode (.fence s l k)) (c0 := 6) (c1 := 0) (c2 := 23) (by decide) k l s rfl
  refine fun _ => ?_
  generalize encode (.fence s l k) = w at *
  have := s.isLt
  have := l.isLt
  have := k.isLt
  have g0 := eqc (w := w) (lo := 19) (n := 7) (v := 0) (by rw [e] <;> omega)
  have g1 := nec (w := w) (lo := 0) (n := 12) (v := 2) (by decide) (by rw [e] <;> omega)
  have g2 := nec (w := w) (lo := 0) (n := 12) (v := 3) (by decide) (by rw [e] <;> omega)
  have g3 := nec (w := w) (lo := 0) (n := 12) (v := 4) (by decide) (by rw [e] <;> omega)
  have g4 := nec (w := w) (lo := 0) (n := 12) (v := 5) (by decide) (by rw [e] <;> omega)
  simp [raw17 f2, decodeMajor17, f0, f1, f3, f4, f5, g0, g1, g2, g3, g4]

theorem Sys2Proof.Laws.Encoding.waita (d : BitVec 7) (a : BitVec 7) (b : BitVec 7) : Statement (.waita d a b) := by
  obtain ⟨e, f0, f1, f2, f3, f4⟩ := fields0 (w := encode (.waita d a b)) (c0 := 7) (c1 := 23) (by decide) b a d rfl
  refine fun _ => ?_
  generalize encode (.waita d a b) = w at *
  have := d.isLt
  have := a.isLt
  have := b.isLt
  have g0 := nec (w := w) (lo := 0) (n := 12) (v := 2) (by decide) (by rw [e] <;> omega)
  have g1 := nec (w := w) (lo := 0) (n := 12) (v := 3) (by decide) (by rw [e] <;> omega)
  have g2 := nec (w := w) (lo := 0) (n := 12) (v := 4) (by decide) (by rw [e] <;> omega)
  have g3 := nec (w := w) (lo := 0) (n := 12) (v := 5) (by decide) (by rw [e] <;> omega)
  simp [raw17 f1, decodeMajor17, f0, f2, f3, f4, g0, g1, g2, g3]

theorem Sys2Proof.Laws.Encoding.csrr (d : BitVec 7) (c : BitVec 10) : Statement (.csrr d c) := by
  obtain ⟨e, f0, f1, f2, f3⟩ := fields10 (w := encode (.csrr d c)) (c0 := 0) (c1 := 24) (by decide) c d rfl
  refine fun _ => ?_
  generalize encode (.csrr d c) = w at *
  simp [raw18 f1, decodeMajor18, f0, f2, f3]

theorem Sys2Proof.Laws.Encoding.csrw (d : BitVec 7) (a : BitVec 7) (c : BitVec 10) : Statement (.csrw d a c) := by
  obtain ⟨e, f0, f1, f2, f3, f4⟩ := fields11 (w := encode (.csrw d a c)) (c0 := 1) (c1 := 24) (by decide) c a d rfl
  refine fun _ => ?_
  generalize encode (.csrw d a c) = w at *
  have := d.isLt
  have := a.isLt
  have := c.isLt
  have g0 := nec (w := w) (lo := 10) (n := 9) (v := 0) (by decide) (by rw [e] <;> omega)
  simp [raw18 f1, decodeMajor18, f0, f2, f3, f4, g0]

theorem Sys2Proof.Laws.Encoding.csrs (d : BitVec 7) (a : BitVec 7) (c : BitVec 10) : Statement (.csrs d a c) := by
  obtain ⟨e, f0, f1, f2, f3, f4⟩ := fields11 (w := encode (.csrs d a c)) (c0 := 2) (c1 := 24) (by decide) c a d rfl
  refine fun _ => ?_
  generalize encode (.csrs d a c) = w at *
  have := d.isLt
  have := a.isLt
  have := c.isLt
  have g0 := nec (w := w) (lo := 10) (n := 9) (v := 0) (by decide) (by rw [e] <;> omega)
  simp [raw18 f1, decodeMajor18, f0, f2, f3, f4, g0]

theorem Sys2Proof.Laws.Encoding.csrc (d : BitVec 7) (a : BitVec 7) (c : BitVec 10) : Statement (.csrc d a c) := by
  obtain ⟨e, f0, f1, f2, f3, f4⟩ := fields11 (w := encode (.csrc d a c)) (c0 := 3) (c1 := 24) (by decide) c a d rfl
  refine fun _ => ?_
  generalize encode (.csrc d a c) = w at *
  have := d.isLt
  have := a.isLt
  have := c.isLt
  have g0 := nec (w := w) (lo := 10) (n := 9) (v := 0) (by decide) (by rw [e] <;> omega)
  simp [raw18 f1, decodeMajor18, f0, f2, f3, f4, g0]

theorem Sys2Proof.Laws.Encoding.ecall : Statement .ecall := by
  obtain ⟨e, f0, f1⟩ := fields12 (w := encode .ecall) (c0 := 0) (c1 := 25) (by decide)  rfl
  refine fun _ => ?_
  generalize encode .ecall = w at *
  simp [raw19 f1, decodeMajor19, f0]

theorem Sys2Proof.Laws.Encoding.ebreak : Statement .ebreak := by
  obtain ⟨e, f0, f1⟩ := fields12 (w := encode .ebreak) (c0 := 1) (c1 := 25) (by decide)  rfl
  refine fun _ => ?_
  generalize encode .ebreak = w at *
  simp [raw19 f1, decodeMajor19, f0]

theorem Sys2Proof.Laws.Encoding.eret : Statement .eret := by
  obtain ⟨e, f0, f1⟩ := fields12 (w := encode .eret) (c0 := 2) (c1 := 25) (by decide)  rfl
  refine fun _ => ?_
  generalize encode .eret = w at *
  simp [raw19 f1, decodeMajor19, f0]

theorem Sys2Proof.Laws.Encoding.sleep : Statement .sleep := by
  obtain ⟨e, f0, f1⟩ := fields12 (w := encode .sleep) (c0 := 3) (c1 := 25) (by decide)  rfl
  refine fun _ => ?_
  generalize encode .sleep = w at *
  simp [raw19 f1, decodeMajor19, f0]

theorem Sys2Proof.Laws.Encoding.switch : Statement .switch := by
  obtain ⟨e, f0, f1⟩ := fields12 (w := encode .switch) (c0 := 4) (c1 := 25) (by decide)  rfl
  refine fun _ => ?_
  generalize encode .switch = w at *
  simp [raw19 f1, decodeMajor19, f0]

theorem Sys2Proof.Laws.Encoding.tlbinv (a : BitVec 7) (b : BitVec 7) : Statement (.tlbinv a b) := by
  obtain ⟨e, f0, f1, f2, f3, f4⟩ := fields13 (w := encode (.tlbinv a b)) (c0 := 5) (c1 := 0) (c2 := 25) (by decide) b a rfl
  refine fun _ => ?_
  generalize encode (.tlbinv a b) = w at *
  have := a.isLt
  have := b.isLt
  have g0 := nec (w := w) (lo := 0) (n := 26) (v := 0) (by decide) (by rw [e] <;> omega)
  have g1 := nec (w := w) (lo := 0) (n := 26) (v := 1) (by decide) (by rw [e] <;> omega)
  have g2 := nec (w := w) (lo := 0) (n := 26) (v := 2) (by decide) (by rw [e] <;> omega)
  have g3 := nec (w := w) (lo := 0) (n := 26) (v := 3) (by decide) (by rw [e] <;> omega)
  have g4 := nec (w := w) (lo := 0) (n := 26) (v := 4) (by decide) (by rw [e] <;> omega)
  simp [raw19 f2, decodeMajor19, f0, f1, f3, f4, g0, g1, g2, g3, g4]

theorem Sys2Proof.Laws.Encoding.icinv : Statement .icinv := by
  obtain ⟨e, f0, f1⟩ := fields12 (w := encode .icinv) (c0 := 6) (c1 := 25) (by decide)  rfl
  refine fun _ => ?_
  generalize encode .icinv = w at *
  have g0 := eqc (w := w) (lo := 19) (n := 7) (v := 0) (by rw [e] <;> omega)
  have g1 := eqc (w := w) (lo := 0) (n := 5) (v := 6) (by rw [e] <;> omega)
  simp [raw19 f1, decodeMajor19, f0, g0, g1]

theorem Sys2Proof.Laws.Encoding.xprobe (d : BitVec 7) (a : BitVec 7) : Statement (.xprobe d a) := by
  obtain ⟨e, f0, f1, f2, f3⟩ := fields1 (w := encode (.xprobe d a)) (c0 := 7) (c1 := 25) (by decide) a d rfl
  refine fun _ => ?_
  generalize encode (.xprobe d a) = w at *
  have := d.isLt
  have := a.isLt
  have g0 := eqc (w := w) (lo := 0) (n := 5) (v := 7) (by rw [e] <;> omega)
  have g1 := nec (w := w) (lo := 0) (n := 26) (v := 0) (by decide) (by rw [e] <;> omega)
  have g2 := nec (w := w) (lo := 0) (n := 26) (v := 1) (by decide) (by rw [e] <;> omega)
  have g3 := nec (w := w) (lo := 0) (n := 26) (v := 2) (by decide) (by rw [e] <;> omega)
  have g4 := nec (w := w) (lo := 0) (n := 26) (v := 3) (by decide) (by rw [e] <;> omega)
  have g5 := nec (w := w) (lo := 0) (n := 26) (v := 4) (by decide) (by rw [e] <;> omega)
  have g6 := nec (w := w) (lo := 0) (n := 26) (v := 6) (by decide) (by rw [e] <;> omega)
  simp [raw19 f1, decodeMajor19, f0, f2, f3, g0, g1, g2, g3, g4, g5, g6]

theorem Sys2Proof.Laws.Encoding.aown : Statement .aown := by
  obtain ⟨e, f0, f1⟩ := fields12 (w := encode .aown) (c0 := 8) (c1 := 25) (by decide)  rfl
  refine fun _ => ?_
  generalize encode .aown = w at *
  have g0 := eqc (w := w) (lo := 0) (n := 12) (v := 8) (by rw [e] <;> omega)
  have g1 := eqc (w := w) (lo := 19) (n := 7) (v := 0) (by rw [e] <;> omega)
  have g2 := eqc (w := w) (lo := 0) (n := 5) (v := 8) (by rw [e] <;> omega)
  simp [raw19 f1, decodeMajor19, f0, g0, g1, g2]

theorem Sys2Proof.Laws.Encoding.halt : Statement .halt := by
  obtain ⟨e, f0, f1⟩ := fields12 (w := encode .halt) (c0 := 9) (c1 := 25) (by decide)  rfl
  refine fun _ => ?_
  generalize encode .halt = w at *
  have g0 := eqc (w := w) (lo := 0) (n := 12) (v := 9) (by rw [e] <;> omega)
  have g1 := eqc (w := w) (lo := 19) (n := 7) (v := 0) (by rw [e] <;> omega)
  have g2 := eqc (w := w) (lo := 0) (n := 5) (v := 9) (by rw [e] <;> omega)
  simp [raw19 f1, decodeMajor19, f0, g0, g1, g2]

theorem Sys2Proof.Laws.Encoding.fmt (t : BitVec 5) (u : BitVec 5) (v : BitVec 5) (r : BitVec 3) (s : BitVec 1) (c : BitVec 2) : Statement (.fmt t u v r s c) := by
  obtain ⟨e, f0, f1, f2, f3, f4, f5, f6, f7⟩ := fields14 (w := encode (.fmt t u v r s c)) (c0 := 0) (c1 := 26) (by decide) c s r v u t rfl
  refine fun _ => ?_
  generalize encode (.fmt t u v r s c) = w at *
  simp [raw1A f1, decodeMajor1A, f0, f2, f3, f4, f5, f6, f7]

theorem Sys2Proof.Laws.Encoding.ldl (d : BitVec 7) (a : BitVec 7) (i : BitVec 10) : Statement (.ldl d a i) := by
  obtain ⟨e, f0, f1, f2, f3, f4⟩ := fields11 (w := encode (.ldl d a i)) (c0 := 0) (c1 := 27) (by decide) i a d rfl
  refine fun _ => ?_
  generalize encode (.ldl d a i) = w at *
  simp [raw1B f1, decodeMajor1B, f0, f2, f3, f4]

theorem Sys2Proof.Laws.Encoding.stl (s : BitVec 7) (a : BitVec 7) (i : BitVec 10) : Statement (.stl s a i) := by
  obtain ⟨e, f0, f1, f2, f3, f4⟩ := fields11 (w := encode (.stl s a i)) (c0 := 1) (c1 := 27) (by decide) i a s rfl
  refine fun _ => ?_
  generalize encode (.stl s a i) = w at *
  simp [raw1B f1, decodeMajor1B, f0, f2, f3, f4]

theorem Sys2Proof.Laws.Encoding.ldy (d : BitVec 7) (a : BitVec 7) (i : BitVec 10) : Statement (.ldy d a i) := by
  obtain ⟨e, f0, f1, f2, f3, f4⟩ := fields11 (w := encode (.ldy d a i)) (c0 := 2) (c1 := 27) (by decide) i a d rfl
  refine fun _ => ?_
  generalize encode (.ldy d a i) = w at *
  simp [raw1B f1, decodeMajor1B, f0, f2, f3, f4]

theorem Sys2Proof.Laws.Encoding.sty (s : BitVec 7) (a : BitVec 7) (i : BitVec 10) : Statement (.sty s a i) := by
  obtain ⟨e, f0, f1, f2, f3, f4⟩ := fields11 (w := encode (.sty s a i)) (c0 := 3) (c1 := 27) (by decide) i a s rfl
  refine fun _ => ?_
  generalize encode (.sty s a i) = w at *
  simp [raw1B f1, decodeMajor1B, f0, f2, f3, f4]

theorem Sys2Proof.Laws.Encoding.cpy (d : BitVec 7) (a : BitVec 7) : Statement (.cpy d a) := by
  obtain ⟨e, f0, f1, f2, f3⟩ := fields1 (w := encode (.cpy d a)) (c0 := 0) (c1 := 28) (by decide) a d rfl
  refine fun _ => ?_
  generalize encode (.cpy d a) = w at *
  simp [raw1C f1, decodeMajor1C, f0, f2, f3]

theorem Sys2Proof.Laws.Encoding.cpyw (a : BitVec 7) (b : BitVec 7) : Statement (.cpyw a b) := by
  obtain ⟨e, f0, f1, f2, f3, f4⟩ := fields13 (w := encode (.cpyw a b)) (c0 := 1) (c1 := 0) (c2 := 28) (by decide) b a rfl
  refine fun _ => ?_
  generalize encode (.cpyw a b) = w at *
  have := a.isLt
  have := b.isLt
  have g0 := nec (w := w) (lo := 0) (n := 12) (v := 0) (by decide) (by rw [e] <;> omega)
  simp [raw1C f2, decodeMajor1C, f0, f1, f3, f4, g0]

theorem Sys2Proof.Laws.Encoding.cpyq (d : BitVec 7) (a : BitVec 7) : Statement (.cpyq d a) := by
  obtain ⟨e, f0, f1, f2, f3⟩ := fields1 (w := encode (.cpyq d a)) (c0 := 2) (c1 := 28) (by decide) a d rfl
  refine fun _ => ?_
  generalize encode (.cpyq d a) = w at *
  have := d.isLt
  have := a.isLt
  have g0 := eqc (w := w) (lo := 0) (n := 5) (v := 2) (by rw [e] <;> omega)
  simp [raw1C f1, decodeMajor1C, f0, f2, f3, g0]

theorem Sys2Proof.Laws.Encoding.cpyx (a : BitVec 7) : Statement (.cpyx a) := by
  obtain ⟨e, f0, f1, f2, f3⟩ := fields8 (w := encode (.cpyx a)) (c0 := 3) (c1 := 0) (c2 := 28) (by decide) a rfl
  refine fun _ => ?_
  generalize encode (.cpyx a) = w at *
  have := a.isLt
  have g0 := eqc (w := w) (lo := 0) (n := 5) (v := 3) (by rw [e] <;> omega)
  simp [raw1C f2, decodeMajor1C, f0, f1, f3, g0]

theorem Sys2Proof.Laws.Encoding.nsend (d : BitVec 7) (a : BitVec 7) (b : BitVec 7) : Statement (.nsend d a b) := by
  obtain ⟨e, f0, f1, f2, f3, f4⟩ := fields0 (w := encode (.nsend d a b)) (c0 := 0) (c1 := 29) (by decide) b a d rfl
  refine fun _ => ?_
  generalize encode (.nsend d a b) = w at *
  simp [raw1D f1, decodeMajor1D, f0, f2, f3, f4]

theorem Sys2Proof.Laws.Encoding.nput (d : BitVec 7) (a : BitVec 7) (b : BitVec 7) : Statement (.nput d a b) := by
  obtain ⟨e, f0, f1, f2, f3, f4⟩ := fields0 (w := encode (.nput d a b)) (c0 := 1) (c1 := 29) (by decide) b a d rfl
  refine fun _ => ?_
  generalize encode (.nput d a b) = w at *
  simp [raw1D f1, decodeMajor1D, f0, f2, f3, f4]

theorem Sys2Proof.Laws.Encoding.nrecv (d : BitVec 7) (a : BitVec 7) : Statement (.nrecv d a) := by
  obtain ⟨e, f0, f1, f2, f3⟩ := fields1 (w := encode (.nrecv d a)) (c0 := 2) (c1 := 29) (by decide) a d rfl
  refine fun _ => ?_
  generalize encode (.nrecv d a) = w at *
  have := d.isLt
  have := a.isLt
  have g0 := eqc (w := w) (lo := 0) (n := 5) (v := 2) (by rw [e] <;> omega)
  simp [raw1D f1, decodeMajor1D, f0, f2, f3, g0]

theorem Sys2Proof.Laws.Encoding.npoll (d : BitVec 7) (a : BitVec 7) : Statement (.npoll d a) := by
  obtain ⟨e, f0, f1, f2, f3⟩ := fields1 (w := encode (.npoll d a)) (c0 := 3) (c1 := 29) (by decide) a d rfl
  refine fun _ => ?_
  generalize encode (.npoll d a) = w at *
  have := d.isLt
  have := a.isLt
  have g0 := eqc (w := w) (lo := 0) (n := 5) (v := 3) (by rw [e] <;> omega)
  simp [raw1D f1, decodeMajor1D, f0, f2, f3, g0]

theorem Sys2Proof.Laws.Encoding.nfree (a : BitVec 7) : Statement (.nfree a) := by
  obtain ⟨e, f0, f1, f2, f3⟩ := fields8 (w := encode (.nfree a)) (c0 := 4) (c1 := 0) (c2 := 29) (by decide) a rfl
  refine fun _ => ?_
  generalize encode (.nfree a) = w at *
  have := a.isLt
  have g0 := eqc (w := w) (lo := 0) (n := 5) (v := 4) (by rw [e] <;> omega)
  simp [raw1D f2, decodeMajor1D, f0, f1, f3, g0]

theorem Sys2Proof.Laws.Encoding.nint (a : BitVec 7) (b : BitVec 7) : Statement (.nint a b) := by
  obtain ⟨e, f0, f1, f2, f3, f4⟩ := fields13 (w := encode (.nint a b)) (c0 := 5) (c1 := 0) (c2 := 29) (by decide) b a rfl
  refine fun _ => ?_
  generalize encode (.nint a b) = w at *
  have := a.isLt
  have := b.isLt
  have g0 := nec (w := w) (lo := 0) (n := 12) (v := 2) (by decide) (by rw [e] <;> omega)
  have g1 := nec (w := w) (lo := 0) (n := 12) (v := 3) (by decide) (by rw [e] <;> omega)
  have g2 := nec (w := w) (lo := 0) (n := 12) (v := 4) (by decide) (by rw [e] <;> omega)
  simp [raw1D f2, decodeMajor1D, f0, f1, f3, f4, g0, g1, g2]

theorem Sys2Proof.Laws.Encoding.tkspawn (d : BitVec 7) (a : BitVec 7) : Statement (.tkspawn d a) := by
  obtain ⟨e, f0, f1, f2, f3⟩ := fields1 (w := encode (.tkspawn d a)) (c0 := 0) (c1 := 30) (by decide) a d rfl
  refine fun _ => ?_
  generalize encode (.tkspawn d a) = w at *
  simp [raw1E f1, decodeMajor1E, f0, f2, f3]

theorem Sys2Proof.Laws.Encoding.tkget (d : BitVec 7) : Statement (.tkget d) := by
  obtain ⟨e, f0, f1, f2⟩ := fields15 (w := encode (.tkget d)) (c0 := 1) (c1 := 30) (by decide) d rfl
  refine fun _ => ?_
  generalize encode (.tkget d) = w at *
  have := d.isLt
  have g0 := eqc (w := w) (lo := 0) (n := 12) (v := 1) (by rw [e] <;> omega)
  simp [raw1E f1, decodeMajor1E, f0, f2, g0]

theorem Sys2Proof.Laws.Encoding.tkdone (a : BitVec 7) : Statement (.tkdone a) := by
  obtain ⟨e, f0, f1, f2, f3⟩ := fields8 (w := encode (.tkdone a)) (c0 := 2) (c1 := 0) (c2 := 30) (by decide) a rfl
  refine fun _ => ?_
  generalize encode (.tkdone a) = w at *
  have := a.isLt
  have g0 := nec (w := w) (lo := 0) (n := 19) (v := 1) (by decide) (by rw [e] <;> omega)
  simp [raw1E f2, decodeMajor1E, f0, f1, f3, g0]

theorem Sys2Proof.Laws.Encoding.tkarm (a : BitVec 7) (b : BitVec 7) : Statement (.tkarm a b) := by
  obtain ⟨e, f0, f1, f2, f3, f4⟩ := fields13 (w := encode (.tkarm a b)) (c0 := 3) (c1 := 0) (c2 := 30) (by decide) b a rfl
  refine fun _ => ?_
  generalize encode (.tkarm a b) = w at *
  have := a.isLt
  have := b.isLt
  have g0 := nec (w := w) (lo := 0) (n := 12) (v := 0) (by decide) (by rw [e] <;> omega)
  have g1 := nec (w := w) (lo := 0) (n := 19) (v := 1) (by decide) (by rw [e] <;> omega)
  have g2 := nec (w := w) (lo := 0) (n := 12) (v := 2) (by decide) (by rw [e] <;> omega)
  simp [raw1E f2, decodeMajor1E, f0, f1, f3, f4, g0, g1, g2]

theorem Sys2Proof.Laws.Encoding.tkbind (a : BitVec 7) (b : BitVec 7) : Statement (.tkbind a b) := by
  obtain ⟨e, f0, f1, f2, f3, f4⟩ := fields13 (w := encode (.tkbind a b)) (c0 := 4) (c1 := 0) (c2 := 30) (by decide) b a rfl
  refine fun _ => ?_
  generalize encode (.tkbind a b) = w at *
  have := a.isLt
  have := b.isLt
  have g0 := nec (w := w) (lo := 0) (n := 12) (v := 0) (by decide) (by rw [e] <;> omega)
  have g1 := nec (w := w) (lo := 0) (n := 19) (v := 1) (by decide) (by rw [e] <;> omega)
  have g2 := nec (w := w) (lo := 0) (n := 12) (v := 2) (by decide) (by rw [e] <;> omega)
  simp [raw1E f2, decodeMajor1E, f0, f1, f3, f4, g0, g1, g2]

theorem Sys2Proof.Laws.Encoding.tkunbind (a : BitVec 7) : Statement (.tkunbind a) := by
  obtain ⟨e, f0, f1, f2, f3⟩ := fields8 (w := encode (.tkunbind a)) (c0 := 5) (c1 := 0) (c2 := 30) (by decide) a rfl
  refine fun _ => ?_
  generalize encode (.tkunbind a) = w at *
  have := a.isLt
  have g0 := eqc (w := w) (lo := 0) (n := 5) (v := 5) (by rw [e] <;> omega)
  have g1 := nec (w := w) (lo := 0) (n := 19) (v := 1) (by decide) (by rw [e] <;> omega)
  simp [raw1E f2, decodeMajor1E, f0, f1, f3, g0, g1]

theorem Sys2Proof.Laws.Encoding.tkdep (a : BitVec 7) (b : BitVec 7) : Statement (.tkdep a b) := by
  obtain ⟨e, f0, f1, f2, f3, f4⟩ := fields13 (w := encode (.tkdep a b)) (c0 := 6) (c1 := 0) (c2 := 30) (by decide) b a rfl
  refine fun _ => ?_
  generalize encode (.tkdep a b) = w at *
  have := a.isLt
  have := b.isLt
  have g0 := nec (w := w) (lo := 0) (n := 12) (v := 0) (by decide) (by rw [e] <;> omega)
  have g1 := nec (w := w) (lo := 0) (n := 19) (v := 1) (by decide) (by rw [e] <;> omega)
  have g2 := nec (w := w) (lo := 0) (n := 12) (v := 2) (by decide) (by rw [e] <;> omega)
  have g3 := nec (w := w) (lo := 0) (n := 12) (v := 5) (by decide) (by rw [e] <;> omega)
  simp [raw1E f2, decodeMajor1E, f0, f1, f3, f4, g0, g1, g2, g3]

theorem Sys2Proof.Laws.Encoding.scfg (d : BitVec 7) (a : BitVec 7) (b : BitVec 7) : Statement (.scfg d a b) := by
  obtain ⟨e, f0, f1, f2, f3, f4⟩ := fields0 (w := encode (.scfg d a b)) (c0 := 0) (c1 := 31) (by decide) b a d rfl
  refine fun _ => ?_
  generalize encode (.scfg d a b) = w at *
  simp [raw1F f1, decodeMajor1F, f0, f2, f3, f4]

theorem Sys2Proof.Laws.Encoding.sopen (d : BitVec 7) (a : BitVec 7) : Statement (.sopen d a) := by
  obtain ⟨e, f0, f1, f2, f3⟩ := fields1 (w := encode (.sopen d a)) (c0 := 1) (c1 := 31) (by decide) a d rfl
  refine fun _ => ?_
  generalize encode (.sopen d a) = w at *
  have := d.isLt
  have := a.isLt
  have g0 := eqc (w := w) (lo := 0) (n := 5) (v := 1) (by rw [e] <;> omega)
  simp [raw1F f1, decodeMajor1F, f0, f2, f3, g0]

theorem Sys2Proof.Laws.Encoding.sclose (a : BitVec 7) : Statement (.sclose a) := by
  obtain ⟨e, f0, f1, f2, f3⟩ := fields8 (w := encode (.sclose a)) (c0 := 2) (c1 := 0) (c2 := 31) (by decide) a rfl
  refine fun _ => ?_
  generalize encode (.sclose a) = w at *
  have := a.isLt
  have g0 := eqc (w := w) (lo := 0) (n := 5) (v := 2) (by rw [e] <;> omega)
  simp [raw1F f2, decodeMajor1F, f0, f1, f3, g0]

theorem Sys2Proof.Laws.Encoding.sstat (d : BitVec 7) (a : BitVec 7) : Statement (.sstat d a) := by
  obtain ⟨e, f0, f1, f2, f3⟩ := fields1 (w := encode (.sstat d a)) (c0 := 3) (c1 := 31) (by decide) a d rfl
  refine fun _ => ?_
  generalize encode (.sstat d a) = w at *
  have := d.isLt
  have := a.isLt
  have g0 := eqc (w := w) (lo := 0) (n := 5) (v := 3) (by rw [e] <;> omega)
  simp [raw1F f1, decodeMajor1F, f0, f2, f3, g0]

theorem Sys2Proof.Laws.Encoding.vadd (d : BitVec 7) (a : BitVec 7) (b : BitVec 7) (k : BitVec 1) (j : BitVec 1) (p : BitVec 2) : Statement (.vadd d a b k j p) := by
  obtain ⟨e, f0, f1, f2, f3, f4, f5, f6, f7⟩ := fields16 (w := encode (.vadd d a b k j p)) (c0 := 0) (c1 := 32) (by decide) p j k b a d rfl
  refine fun _ => ?_
  generalize encode (.vadd d a b k j p) = w at *
  simp [raw20 f1, decodeMajor20, f0, f2, f3, f4, f5, f6, f7]

theorem Sys2Proof.Laws.Encoding.vsub (d : BitVec 7) (a : BitVec 7) (b : BitVec 7) (k : BitVec 1) (j : BitVec 1) (p : BitVec 2) : Statement (.vsub d a b k j p) := by
  obtain ⟨e, f0, f1, f2, f3, f4, f5, f6, f7⟩ := fields16 (w := encode (.vsub d a b k j p)) (c0 := 1) (c1 := 32) (by decide) p j k b a d rfl
  refine fun _ => ?_
  generalize encode (.vsub d a b k j p) = w at *
  simp [raw20 f1, decodeMajor20, f0, f2, f3, f4, f5, f6, f7]

theorem Sys2Proof.Laws.Encoding.vadds (d : BitVec 7) (a : BitVec 7) (b : BitVec 7) (k : BitVec 1) (j : BitVec 1) (p : BitVec 2) : Statement (.vadds d a b k j p) := by
  obtain ⟨e, f0, f1, f2, f3, f4, f5, f6, f7⟩ := fields16 (w := encode (.vadds d a b k j p)) (c0 := 0) (c1 := 33) (by decide) p j k b a d rfl
  refine fun _ => ?_
  generalize encode (.vadds d a b k j p) = w at *
  simp [raw21 f1, decodeMajor21, f0, f2, f3, f4, f5, f6, f7]

theorem Sys2Proof.Laws.Encoding.vsubs (d : BitVec 7) (a : BitVec 7) (b : BitVec 7) (k : BitVec 1) (j : BitVec 1) (p : BitVec 2) : Statement (.vsubs d a b k j p) := by
  obtain ⟨e, f0, f1, f2, f3, f4, f5, f6, f7⟩ := fields16 (w := encode (.vsubs d a b k j p)) (c0 := 1) (c1 := 33) (by decide) p j k b a d rfl
  refine fun _ => ?_
  generalize encode (.vsubs d a b k j p) = w at *
  simp [raw21 f1, decodeMajor21, f0, f2, f3, f4, f5, f6, f7]

theorem Sys2Proof.Laws.Encoding.vmul (d : BitVec 7) (a : BitVec 7) (b : BitVec 7) (k : BitVec 1) (j : BitVec 1) (p : BitVec 2) : Statement (.vmul d a b k j p) := by
  obtain ⟨e, f0, f1, f2, f3, f4, f5, f6, f7⟩ := fields16 (w := encode (.vmul d a b k j p)) (c0 := 0) (c1 := 34) (by decide) p j k b a d rfl
  refine fun _ => ?_
  generalize encode (.vmul d a b k j p) = w at *
  simp [raw22 f1, decodeMajor22, f0, f2, f3, f4, f5, f6, f7]

theorem Sys2Proof.Laws.Encoding.vmulh (d : BitVec 7) (a : BitVec 7) (b : BitVec 7) (k : BitVec 1) (j : BitVec 1) (p : BitVec 2) : Statement (.vmulh d a b k j p) := by
  obtain ⟨e, f0, f1, f2, f3, f4, f5, f6, f7⟩ := fields16 (w := encode (.vmulh d a b k j p)) (c0 := 1) (c1 := 34) (by decide) p j k b a d rfl
  refine fun _ => ?_
  generalize encode (.vmulh d a b k j p) = w at *
  simp [raw22 f1, decodeMajor22, f0, f2, f3, f4, f5, f6, f7]

theorem Sys2Proof.Laws.Encoding.vmin (d : BitVec 7) (a : BitVec 7) (b : BitVec 7) (k : BitVec 1) (j : BitVec 1) (p : BitVec 2) : Statement (.vmin d a b k j p) := by
  obtain ⟨e, f0, f1, f2, f3, f4, f5, f6, f7⟩ := fields16 (w := encode (.vmin d a b k j p)) (c0 := 0) (c1 := 35) (by decide) p j k b a d rfl
  refine fun _ => ?_
  generalize encode (.vmin d a b k j p) = w at *
  simp [raw23 f1, decodeMajor23, f0, f2, f3, f4, f5, f6, f7]

theorem Sys2Proof.Laws.Encoding.vmax (d : BitVec 7) (a : BitVec 7) (b : BitVec 7) (k : BitVec 1) (j : BitVec 1) (p : BitVec 2) : Statement (.vmax d a b k j p) := by
  obtain ⟨e, f0, f1, f2, f3, f4, f5, f6, f7⟩ := fields16 (w := encode (.vmax d a b k j p)) (c0 := 1) (c1 := 35) (by decide) p j k b a d rfl
  refine fun _ => ?_
  generalize encode (.vmax d a b k j p) = w at *
  simp [raw23 f1, decodeMajor23, f0, f2, f3, f4, f5, f6, f7]

theorem Sys2Proof.Laws.Encoding.vminn (d : BitVec 7) (a : BitVec 7) (b : BitVec 7) (k : BitVec 1) (j : BitVec 1) (p : BitVec 2) : Statement (.vminn d a b k j p) := by
  obtain ⟨e, f0, f1, f2, f3, f4, f5, f6, f7⟩ := fields16 (w := encode (.vminn d a b k j p)) (c0 := 0) (c1 := 36) (by decide) p j k b a d rfl
  refine fun _ => ?_
  generalize encode (.vminn d a b k j p) = w at *
  simp [raw24 f1, decodeMajor24, f0, f2, f3, f4, f5, f6, f7]

theorem Sys2Proof.Laws.Encoding.vmaxn (d : BitVec 7) (a : BitVec 7) (b : BitVec 7) (k : BitVec 1) (j : BitVec 1) (p : BitVec 2) : Statement (.vmaxn d a b k j p) := by
  obtain ⟨e, f0, f1, f2, f3, f4, f5, f6, f7⟩ := fields16 (w := encode (.vmaxn d a b k j p)) (c0 := 1) (c1 := 36) (by decide) p j k b a d rfl
  refine fun _ => ?_
  generalize encode (.vmaxn d a b k j p) = w at *
  simp [raw24 f1, decodeMajor24, f0, f2, f3, f4, f5, f6, f7]

theorem Sys2Proof.Laws.Encoding.vand (d : BitVec 7) (a : BitVec 7) (b : BitVec 7) (k : BitVec 1) (j : BitVec 1) (p : BitVec 2) : Statement (.vand d a b k j p) := by
  obtain ⟨e, f0, f1, f2, f3, f4, f5, f6, f7⟩ := fields16 (w := encode (.vand d a b k j p)) (c0 := 0) (c1 := 37) (by decide) p j k b a d rfl
  refine fun _ => ?_
  generalize encode (.vand d a b k j p) = w at *
  simp [raw25 f1, decodeMajor25, f0, f2, f3, f4, f5, f6, f7]

theorem Sys2Proof.Laws.Encoding.vor (d : BitVec 7) (a : BitVec 7) (b : BitVec 7) (k : BitVec 1) (j : BitVec 1) (p : BitVec 2) : Statement (.vor d a b k j p) := by
  obtain ⟨e, f0, f1, f2, f3, f4, f5, f6, f7⟩ := fields16 (w := encode (.vor d a b k j p)) (c0 := 1) (c1 := 37) (by decide) p j k b a d rfl
  refine fun _ => ?_
  generalize encode (.vor d a b k j p) = w at *
  simp [raw25 f1, decodeMajor25, f0, f2, f3, f4, f5, f6, f7]

theorem Sys2Proof.Laws.Encoding.vxor (d : BitVec 7) (a : BitVec 7) (b : BitVec 7) (k : BitVec 1) (j : BitVec 1) (p : BitVec 2) : Statement (.vxor d a b k j p) := by
  obtain ⟨e, f0, f1, f2, f3, f4, f5, f6, f7⟩ := fields16 (w := encode (.vxor d a b k j p)) (c0 := 0) (c1 := 38) (by decide) p j k b a d rfl
  refine fun _ => ?_
  generalize encode (.vxor d a b k j p) = w at *
  simp [raw26 f1, decodeMajor26, f0, f2, f3, f4, f5, f6, f7]

theorem Sys2Proof.Laws.Encoding.vbool (d : BitVec 7) (a : BitVec 7) (b : BitVec 7) (k : BitVec 1) (j : BitVec 1) (p : BitVec 2) : Statement (.vbool d a b k j p) := by
  obtain ⟨e, f0, f1, f2, f3, f4, f5, f6, f7⟩ := fields16 (w := encode (.vbool d a b k j p)) (c0 := 1) (c1 := 38) (by decide) p j k b a d rfl
  refine fun _ => ?_
  generalize encode (.vbool d a b k j p) = w at *
  simp [raw26 f1, decodeMajor26, f0, f2, f3, f4, f5, f6, f7]

theorem Sys2Proof.Laws.Encoding.vsll (d : BitVec 7) (a : BitVec 7) (b : BitVec 7) (k : BitVec 1) (j : BitVec 1) (p : BitVec 2) : Statement (.vsll d a b k j p) := by
  obtain ⟨e, f0, f1, f2, f3, f4, f5, f6, f7⟩ := fields16 (w := encode (.vsll d a b k j p)) (c0 := 0) (c1 := 39) (by decide) p j k b a d rfl
  refine fun _ => ?_
  generalize encode (.vsll d a b k j p) = w at *
  simp [raw27 f1, decodeMajor27, f0, f2, f3, f4, f5, f6, f7]

theorem Sys2Proof.Laws.Encoding.vsrl (d : BitVec 7) (a : BitVec 7) (b : BitVec 7) (k : BitVec 1) (j : BitVec 1) (p : BitVec 2) : Statement (.vsrl d a b k j p) := by
  obtain ⟨e, f0, f1, f2, f3, f4, f5, f6, f7⟩ := fields16 (w := encode (.vsrl d a b k j p)) (c0 := 1) (c1 := 39) (by decide) p j k b a d rfl
  refine fun _ => ?_
  generalize encode (.vsrl d a b k j p) = w at *
  simp [raw27 f1, decodeMajor27, f0, f2, f3, f4, f5, f6, f7]

theorem Sys2Proof.Laws.Encoding.vsra (d : BitVec 7) (a : BitVec 7) (b : BitVec 7) (k : BitVec 1) (j : BitVec 1) (p : BitVec 2) : Statement (.vsra d a b k j p) := by
  obtain ⟨e, f0, f1, f2, f3, f4, f5, f6, f7⟩ := fields16 (w := encode (.vsra d a b k j p)) (c0 := 0) (c1 := 40) (by decide) p j k b a d rfl
  refine fun _ => ?_
  generalize encode (.vsra d a b k j p) = w at *
  simp [raw28 f1, decodeMajor28, f0, f2, f3, f4, f5, f6, f7]

theorem Sys2Proof.Laws.Encoding.vmerge (d : BitVec 7) (a : BitVec 7) (b : BitVec 7) (k : BitVec 1) (j : BitVec 1) : Statement (.vmerge d a b k j) := by
  obtain ⟨e, f0, f1, f2, f3, f4, f5, f6⟩ := fields17 (w := encode (.vmerge d a b k j)) (c0 := 1) (c1 := 40) (by decide) j k b a d rfl
  refine fun _ => ?_
  generalize encode (.vmerge d a b k j) = w at *
  have := d.isLt
  have := a.isLt
  have := b.isLt
  have := k.isLt
  have := j.isLt
  have g0 := eqc (w := w) (lo := 0) (n := 1) (v := 1) (by rw [e] <;> omega)
  simp [raw28 f1, decodeMajor28, f0, f2, f3, f4, f5, f6, g0]

theorem Sys2Proof.Laws.Encoding.vmac (d : BitVec 7) (a : BitVec 7) (b : BitVec 7) (k : BitVec 1) (j : BitVec 1) (p : BitVec 2) : Statement (.vmac d a b k j p) := by
  obtain ⟨e, f0, f1, f2, f3, f4, f5, f6, f7⟩ := fields16 (w := encode (.vmac d a b k j p)) (c0 := 0) (c1 := 41) (by decide) p j k b a d rfl
  refine fun _ => ?_
  generalize encode (.vmac d a b k j p) = w at *
  simp [raw29 f1, decodeMajor29, f0, f2, f3, f4, f5, f6, f7]

theorem Sys2Proof.Laws.Encoding.vwmac (d : BitVec 7) (a : BitVec 7) (b : BitVec 7) (k : BitVec 1) (j : BitVec 1) (p : BitVec 2) : Statement (.vwmac d a b k j p) := by
  obtain ⟨e, f0, f1, f2, f3, f4, f5, f6, f7⟩ := fields16 (w := encode (.vwmac d a b k j p)) (c0 := 1) (c1 := 41) (by decide) p j k b a d rfl
  refine fun _ => ?_
  generalize encode (.vwmac d a b k j p) = w at *
  simp [raw29 f1, decodeMajor29, f0, f2, f3, f4, f5, f6, f7]

theorem Sys2Proof.Laws.Encoding.vdot (d : BitVec 7) (a : BitVec 7) (b : BitVec 7) (k : BitVec 1) (j : BitVec 1) (p : BitVec 2) : Statement (.vdot d a b k j p) := by
  obtain ⟨e, f0, f1, f2, f3, f4, f5, f6, f7⟩ := fields16 (w := encode (.vdot d a b k j p)) (c0 := 0) (c1 := 42) (by decide) p j k b a d rfl
  refine fun _ => ?_
  generalize encode (.vdot d a b k j p) = w at *
  simp [raw2A f1, decodeMajor2A, f0, f2, f3, f4, f5, f6, f7]

theorem Sys2Proof.Laws.Encoding.vdots (d : BitVec 7) (a : BitVec 7) (b : BitVec 7) (k : BitVec 1) (j : BitVec 1) (p : BitVec 2) : Statement (.vdots d a b k j p) := by
  obtain ⟨e, f0, f1, f2, f3, f4, f5, f6, f7⟩ := fields16 (w := encode (.vdots d a b k j p)) (c0 := 1) (c1 := 42) (by decide) p j k b a d rfl
  refine fun _ => ?_
  generalize encode (.vdots d a b k j p) = w at *
  simp [raw2A f1, decodeMajor2A, f0, f2, f3, f4, f5, f6, f7]

theorem Sys2Proof.Laws.Encoding.vfadd (d : BitVec 7) (a : BitVec 7) (b : BitVec 7) (k : BitVec 1) (j : BitVec 1) (p : BitVec 2) : Statement (.vfadd d a b k j p) := by
  obtain ⟨e, f0, f1, f2, f3, f4, f5, f6, f7⟩ := fields16 (w := encode (.vfadd d a b k j p)) (c0 := 0) (c1 := 43) (by decide) p j k b a d rfl
  refine fun _ => ?_
  generalize encode (.vfadd d a b k j p) = w at *
  simp [raw2B f1, decodeMajor2B, f0, f2, f3, f4, f5, f6, f7]

theorem Sys2Proof.Laws.Encoding.vfsub (d : BitVec 7) (a : BitVec 7) (b : BitVec 7) (k : BitVec 1) (j : BitVec 1) (p : BitVec 2) : Statement (.vfsub d a b k j p) := by
  obtain ⟨e, f0, f1, f2, f3, f4, f5, f6, f7⟩ := fields16 (w := encode (.vfsub d a b k j p)) (c0 := 1) (c1 := 43) (by decide) p j k b a d rfl
  refine fun _ => ?_
  generalize encode (.vfsub d a b k j p) = w at *
  simp [raw2B f1, decodeMajor2B, f0, f2, f3, f4, f5, f6, f7]

theorem Sys2Proof.Laws.Encoding.vfmul (d : BitVec 7) (a : BitVec 7) (b : BitVec 7) (k : BitVec 1) (j : BitVec 1) (p : BitVec 2) : Statement (.vfmul d a b k j p) := by
  obtain ⟨e, f0, f1, f2, f3, f4, f5, f6, f7⟩ := fields16 (w := encode (.vfmul d a b k j p)) (c0 := 0) (c1 := 44) (by decide) p j k b a d rfl
  refine fun _ => ?_
  generalize encode (.vfmul d a b k j p) = w at *
  simp [raw2C f1, decodeMajor2C, f0, f2, f3, f4, f5, f6, f7]

theorem Sys2Proof.Laws.Encoding.vfma (d : BitVec 7) (a : BitVec 7) (b : BitVec 7) (k : BitVec 1) (j : BitVec 1) (p : BitVec 2) : Statement (.vfma d a b k j p) := by
  obtain ⟨e, f0, f1, f2, f3, f4, f5, f6, f7⟩ := fields16 (w := encode (.vfma d a b k j p)) (c0 := 1) (c1 := 44) (by decide) p j k b a d rfl
  refine fun _ => ?_
  generalize encode (.vfma d a b k j p) = w at *
  simp [raw2C f1, decodeMajor2C, f0, f2, f3, f4, f5, f6, f7]

theorem Sys2Proof.Laws.Encoding.vfmin (d : BitVec 7) (a : BitVec 7) (b : BitVec 7) (k : BitVec 1) (j : BitVec 1) (p : BitVec 2) : Statement (.vfmin d a b k j p) := by
  obtain ⟨e, f0, f1, f2, f3, f4, f5, f6, f7⟩ := fields16 (w := encode (.vfmin d a b k j p)) (c0 := 0) (c1 := 45) (by decide) p j k b a d rfl
  refine fun _ => ?_
  generalize encode (.vfmin d a b k j p) = w at *
  simp [raw2D f1, decodeMajor2D, f0, f2, f3, f4, f5, f6, f7]

theorem Sys2Proof.Laws.Encoding.vfmax (d : BitVec 7) (a : BitVec 7) (b : BitVec 7) (k : BitVec 1) (j : BitVec 1) (p : BitVec 2) : Statement (.vfmax d a b k j p) := by
  obtain ⟨e, f0, f1, f2, f3, f4, f5, f6, f7⟩ := fields16 (w := encode (.vfmax d a b k j p)) (c0 := 1) (c1 := 45) (by decide) p j k b a d rfl
  refine fun _ => ?_
  generalize encode (.vfmax d a b k j p) = w at *
  simp [raw2D f1, decodeMajor2D, f0, f2, f3, f4, f5, f6, f7]

theorem Sys2Proof.Laws.Encoding.vfdiv (d : BitVec 7) (a : BitVec 7) (b : BitVec 7) (k : BitVec 1) (j : BitVec 1) (p : BitVec 2) : Statement (.vfdiv d a b k j p) := by
  obtain ⟨e, f0, f1, f2, f3, f4, f5, f6, f7⟩ := fields16 (w := encode (.vfdiv d a b k j p)) (c0 := 0) (c1 := 46) (by decide) p j k b a d rfl
  refine fun _ => ?_
  generalize encode (.vfdiv d a b k j p) = w at *
  simp [raw2E f1, decodeMajor2E, f0, f2, f3, f4, f5, f6, f7]

theorem Sys2Proof.Laws.Encoding.vfms (d : BitVec 7) (a : BitVec 7) (b : BitVec 7) (k : BitVec 1) (j : BitVec 1) (p : BitVec 2) : Statement (.vfms d a b k j p) := by
  obtain ⟨e, f0, f1, f2, f3, f4, f5, f6, f7⟩ := fields16 (w := encode (.vfms d a b k j p)) (c0 := 1) (c1 := 46) (by decide) p j k b a d rfl
  refine fun _ => ?_
  generalize encode (.vfms d a b k j p) = w at *
  simp [raw2E f1, decodeMajor2E, f0, f2, f3, f4, f5, f6, f7]

theorem Sys2Proof.Laws.Encoding.vcfle (d : BitVec 7) (a : BitVec 7) (b : BitVec 7) (k : BitVec 1) (j : BitVec 1) (p : BitVec 2) : Statement (.vcfle d a b k j p) := by
  obtain ⟨e, f0, f1, f2, f3, f4, f5, f6, f7⟩ := fields16 (w := encode (.vcfle d a b k j p)) (c0 := 0) (c1 := 47) (by decide) p j k b a d rfl
  refine fun _ => ?_
  generalize encode (.vcfle d a b k j p) = w at *
  simp [raw2F f1, decodeMajor2F, f0, f2, f3, f4, f5, f6, f7]

theorem Sys2Proof.Laws.Encoding.vcfun (d : BitVec 7) (a : BitVec 7) (b : BitVec 7) (k : BitVec 1) (j : BitVec 1) (p : BitVec 2) : Statement (.vcfun d a b k j p) := by
  obtain ⟨e, f0, f1, f2, f3, f4, f5, f6, f7⟩ := fields16 (w := encode (.vcfun d a b k j p)) (c0 := 1) (c1 := 47) (by decide) p j k b a d rfl
  refine fun _ => ?_
  generalize encode (.vcfun d a b k j p) = w at *
  simp [raw2F f1, decodeMajor2F, f0, f2, f3, f4, f5, f6, f7]

theorem Sys2Proof.Laws.Encoding.vceq (d : BitVec 7) (a : BitVec 7) (b : BitVec 7) (k : BitVec 1) (j : BitVec 1) (p : BitVec 2) : Statement (.vceq d a b k j p) := by
  obtain ⟨e, f0, f1, f2, f3, f4, f5, f6, f7⟩ := fields16 (w := encode (.vceq d a b k j p)) (c0 := 0) (c1 := 48) (by decide) p j k b a d rfl
  refine fun _ => ?_
  generalize encode (.vceq d a b k j p) = w at *
  simp [raw30 f1, decodeMajor30, f0, f2, f3, f4, f5, f6, f7]

theorem Sys2Proof.Laws.Encoding.vcne (d : BitVec 7) (a : BitVec 7) (b : BitVec 7) (k : BitVec 1) (j : BitVec 1) (p : BitVec 2) : Statement (.vcne d a b k j p) := by
  obtain ⟨e, f0, f1, f2, f3, f4, f5, f6, f7⟩ := fields16 (w := encode (.vcne d a b k j p)) (c0 := 1) (c1 := 48) (by decide) p j k b a d rfl
  refine fun _ => ?_
  generalize encode (.vcne d a b k j p) = w at *
  simp [raw30 f1, decodeMajor30, f0, f2, f3, f4, f5, f6, f7]

theorem Sys2Proof.Laws.Encoding.vclt (d : BitVec 7) (a : BitVec 7) (b : BitVec 7) (k : BitVec 1) (j : BitVec 1) (p : BitVec 2) : Statement (.vclt d a b k j p) := by
  obtain ⟨e, f0, f1, f2, f3, f4, f5, f6, f7⟩ := fields16 (w := encode (.vclt d a b k j p)) (c0 := 0) (c1 := 49) (by decide) p j k b a d rfl
  refine fun _ => ?_
  generalize encode (.vclt d a b k j p) = w at *
  simp [raw31 f1, decodeMajor31, f0, f2, f3, f4, f5, f6, f7]

theorem Sys2Proof.Laws.Encoding.vcge (d : BitVec 7) (a : BitVec 7) (b : BitVec 7) (k : BitVec 1) (j : BitVec 1) (p : BitVec 2) : Statement (.vcge d a b k j p) := by
  obtain ⟨e, f0, f1, f2, f3, f4, f5, f6, f7⟩ := fields16 (w := encode (.vcge d a b k j p)) (c0 := 1) (c1 := 49) (by decide) p j k b a d rfl
  refine fun _ => ?_
  generalize encode (.vcge d a b k j p) = w at *
  simp [raw31 f1, decodeMajor31, f0, f2, f3, f4, f5, f6, f7]

theorem Sys2Proof.Laws.Encoding.vcltn (d : BitVec 7) (a : BitVec 7) (b : BitVec 7) (k : BitVec 1) (j : BitVec 1) (p : BitVec 2) : Statement (.vcltn d a b k j p) := by
  obtain ⟨e, f0, f1, f2, f3, f4, f5, f6, f7⟩ := fields16 (w := encode (.vcltn d a b k j p)) (c0 := 0) (c1 := 50) (by decide) p j k b a d rfl
  refine fun _ => ?_
  generalize encode (.vcltn d a b k j p) = w at *
  simp [raw32 f1, decodeMajor32, f0, f2, f3, f4, f5, f6, f7]

theorem Sys2Proof.Laws.Encoding.vcgen (d : BitVec 7) (a : BitVec 7) (b : BitVec 7) (k : BitVec 1) (j : BitVec 1) (p : BitVec 2) : Statement (.vcgen d a b k j p) := by
  obtain ⟨e, f0, f1, f2, f3, f4, f5, f6, f7⟩ := fields16 (w := encode (.vcgen d a b k j p)) (c0 := 1) (c1 := 50) (by decide) p j k b a d rfl
  refine fun _ => ?_
  generalize encode (.vcgen d a b k j p) = w at *
  simp [raw32 f1, decodeMajor32, f0, f2, f3, f4, f5, f6, f7]

theorem Sys2Proof.Laws.Encoding.vcfeq (d : BitVec 7) (a : BitVec 7) (b : BitVec 7) (k : BitVec 1) (j : BitVec 1) (p : BitVec 2) : Statement (.vcfeq d a b k j p) := by
  obtain ⟨e, f0, f1, f2, f3, f4, f5, f6, f7⟩ := fields16 (w := encode (.vcfeq d a b k j p)) (c0 := 0) (c1 := 51) (by decide) p j k b a d rfl
  refine fun _ => ?_
  generalize encode (.vcfeq d a b k j p) = w at *
  simp [raw33 f1, decodeMajor33, f0, f2, f3, f4, f5, f6, f7]

theorem Sys2Proof.Laws.Encoding.vcflt (d : BitVec 7) (a : BitVec 7) (b : BitVec 7) (k : BitVec 1) (j : BitVec 1) (p : BitVec 2) : Statement (.vcflt d a b k j p) := by
  obtain ⟨e, f0, f1, f2, f3, f4, f5, f6, f7⟩ := fields16 (w := encode (.vcflt d a b k j p)) (c0 := 1) (c1 := 51) (by decide) p j k b a d rfl
  refine fun _ => ?_
  generalize encode (.vcflt d a b k j p) = w at *
  simp [raw33 f1, decodeMajor33, f0, f2, f3, f4, f5, f6, f7]

theorem Sys2Proof.Laws.Encoding.vmov (d : BitVec 7) (a : BitVec 7) (k : BitVec 1) (p : BitVec 2) : Statement (.vmov d a k p) := by
  obtain ⟨e, f0, f1, f2, f3, f4, f5, f6, f7⟩ := fields18 (w := encode (.vmov d a k p)) (c0 := 0) (c1 := 0) (c2 := 0) (c3 := 52) (by decide) p k a d rfl
  refine fun _ => ?_
  generalize encode (.vmov d a k p) = w at *
  simp [raw34 f3, decodeMajor34, f0, f1, f2, f4, f5, f6, f7]

theorem Sys2Proof.Laws.Encoding.vnot (d : BitVec 7) (a : BitVec 7) (k : BitVec 1) (p : BitVec 2) : Statement (.vnot d a k p) := by
  obtain ⟨e, f0, f1, f2, f3, f4, f5, f6, f7⟩ := fields18 (w := encode (.vnot d a k p)) (c0 := 0) (c1 := 0) (c2 := 1) (c3 := 52) (by decide) p k a d rfl
  refine fun _ => ?_
  generalize encode (.vnot d a k p) = w at *
  simp [raw34 f3, decodeMajor34, f0, f1, f2, f4, f5, f6, f7]

theorem Sys2Proof.Laws.Encoding.vneg (d : BitVec 7) (a : BitVec 7) (k : BitVec 1) (p : BitVec 2) : Statement (.vneg d a k p) := by
  obtain ⟨e, f0, f1, f2, f3, f4, f5, f6, f7⟩ := fields18 (w := encode (.vneg d a k p)) (c0 := 0) (c1 := 0) (c2 := 2) (c3 := 52) (by decide) p k a d rfl
  refine fun _ => ?_
  generalize encode (.vneg d a k p) = w at *
  simp [raw34 f3, decodeMajor34, f0, f1, f2, f4, f5, f6, f7]

theorem Sys2Proof.Laws.Encoding.vabs (d : BitVec 7) (a : BitVec 7) (k : BitVec 1) (p : BitVec 2) : Statement (.vabs d a k p) := by
  obtain ⟨e, f0, f1, f2, f3, f4, f5, f6, f7⟩ := fields18 (w := encode (.vabs d a k p)) (c0 := 0) (c1 := 0) (c2 := 3) (c3 := 52) (by decide) p k a d rfl
  refine fun _ => ?_
  generalize encode (.vabs d a k p) = w at *
  simp [raw34 f3, decodeMajor34, f0, f1, f2, f4, f5, f6, f7]

theorem Sys2Proof.Laws.Encoding.vfneg (d : BitVec 7) (a : BitVec 7) (k : BitVec 1) (p : BitVec 2) : Statement (.vfneg d a k p) := by
  obtain ⟨e, f0, f1, f2, f3, f4, f5, f6, f7⟩ := fields18 (w := encode (.vfneg d a k p)) (c0 := 0) (c1 := 0) (c2 := 4) (c3 := 52) (by decide) p k a d rfl
  refine fun _ => ?_
  generalize encode (.vfneg d a k p) = w at *
  simp [raw34 f3, decodeMajor34, f0, f1, f2, f4, f5, f6, f7]

theorem Sys2Proof.Laws.Encoding.vfabs (d : BitVec 7) (a : BitVec 7) (k : BitVec 1) (p : BitVec 2) : Statement (.vfabs d a k p) := by
  obtain ⟨e, f0, f1, f2, f3, f4, f5, f6, f7⟩ := fields18 (w := encode (.vfabs d a k p)) (c0 := 0) (c1 := 0) (c2 := 5) (c3 := 52) (by decide) p k a d rfl
  refine fun _ => ?_
  generalize encode (.vfabs d a k p) = w at *
  simp [raw34 f3, decodeMajor34, f0, f1, f2, f4, f5, f6, f7]

theorem Sys2Proof.Laws.Encoding.vfsqrt (d : BitVec 7) (a : BitVec 7) (k : BitVec 1) (p : BitVec 2) : Statement (.vfsqrt d a k p) := by
  obtain ⟨e, f0, f1, f2, f3, f4, f5, f6, f7⟩ := fields18 (w := encode (.vfsqrt d a k p)) (c0 := 0) (c1 := 0) (c2 := 6) (c3 := 52) (by decide) p k a d rfl
  refine fun _ => ?_
  generalize encode (.vfsqrt d a k p) = w at *
  simp [raw34 f3, decodeMajor34, f0, f1, f2, f4, f5, f6, f7]

theorem Sys2Proof.Laws.Encoding.vexp2 (d : BitVec 7) (a : BitVec 7) (k : BitVec 1) (p : BitVec 2) : Statement (.vexp2 d a k p) := by
  obtain ⟨e, f0, f1, f2, f3, f4, f5, f6, f7⟩ := fields18 (w := encode (.vexp2 d a k p)) (c0 := 0) (c1 := 0) (c2 := 7) (c3 := 52) (by decide) p k a d rfl
  refine fun _ => ?_
  generalize encode (.vexp2 d a k p) = w at *
  simp [raw34 f3, decodeMajor34, f0, f1, f2, f4, f5, f6, f7]

theorem Sys2Proof.Laws.Encoding.vlog2 (d : BitVec 7) (a : BitVec 7) (k : BitVec 1) (p : BitVec 2) : Statement (.vlog2 d a k p) := by
  obtain ⟨e, f0, f1, f2, f3, f4, f5, f6, f7⟩ := fields18 (w := encode (.vlog2 d a k p)) (c0 := 0) (c1 := 0) (c2 := 8) (c3 := 52) (by decide) p k a d rfl
  refine fun _ => ?_
  generalize encode (.vlog2 d a k p) = w at *
  simp [raw34 f3, decodeMajor34, f0, f1, f2, f4, f5, f6, f7]

theorem Sys2Proof.Laws.Encoding.vrcp (d : BitVec 7) (a : BitVec 7) (k : BitVec 1) (p : BitVec 2) : Statement (.vrcp d a k p) := by
  obtain ⟨e, f0, f1, f2, f3, f4, f5, f6, f7⟩ := fields18 (w := encode (.vrcp d a k p)) (c0 := 0) (c1 := 0) (c2 := 9) (c3 := 52) (by decide) p k a d rfl
  refine fun _ => ?_
  generalize encode (.vrcp d a k p) = w at *
  simp [raw34 f3, decodeMajor34, f0, f1, f2, f4, f5, f6, f7]

theorem Sys2Proof.Laws.Encoding.vrsqrt (d : BitVec 7) (a : BitVec 7) (k : BitVec 1) (p : BitVec 2) : Statement (.vrsqrt d a k p) := by
  obtain ⟨e, f0, f1, f2, f3, f4, f5, f6, f7⟩ := fields18 (w := encode (.vrsqrt d a k p)) (c0 := 0) (c1 := 0) (c2 := 10) (c3 := 52) (by decide) p k a d rfl
  refine fun _ => ?_
  generalize encode (.vrsqrt d a k p) = w at *
  simp [raw34 f3, decodeMajor34, f0, f1, f2, f4, f5, f6, f7]

theorem Sys2Proof.Laws.Encoding.vcvt (d : BitVec 7) (a : BitVec 7) (k : BitVec 1) (p : BitVec 2) : Statement (.vcvt d a k p) := by
  obtain ⟨e, f0, f1, f2, f3, f4, f5, f6, f7⟩ := fields18 (w := encode (.vcvt d a k p)) (c0 := 0) (c1 := 0) (c2 := 11) (c3 := 52) (by decide) p k a d rfl
  refine fun _ => ?_
  generalize encode (.vcvt d a k p) = w at *
  simp [raw34 f3, decodeMajor34, f0, f1, f2, f4, f5, f6, f7]

theorem Sys2Proof.Laws.Encoding.vclz (d : BitVec 7) (a : BitVec 7) (k : BitVec 1) (p : BitVec 2) : Statement (.vclz d a k p) := by
  obtain ⟨e, f0, f1, f2, f3, f4, f5, f6, f7⟩ := fields18 (w := encode (.vclz d a k p)) (c0 := 0) (c1 := 0) (c2 := 12) (c3 := 52) (by decide) p k a d rfl
  refine fun _ => ?_
  generalize encode (.vclz d a k p) = w at *
  simp [raw34 f3, decodeMajor34, f0, f1, f2, f4, f5, f6, f7]

theorem Sys2Proof.Laws.Encoding.vpopc (d : BitVec 7) (a : BitVec 7) (k : BitVec 1) (p : BitVec 2) : Statement (.vpopc d a k p) := by
  obtain ⟨e, f0, f1, f2, f3, f4, f5, f6, f7⟩ := fields18 (w := encode (.vpopc d a k p)) (c0 := 0) (c1 := 0) (c2 := 13) (c3 := 52) (by decide) p k a d rfl
  refine fun _ => ?_
  generalize encode (.vpopc d a k p) = w at *
  simp [raw34 f3, decodeMajor34, f0, f1, f2, f4, f5, f6, f7]

theorem Sys2Proof.Laws.Encoding.vsearch (d : BitVec 7) (a : BitVec 7) (k : BitVec 1) (p : BitVec 2) : Statement (.vsearch d a k p) := by
  obtain ⟨e, f0, f1, f2, f3, f4, f5, f6, f7⟩ := fields18 (w := encode (.vsearch d a k p)) (c0 := 0) (c1 := 0) (c2 := 14) (c3 := 52) (by decide) p k a d rfl
  refine fun _ => ?_
  generalize encode (.vsearch d a k p) = w at *
  simp [raw34 f3, decodeMajor34, f0, f1, f2, f4, f5, f6, f7]

theorem Sys2Proof.Laws.Encoding.vkwrite (d : BitVec 7) (a : BitVec 7) (k : BitVec 1) (p : BitVec 1) : Statement (.vkwrite d a k p) := by
  obtain ⟨e, f0, f1, f2, f3, f4, f5, f6, f7⟩ := fields19 (w := encode (.vkwrite d a k p)) (c0 := 0) (c1 := 0) (c2 := 15) (c3 := 52) (by decide) p k a d rfl
  refine fun _ => ?_
  generalize encode (.vkwrite d a k p) = w at *
  have := d.isLt
  have := a.isLt
  have := k.isLt
  have := p.isLt
  have g0 := eqc (w := w) (lo := 0) (n := 1) (v := 0) (by rw [e] <;> omega)
  simp [raw34 f3, decodeMajor34, f0, f1, f2, f4, f5, f6, f7, g0]

theorem Sys2Proof.Laws.Encoding.vcompress (d : BitVec 7) (a : BitVec 7) : Statement (.vcompress d a) := by
  obtain ⟨e, f0, f1, f2, f3⟩ := fields1 (w := encode (.vcompress d a)) (c0 := 512) (c1 := 52) (by decide) a d rfl
  refine fun _ => ?_
  generalize encode (.vcompress d a) = w at *
  have := d.isLt
  have := a.isLt
  have g0 := eqc (w := w) (lo := 5) (n := 7) (v := 16) (by rw [e] <;> omega)
  have g1 := eqc (w := w) (lo := 0) (n := 2) (v := 0) (by rw [e] <;> omega)
  have g2 := eqc (w := w) (lo := 0) (n := 1) (v := 0) (by rw [e] <;> omega)
  have g3 := eqc (w := w) (lo := 3) (n := 1) (v := 0) (by rw [e] <;> omega)
  simp [raw34 f1, decodeMajor34, f0, f2, f3, g0, g1, g2, g3]

theorem Sys2Proof.Laws.Encoding.vexpand (d : BitVec 7) (a : BitVec 7) : Statement (.vexpand d a) := by
  obtain ⟨e, f0, f1, f2, f3⟩ := fields1 (w := encode (.vexpand d a)) (c0 := 544) (c1 := 52) (by decide) a d rfl
  refine fun _ => ?_
  generalize encode (.vexpand d a) = w at *
  have := d.isLt
  have := a.isLt
  have g0 := eqc (w := w) (lo := 5) (n := 7) (v := 17) (by rw [e] <;> omega)
  have g1 := eqc (w := w) (lo := 0) (n := 2) (v := 0) (by rw [e] <;> omega)
  have g2 := eqc (w := w) (lo := 0) (n := 1) (v := 0) (by rw [e] <;> omega)
  have g3 := eqc (w := w) (lo := 3) (n := 1) (v := 0) (by rw [e] <;> omega)
  simp [raw34 f1, decodeMajor34, f0, f2, f3, g0, g1, g2, g3]

theorem Sys2Proof.Laws.Encoding.vrev (d : BitVec 7) (a : BitVec 7) (p : BitVec 2) : Statement (.vrev d a p) := by
  obtain ⟨e, f0, f1, f2, f3, f4, f5⟩ := fields20 (w := encode (.vrev d a p)) (c0 := 0) (c1 := 72) (c2 := 52) (by decide) p a d rfl
  refine fun _ => ?_
  generalize encode (.vrev d a p) = w at *
  have := d.isLt
  have := a.isLt
  have := p.isLt
  have g0 := eqc (w := w) (lo := 5) (n := 7) (v := 18) (by rw [e] <;> omega)
  have g1 := eqc (w := w) (lo := 3) (n := 1) (v := 0) (by rw [e] <;> omega)
  have g2 := nec (w := w) (lo := 0) (n := 12) (v := 512) (by decide) (by rw [e] <;> omega)
  have g3 := nec (w := w) (lo := 0) (n := 12) (v := 544) (by decide) (by rw [e] <;> omega)
  simp [raw34 f2, decodeMajor34, f0, f1, f3, f4, f5, g0, g1, g2, g3]

theorem Sys2Proof.Laws.Encoding.viota (d : BitVec 7) (a : BitVec 7) (p : BitVec 2) : Statement (.viota d a p) := by
  obtain ⟨e, f0, f1, f2, f3, f4, f5⟩ := fields20 (w := encode (.viota d a p)) (c0 := 0) (c1 := 76) (c2 := 52) (by decide) p a d rfl
  refine fun _ => ?_
  generalize encode (.viota d a p) = w at *
  have := d.isLt
  have := a.isLt
  have := p.isLt
  have g0 := eqc (w := w) (lo := 5) (n := 7) (v := 19) (by rw [e] <;> omega)
  have g1 := eqc (w := w) (lo := 3) (n := 1) (v := 0) (by rw [e] <;> omega)
  have g2 := nec (w := w) (lo := 0) (n := 12) (v := 512) (by decide) (by rw [e] <;> omega)
  have g3 := nec (w := w) (lo := 0) (n := 12) (v := 544) (by decide) (by rw [e] <;> omega)
  simp [raw34 f2, decodeMajor34, f0, f1, f3, f4, f5, g0, g1, g2, g3]

theorem Sys2Proof.Laws.Encoding.vbcast (d : BitVec 7) (x : BitVec 7) : Statement (.vbcast d x) := by
  obtain ⟨e, f0, f1, f2, f3, f4⟩ := fields21 (w := encode (.vbcast d x)) (c0 := 0) (c1 := 0) (c2 := 53) (by decide) x d rfl
  refine fun _ => ?_
  generalize encode (.vbcast d x) = w at *
  simp [raw35 f2, decodeMajor35, f0, f1, f3, f4]

theorem Sys2Proof.Laws.Encoding.vextr (d : BitVec 7) (s : BitVec 7) (x : BitVec 7) : Statement (.vextr d s x) := by
  obtain ⟨e, f0, f1, f2, f3, f4⟩ := fields0 (w := encode (.vextr d s x)) (c0 := 1) (c1 := 53) (by decide) x s d rfl
  refine fun _ => ?_
  generalize encode (.vextr d s x) = w at *
  simp [raw35 f1, decodeMajor35, f0, f2, f3, f4]

theorem Sys2Proof.Laws.Encoding.vinsr (d : BitVec 7) (s : BitVec 7) (x : BitVec 7) : Statement (.vinsr d s x) := by
  obtain ⟨e, f0, f1, f2, f3, f4⟩ := fields0 (w := encode (.vinsr d s x)) (c0 := 2) (c1 := 53) (by decide) x s d rfl
  refine fun _ => ?_
  generalize encode (.vinsr d s x) = w at *
  simp [raw35 f1, decodeMajor35, f0, f2, f3, f4]

theorem Sys2Proof.Laws.Encoding.vslli (d : BitVec 7) (s : BitVec 7) (i : BitVec 7) : Statement (.vslli d s i) := by
  obtain ⟨e, f0, f1, f2, f3, f4⟩ := fields0 (w := encode (.vslli d s i)) (c0 := 3) (c1 := 53) (by decide) i s d rfl
  refine fun _ => ?_
  generalize encode (.vslli d s i) = w at *
  simp [raw35 f1, decodeMajor35, f0, f2, f3, f4]

theorem Sys2Proof.Laws.Encoding.vsrli (d : BitVec 7) (s : BitVec 7) (i : BitVec 7) : Statement (.vsrli d s i) := by
  obtain ⟨e, f0, f1, f2, f3, f4⟩ := fields0 (w := encode (.vsrli d s i)) (c0 := 4) (c1 := 53) (by decide) i s d rfl
  refine fun _ => ?_
  generalize encode (.vsrli d s i) = w at *
  simp [raw35 f1, decodeMajor35, f0, f2, f3, f4]

theorem Sys2Proof.Laws.Encoding.vsrai (d : BitVec 7) (s : BitVec 7) (i : BitVec 7) : Statement (.vsrai d s i) := by
  obtain ⟨e, f0, f1, f2, f3, f4⟩ := fields0 (w := encode (.vsrai d s i)) (c0 := 5) (c1 := 53) (by decide) i s d rfl
  refine fun _ => ?_
  generalize encode (.vsrai d s i) = w at *
  simp [raw35 f1, decodeMajor35, f0, f2, f3, f4]

theorem Sys2Proof.Laws.Encoding.vaddi (d : BitVec 7) (s : BitVec 7) (i : BitVec 7) : Statement (.vaddi d s i) := by
  obtain ⟨e, f0, f1, f2, f3, f4⟩ := fields0 (w := encode (.vaddi d s i)) (c0 := 6) (c1 := 53) (by decide) i s d rfl
  refine fun _ => ?_
  generalize encode (.vaddi d s i) = w at *
  simp [raw35 f1, decodeMajor35, f0, f2, f3, f4]

theorem Sys2Proof.Laws.Encoding.vslideup (d : BitVec 7) (s : BitVec 7) (x : BitVec 7) : Statement (.vslideup d s x) := by
  obtain ⟨e, f0, f1, f2, f3, f4⟩ := fields0 (w := encode (.vslideup d s x)) (c0 := 7) (c1 := 53) (by decide) x s d rfl
  refine fun _ => ?_
  generalize encode (.vslideup d s x) = w at *
  simp [raw35 f1, decodeMajor35, f0, f2, f3, f4]

theorem Sys2Proof.Laws.Encoding.vslidedn (d : BitVec 7) (s : BitVec 7) (x : BitVec 7) : Statement (.vslidedn d s x) := by
  obtain ⟨e, f0, f1, f2, f3, f4⟩ := fields0 (w := encode (.vslidedn d s x)) (c0 := 8) (c1 := 53) (by decide) x s d rfl
  refine fun _ => ?_
  generalize encode (.vslidedn d s x) = w at *
  simp [raw35 f1, decodeMajor35, f0, f2, f3, f4]

theorem Sys2Proof.Laws.Encoding.vredsum (d : BitVec 7) (s : BitVec 7) : Statement (.vredsum d s) := by
  obtain ⟨e, f0, f1, f2, f3⟩ := fields1 (w := encode (.vredsum d s)) (c0 := 9) (c1 := 53) (by decide) s d rfl
  refine fun _ => ?_
  generalize encode (.vredsum d s) = w at *
  have := d.isLt
  have := s.isLt
  have g0 := eqc (w := w) (lo := 0) (n := 5) (v := 9) (by rw [e] <;> omega)
  simp [raw35 f1, decodeMajor35, f0, f2, f3, g0]

theorem Sys2Proof.Laws.Encoding.vredmin (d : BitVec 7) (s : BitVec 7) : Statement (.vredmin d s) := by
  obtain ⟨e, f0, f1, f2, f3⟩ := fields1 (w := encode (.vredmin d s)) (c0 := 10) (c1 := 53) (by decide) s d rfl
  refine fun _ => ?_
  generalize encode (.vredmin d s) = w at *
  have := d.isLt
  have := s.isLt
  have g0 := eqc (w := w) (lo := 0) (n := 5) (v := 10) (by rw [e] <;> omega)
  simp [raw35 f1, decodeMajor35, f0, f2, f3, g0]

theorem Sys2Proof.Laws.Encoding.vredmax (d : BitVec 7) (s : BitVec 7) : Statement (.vredmax d s) := by
  obtain ⟨e, f0, f1, f2, f3⟩ := fields1 (w := encode (.vredmax d s)) (c0 := 11) (c1 := 53) (by decide) s d rfl
  refine fun _ => ?_
  generalize encode (.vredmax d s) = w at *
  have := d.isLt
  have := s.isLt
  have g0 := eqc (w := w) (lo := 0) (n := 5) (v := 11) (by rw [e] <;> omega)
  simp [raw35 f1, decodeMajor35, f0, f2, f3, g0]

theorem Sys2Proof.Laws.Encoding.vredand (d : BitVec 7) (s : BitVec 7) : Statement (.vredand d s) := by
  obtain ⟨e, f0, f1, f2, f3⟩ := fields1 (w := encode (.vredand d s)) (c0 := 12) (c1 := 53) (by decide) s d rfl
  refine fun _ => ?_
  generalize encode (.vredand d s) = w at *
  have := d.isLt
  have := s.isLt
  have g0 := eqc (w := w) (lo := 0) (n := 5) (v := 12) (by rw [e] <;> omega)
  simp [raw35 f1, decodeMajor35, f0, f2, f3, g0]

theorem Sys2Proof.Laws.Encoding.vredor (d : BitVec 7) (s : BitVec 7) : Statement (.vredor d s) := by
  obtain ⟨e, f0, f1, f2, f3⟩ := fields1 (w := encode (.vredor d s)) (c0 := 13) (c1 := 53) (by decide) s d rfl
  refine fun _ => ?_
  generalize encode (.vredor d s) = w at *
  have := d.isLt
  have := s.isLt
  have g0 := eqc (w := w) (lo := 0) (n := 5) (v := 13) (by rw [e] <;> omega)
  simp [raw35 f1, decodeMajor35, f0, f2, f3, g0]

theorem Sys2Proof.Laws.Encoding.vredxor (d : BitVec 7) (s : BitVec 7) : Statement (.vredxor d s) := by
  obtain ⟨e, f0, f1, f2, f3⟩ := fields1 (w := encode (.vredxor d s)) (c0 := 14) (c1 := 53) (by decide) s d rfl
  refine fun _ => ?_
  generalize encode (.vredxor d s) = w at *
  have := d.isLt
  have := s.isLt
  have g0 := eqc (w := w) (lo := 0) (n := 5) (v := 14) (by rw [e] <;> omega)
  simp [raw35 f1, decodeMajor35, f0, f2, f3, g0]

theorem Sys2Proof.Laws.Encoding.vfredsum (d : BitVec 7) (s : BitVec 7) (x : BitVec 7) : Statement (.vfredsum d s x) := by
  obtain ⟨e, f0, f1, f2, f3, f4⟩ := fields0 (w := encode (.vfredsum d s x)) (c0 := 15) (c1 := 53) (by decide) x s d rfl
  refine fun _ => ?_
  generalize encode (.vfredsum d s x) = w at *
  have := d.isLt
  have := s.isLt
  have := x.isLt
  have g0 := nec (w := w) (lo := 0) (n := 12) (v := 9) (by decide) (by rw [e] <;> omega)
  have g1 := nec (w := w) (lo := 0) (n := 12) (v := 10) (by decide) (by rw [e] <;> omega)
  have g2 := nec (w := w) (lo := 0) (n := 12) (v := 11) (by decide) (by rw [e] <;> omega)
  have g3 := nec (w := w) (lo := 0) (n := 12) (v := 12) (by decide) (by rw [e] <;> omega)
  have g4 := nec (w := w) (lo := 0) (n := 12) (v := 13) (by decide) (by rw [e] <;> omega)
  have g5 := nec (w := w) (lo := 0) (n := 12) (v := 14) (by decide) (by rw [e] <;> omega)
  simp [raw35 f1, decodeMajor35, f0, f2, f3, f4, g0, g1, g2, g3, g4, g5]

theorem Sys2Proof.Laws.Encoding.vfredmax (d : BitVec 7) (s : BitVec 7) : Statement (.vfredmax d s) := by
  obtain ⟨e, f0, f1, f2, f3⟩ := fields1 (w := encode (.vfredmax d s)) (c0 := 16) (c1 := 53) (by decide) s d rfl
  refine fun _ => ?_
  generalize encode (.vfredmax d s) = w at *
  have := d.isLt
  have := s.isLt
  have g0 := eqc (w := w) (lo := 0) (n := 5) (v := 16) (by rw [e] <;> omega)
  simp [raw35 f1, decodeMajor35, f0, f2, f3, g0]

theorem Sys2Proof.Laws.Encoding.vfredmin (d : BitVec 7) (s : BitVec 7) : Statement (.vfredmin d s) := by
  obtain ⟨e, f0, f1, f2, f3⟩ := fields1 (w := encode (.vfredmin d s)) (c0 := 17) (c1 := 53) (by decide) s d rfl
  refine fun _ => ?_
  generalize encode (.vfredmin d s) = w at *
  have := d.isLt
  have := s.isLt
  have g0 := eqc (w := w) (lo := 0) (n := 5) (v := 17) (by rw [e] <;> omega)
  simp [raw35 f1, decodeMajor35, f0, f2, f3, g0]

theorem Sys2Proof.Laws.Encoding.vsegsum (d : BitVec 7) (s : BitVec 7) (x : BitVec 7) : Statement (.vsegsum d s x) := by
  obtain ⟨e, f0, f1, f2, f3, f4⟩ := fields0 (w := encode (.vsegsum d s x)) (c0 := 18) (c1 := 53) (by decide) x s d rfl
  refine fun _ => ?_
  generalize encode (.vsegsum d s x) = w at *
  have := d.isLt
  have := s.isLt
  have := x.isLt
  have g0 := nec (w := w) (lo := 0) (n := 12) (v := 9) (by decide) (by rw [e] <;> omega)
  have g1 := nec (w := w) (lo := 0) (n := 12) (v := 10) (by decide) (by rw [e] <;> omega)
  have g2 := nec (w := w) (lo := 0) (n := 12) (v := 11) (by decide) (by rw [e] <;> omega)
  have g3 := nec (w := w) (lo := 0) (n := 12) (v := 12) (by decide) (by rw [e] <;> omega)
  have g4 := nec (w := w) (lo := 0) (n := 12) (v := 13) (by decide) (by rw [e] <;> omega)
  have g5 := nec (w := w) (lo := 0) (n := 12) (v := 14) (by decide) (by rw [e] <;> omega)
  have g6 := nec (w := w) (lo := 0) (n := 12) (v := 16) (by decide) (by rw [e] <;> omega)
  have g7 := nec (w := w) (lo := 0) (n := 12) (v := 17) (by decide) (by rw [e] <;> omega)
  simp [raw35 f1, decodeMajor35, f0, f2, f3, f4, g0, g1, g2, g3, g4, g5, g6, g7]

theorem Sys2Proof.Laws.Encoding.vmpopc (d : BitVec 7) (s : BitVec 7) : Statement (.vmpopc d s) := by
  obtain ⟨e, f0, f1, f2, f3⟩ := fields1 (w := encode (.vmpopc d s)) (c0 := 19) (c1 := 53) (by decide) s d rfl
  refine fun _ => ?_
  generalize encode (.vmpopc d s) = w at *
  have := d.isLt
  have := s.isLt
  have g0 := eqc (w := w) (lo := 0) (n := 5) (v := 19) (by rw [e] <;> omega)
  simp [raw35 f1, decodeMajor35, f0, f2, f3, g0]

theorem Sys2Proof.Laws.Encoding.vmfirst (d : BitVec 7) (s : BitVec 7) : Statement (.vmfirst d s) := by
  obtain ⟨e, f0, f1, f2, f3⟩ := fields1 (w := encode (.vmfirst d s)) (c0 := 20) (c1 := 53) (by decide) s d rfl
  refine fun _ => ?_
  generalize encode (.vmfirst d s) = w at *
  have := d.isLt
  have := s.isLt
  have g0 := eqc (w := w) (lo := 0) (n := 5) (v := 20) (by rw [e] <;> omega)
  simp [raw35 f1, decodeMajor35, f0, f2, f3, g0]

theorem Sys2Proof.Laws.Encoding.vbcastMd (d : BitVec 7) (x : BitVec 7) : Statement (.vbcastMd d x) := by
  obtain ⟨e, f0, f1, f2, f3, f4⟩ := fields21 (w := encode (.vbcastMd d x)) (c0 := 0) (c1 := 0) (c2 := 61) (by decide) x d rfl
  refine fun _ => ?_
  generalize encode (.vbcastMd d x) = w at *
  simp [raw3D f2, decodeMajor3D, f0, f1, f3, f4]

theorem Sys2Proof.Laws.Encoding.vslliMd (d : BitVec 7) (s : BitVec 7) (i : BitVec 7) : Statement (.vslliMd d s i) := by
  obtain ⟨e, f0, f1, f2, f3, f4⟩ := fields0 (w := encode (.vslliMd d s i)) (c0 := 3) (c1 := 61) (by decide) i s d rfl
  refine fun _ => ?_
  generalize encode (.vslliMd d s i) = w at *
  simp [raw3D f1, decodeMajor3D, f0, f2, f3, f4]

theorem Sys2Proof.Laws.Encoding.vsrliMd (d : BitVec 7) (s : BitVec 7) (i : BitVec 7) : Statement (.vsrliMd d s i) := by
  obtain ⟨e, f0, f1, f2, f3, f4⟩ := fields0 (w := encode (.vsrliMd d s i)) (c0 := 4) (c1 := 61) (by decide) i s d rfl
  refine fun _ => ?_
  generalize encode (.vsrliMd d s i) = w at *
  simp [raw3D f1, decodeMajor3D, f0, f2, f3, f4]

theorem Sys2Proof.Laws.Encoding.vsraiMd (d : BitVec 7) (s : BitVec 7) (i : BitVec 7) : Statement (.vsraiMd d s i) := by
  obtain ⟨e, f0, f1, f2, f3, f4⟩ := fields0 (w := encode (.vsraiMd d s i)) (c0 := 5) (c1 := 61) (by decide) i s d rfl
  refine fun _ => ?_
  generalize encode (.vsraiMd d s i) = w at *
  simp [raw3D f1, decodeMajor3D, f0, f2, f3, f4]

theorem Sys2Proof.Laws.Encoding.vaddiMd (d : BitVec 7) (s : BitVec 7) (i : BitVec 7) : Statement (.vaddiMd d s i) := by
  obtain ⟨e, f0, f1, f2, f3, f4⟩ := fields0 (w := encode (.vaddiMd d s i)) (c0 := 6) (c1 := 61) (by decide) i s d rfl
  refine fun _ => ?_
  generalize encode (.vaddiMd d s i) = w at *
  simp [raw3D f1, decodeMajor3D, f0, f2, f3, f4]

theorem Sys2Proof.Laws.Encoding.vslideupMd (d : BitVec 7) (s : BitVec 7) (x : BitVec 7) : Statement (.vslideupMd d s x) := by
  obtain ⟨e, f0, f1, f2, f3, f4⟩ := fields0 (w := encode (.vslideupMd d s x)) (c0 := 7) (c1 := 61) (by decide) x s d rfl
  refine fun _ => ?_
  generalize encode (.vslideupMd d s x) = w at *
  simp [raw3D f1, decodeMajor3D, f0, f2, f3, f4]

theorem Sys2Proof.Laws.Encoding.vslidednMd (d : BitVec 7) (s : BitVec 7) (x : BitVec 7) : Statement (.vslidednMd d s x) := by
  obtain ⟨e, f0, f1, f2, f3, f4⟩ := fields0 (w := encode (.vslidednMd d s x)) (c0 := 8) (c1 := 61) (by decide) x s d rfl
  refine fun _ => ?_
  generalize encode (.vslidednMd d s x) = w at *
  simp [raw3D f1, decodeMajor3D, f0, f2, f3, f4]

theorem Sys2Proof.Laws.Encoding.vredsumMd (d : BitVec 7) (s : BitVec 7) : Statement (.vredsumMd d s) := by
  obtain ⟨e, f0, f1, f2, f3⟩ := fields1 (w := encode (.vredsumMd d s)) (c0 := 9) (c1 := 61) (by decide) s d rfl
  refine fun _ => ?_
  generalize encode (.vredsumMd d s) = w at *
  have := d.isLt
  have := s.isLt
  have g0 := eqc (w := w) (lo := 0) (n := 5) (v := 9) (by rw [e] <;> omega)
  simp [raw3D f1, decodeMajor3D, f0, f2, f3, g0]

theorem Sys2Proof.Laws.Encoding.vredminMd (d : BitVec 7) (s : BitVec 7) : Statement (.vredminMd d s) := by
  obtain ⟨e, f0, f1, f2, f3⟩ := fields1 (w := encode (.vredminMd d s)) (c0 := 10) (c1 := 61) (by decide) s d rfl
  refine fun _ => ?_
  generalize encode (.vredminMd d s) = w at *
  have := d.isLt
  have := s.isLt
  have g0 := eqc (w := w) (lo := 0) (n := 5) (v := 10) (by rw [e] <;> omega)
  simp [raw3D f1, decodeMajor3D, f0, f2, f3, g0]

theorem Sys2Proof.Laws.Encoding.vredmaxMd (d : BitVec 7) (s : BitVec 7) : Statement (.vredmaxMd d s) := by
  obtain ⟨e, f0, f1, f2, f3⟩ := fields1 (w := encode (.vredmaxMd d s)) (c0 := 11) (c1 := 61) (by decide) s d rfl
  refine fun _ => ?_
  generalize encode (.vredmaxMd d s) = w at *
  have := d.isLt
  have := s.isLt
  have g0 := eqc (w := w) (lo := 0) (n := 5) (v := 11) (by rw [e] <;> omega)
  simp [raw3D f1, decodeMajor3D, f0, f2, f3, g0]

theorem Sys2Proof.Laws.Encoding.vredandMd (d : BitVec 7) (s : BitVec 7) : Statement (.vredandMd d s) := by
  obtain ⟨e, f0, f1, f2, f3⟩ := fields1 (w := encode (.vredandMd d s)) (c0 := 12) (c1 := 61) (by decide) s d rfl
  refine fun _ => ?_
  generalize encode (.vredandMd d s) = w at *
  have := d.isLt
  have := s.isLt
  have g0 := eqc (w := w) (lo := 0) (n := 5) (v := 12) (by rw [e] <;> omega)
  simp [raw3D f1, decodeMajor3D, f0, f2, f3, g0]

theorem Sys2Proof.Laws.Encoding.vredorMd (d : BitVec 7) (s : BitVec 7) : Statement (.vredorMd d s) := by
  obtain ⟨e, f0, f1, f2, f3⟩ := fields1 (w := encode (.vredorMd d s)) (c0 := 13) (c1 := 61) (by decide) s d rfl
  refine fun _ => ?_
  generalize encode (.vredorMd d s) = w at *
  have := d.isLt
  have := s.isLt
  have g0 := eqc (w := w) (lo := 0) (n := 5) (v := 13) (by rw [e] <;> omega)
  simp [raw3D f1, decodeMajor3D, f0, f2, f3, g0]

theorem Sys2Proof.Laws.Encoding.vredxorMd (d : BitVec 7) (s : BitVec 7) : Statement (.vredxorMd d s) := by
  obtain ⟨e, f0, f1, f2, f3⟩ := fields1 (w := encode (.vredxorMd d s)) (c0 := 14) (c1 := 61) (by decide) s d rfl
  refine fun _ => ?_
  generalize encode (.vredxorMd d s) = w at *
  have := d.isLt
  have := s.isLt
  have g0 := eqc (w := w) (lo := 0) (n := 5) (v := 14) (by rw [e] <;> omega)
  simp [raw3D f1, decodeMajor3D, f0, f2, f3, g0]

theorem Sys2Proof.Laws.Encoding.vfredsumMd (d : BitVec 7) (s : BitVec 7) (x : BitVec 7) : Statement (.vfredsumMd d s x) := by
  obtain ⟨e, f0, f1, f2, f3, f4⟩ := fields0 (w := encode (.vfredsumMd d s x)) (c0 := 15) (c1 := 61) (by decide) x s d rfl
  refine fun _ => ?_
  generalize encode (.vfredsumMd d s x) = w at *
  have := d.isLt
  have := s.isLt
  have := x.isLt
  have g0 := nec (w := w) (lo := 0) (n := 12) (v := 9) (by decide) (by rw [e] <;> omega)
  have g1 := nec (w := w) (lo := 0) (n := 12) (v := 10) (by decide) (by rw [e] <;> omega)
  have g2 := nec (w := w) (lo := 0) (n := 12) (v := 11) (by decide) (by rw [e] <;> omega)
  have g3 := nec (w := w) (lo := 0) (n := 12) (v := 12) (by decide) (by rw [e] <;> omega)
  have g4 := nec (w := w) (lo := 0) (n := 12) (v := 13) (by decide) (by rw [e] <;> omega)
  have g5 := nec (w := w) (lo := 0) (n := 12) (v := 14) (by decide) (by rw [e] <;> omega)
  simp [raw3D f1, decodeMajor3D, f0, f2, f3, f4, g0, g1, g2, g3, g4, g5]

theorem Sys2Proof.Laws.Encoding.vfredmaxMd (d : BitVec 7) (s : BitVec 7) : Statement (.vfredmaxMd d s) := by
  obtain ⟨e, f0, f1, f2, f3⟩ := fields1 (w := encode (.vfredmaxMd d s)) (c0 := 16) (c1 := 61) (by decide) s d rfl
  refine fun _ => ?_
  generalize encode (.vfredmaxMd d s) = w at *
  have := d.isLt
  have := s.isLt
  have g0 := eqc (w := w) (lo := 0) (n := 5) (v := 16) (by rw [e] <;> omega)
  simp [raw3D f1, decodeMajor3D, f0, f2, f3, g0]

theorem Sys2Proof.Laws.Encoding.vfredminMd (d : BitVec 7) (s : BitVec 7) : Statement (.vfredminMd d s) := by
  obtain ⟨e, f0, f1, f2, f3⟩ := fields1 (w := encode (.vfredminMd d s)) (c0 := 17) (c1 := 61) (by decide) s d rfl
  refine fun _ => ?_
  generalize encode (.vfredminMd d s) = w at *
  have := d.isLt
  have := s.isLt
  have g0 := eqc (w := w) (lo := 0) (n := 5) (v := 17) (by rw [e] <;> omega)
  simp [raw3D f1, decodeMajor3D, f0, f2, f3, g0]

theorem Sys2Proof.Laws.Encoding.vsegsumMd (d : BitVec 7) (s : BitVec 7) (x : BitVec 7) : Statement (.vsegsumMd d s x) := by
  obtain ⟨e, f0, f1, f2, f3, f4⟩ := fields0 (w := encode (.vsegsumMd d s x)) (c0 := 18) (c1 := 61) (by decide) x s d rfl
  refine fun _ => ?_
  generalize encode (.vsegsumMd d s x) = w at *
  have := d.isLt
  have := s.isLt
  have := x.isLt
  have g0 := nec (w := w) (lo := 0) (n := 12) (v := 9) (by decide) (by rw [e] <;> omega)
  have g1 := nec (w := w) (lo := 0) (n := 12) (v := 10) (by decide) (by rw [e] <;> omega)
  have g2 := nec (w := w) (lo := 0) (n := 12) (v := 11) (by decide) (by rw [e] <;> omega)
  have g3 := nec (w := w) (lo := 0) (n := 12) (v := 12) (by decide) (by rw [e] <;> omega)
  have g4 := nec (w := w) (lo := 0) (n := 12) (v := 13) (by decide) (by rw [e] <;> omega)
  have g5 := nec (w := w) (lo := 0) (n := 12) (v := 14) (by decide) (by rw [e] <;> omega)
  have g6 := nec (w := w) (lo := 0) (n := 12) (v := 16) (by decide) (by rw [e] <;> omega)
  have g7 := nec (w := w) (lo := 0) (n := 12) (v := 17) (by decide) (by rw [e] <;> omega)
  simp [raw3D f1, decodeMajor3D, f0, f2, f3, f4, g0, g1, g2, g3, g4, g5, g6, g7]

theorem Sys2Proof.Laws.Encoding.vmpopcMd (d : BitVec 7) (s : BitVec 7) : Statement (.vmpopcMd d s) := by
  obtain ⟨e, f0, f1, f2, f3⟩ := fields1 (w := encode (.vmpopcMd d s)) (c0 := 19) (c1 := 61) (by decide) s d rfl
  refine fun _ => ?_
  generalize encode (.vmpopcMd d s) = w at *
  have := d.isLt
  have := s.isLt
  have g0 := eqc (w := w) (lo := 0) (n := 5) (v := 19) (by rw [e] <;> omega)
  simp [raw3D f1, decodeMajor3D, f0, f2, f3, g0]

theorem Sys2Proof.Laws.Encoding.vmfirstMd (d : BitVec 7) (s : BitVec 7) : Statement (.vmfirstMd d s) := by
  obtain ⟨e, f0, f1, f2, f3⟩ := fields1 (w := encode (.vmfirstMd d s)) (c0 := 20) (c1 := 61) (by decide) s d rfl
  refine fun _ => ?_
  generalize encode (.vmfirstMd d s) = w at *
  have := d.isLt
  have := s.isLt
  have g0 := eqc (w := w) (lo := 0) (n := 5) (v := 20) (by rw [e] <;> omega)
  simp [raw3D f1, decodeMajor3D, f0, f2, f3, g0]

theorem Sys2Proof.Laws.Encoding.vld (d : BitVec 7) (b : BitVec 7) (p : BitVec 2) : Statement (.vld d b p) := by
  obtain ⟨e, f0, f1, f2, f3, f4⟩ := fields22 (w := encode (.vld d b p)) (c0 := 0) (c1 := 54) (by decide) p b d rfl
  refine fun _ => ?_
  generalize encode (.vld d b p) = w at *
  simp [raw36 f1, decodeMajor36, f0, f2, f3, f4]

theorem Sys2Proof.Laws.Encoding.vlds (d : BitVec 7) (b : BitVec 7) (s : BitVec 7) (p : BitVec 2) : Statement (.vlds d b s p) := by
  obtain ⟨e, f0, f1, f2, f3, f4, f5⟩ := fields23 (w := encode (.vlds d b s p)) (c0 := 1) (c1 := 54) (by decide) p s b d rfl
  refine fun _ => ?_
  generalize encode (.vlds d b s p) = w at *
  have := d.isLt
  have := b.isLt
  have := s.isLt
  have := p.isLt
  have g0 := nec (w := w) (lo := 2) (n := 10) (v := 0) (by decide) (by rw [e] <;> omega)
  simp [raw36 f1, decodeMajor36, f0, f2, f3, f4, f5, g0]

theorem Sys2Proof.Laws.Encoding.vldx (d : BitVec 7) (b : BitVec 7) (x : BitVec 7) (p : BitVec 2) : Statement (.vldx d b x p) := by
  obtain ⟨e, f0, f1, f2, f3, f4, f5⟩ := fields23 (w := encode (.vldx d b x p)) (c0 := 2) (c1 := 54) (by decide) p x b d rfl
  refine fun _ => ?_
  generalize encode (.vldx d b x p) = w at *
  have := d.isLt
  have := b.isLt
  have := x.isLt
  have := p.isLt
  have g0 := nec (w := w) (lo := 2) (n := 10) (v := 0) (by decide) (by rw [e] <;> omega)
  simp [raw36 f1, decodeMajor36, f0, f2, f3, f4, f5, g0]

theorem Sys2Proof.Laws.Encoding.vldl (d : BitVec 7) (b : BitVec 7) (p : BitVec 2) : Statement (.vldl d b p) := by
  obtain ⟨e, f0, f1, f2, f3, f4⟩ := fields22 (w := encode (.vldl d b p)) (c0 := 3) (c1 := 54) (by decide) p b d rfl
  refine fun _ => ?_
  generalize encode (.vldl d b p) = w at *
  have := d.isLt
  have := b.isLt
  have := p.isLt
  have g0 := eqc (w := w) (lo := 2) (n := 3) (v := 3) (by rw [e] <;> omega)
  simp [raw36 f1, decodeMajor36, f0, f2, f3, f4, g0]

theorem Sys2Proof.Laws.Encoding.vldy (d : BitVec 7) (b : BitVec 7) (p : BitVec 2) : Statement (.vldy d b p) := by
  obtain ⟨e, f0, f1, f2, f3, f4⟩ := fields22 (w := encode (.vldy d b p)) (c0 := 4) (c1 := 54) (by decide) p b d rfl
  refine fun _ => ?_
  generalize encode (.vldy d b p) = w at *
  have := d.isLt
  have := b.isLt
  have := p.isLt
  have g0 := eqc (w := w) (lo := 2) (n := 3) (v := 4) (by rw [e] <;> omega)
  simp [raw36 f1, decodeMajor36, f0, f2, f3, f4, g0]

theorem Sys2Proof.Laws.Encoding.vldys (d : BitVec 7) (b : BitVec 7) (s : BitVec 7) (p : BitVec 2) : Statement (.vldys d b s p) := by
  obtain ⟨e, f0, f1, f2, f3, f4, f5⟩ := fields23 (w := encode (.vldys d b s p)) (c0 := 5) (c1 := 54) (by decide) p s b d rfl
  refine fun _ => ?_
  generalize encode (.vldys d b s p) = w at *
  have := d.isLt
  have := b.isLt
  have := s.isLt
  have := p.isLt
  have g0 := nec (w := w) (lo := 2) (n := 10) (v := 0) (by decide) (by rw [e] <;> omega)
  have g1 := nec (w := w) (lo := 2) (n := 10) (v := 3) (by decide) (by rw [e] <;> omega)
  have g2 := nec (w := w) (lo := 2) (n := 10) (v := 4) (by decide) (by rw [e] <;> omega)
  simp [raw36 f1, decodeMajor36, f0, f2, f3, f4, f5, g0, g1, g2]

theorem Sys2Proof.Laws.Encoding.vldff (d : BitVec 7) (b : BitVec 7) (p : BitVec 2) : Statement (.vldff d b p) := by
  obtain ⟨e, f0, f1, f2, f3, f4⟩ := fields22 (w := encode (.vldff d b p)) (c0 := 6) (c1 := 54) (by decide) p b d rfl
  refine fun _ => ?_
  generalize encode (.vldff d b p) = w at *
  have := d.isLt
  have := b.isLt
  have := p.isLt
  have g0 := eqc (w := w) (lo := 2) (n := 3) (v := 6) (by rw [e] <;> omega)
  simp [raw36 f1, decodeMajor36, f0, f2, f3, f4, g0]

theorem Sys2Proof.Laws.Encoding.vst (d : BitVec 7) (b : BitVec 7) (p : BitVec 2) : Statement (.vst d b p) := by
  obtain ⟨e, f0, f1, f2, f3, f4⟩ := fields22 (w := encode (.vst d b p)) (c0 := 0) (c1 := 55) (by decide) p b d rfl
  refine fun _ => ?_
  generalize encode (.vst d b p) = w at *
  simp [raw37 f1, decodeMajor37, f0, f2, f3, f4]

theorem Sys2Proof.Laws.Encoding.vsts (d : BitVec 7) (b : BitVec 7) (s : BitVec 7) (p : BitVec 2) : Statement (.vsts d b s p) := by
  obtain ⟨e, f0, f1, f2, f3, f4, f5⟩ := fields23 (w := encode (.vsts d b s p)) (c0 := 1) (c1 := 55) (by decide) p s b d rfl
  refine fun _ => ?_
  generalize encode (.vsts d b s p) = w at *
  have := d.isLt
  have := b.isLt
  have := s.isLt
  have := p.isLt
  have g0 := nec (w := w) (lo := 2) (n := 10) (v := 0) (by decide) (by rw [e] <;> omega)
  simp [raw37 f1, decodeMajor37, f0, f2, f3, f4, f5, g0]

theorem Sys2Proof.Laws.Encoding.vstx (d : BitVec 7) (b : BitVec 7) (x : BitVec 7) (p : BitVec 2) : Statement (.vstx d b x p) := by
  obtain ⟨e, f0, f1, f2, f3, f4, f5⟩ := fields23 (w := encode (.vstx d b x p)) (c0 := 2) (c1 := 55) (by decide) p x b d rfl
  refine fun _ => ?_
  generalize encode (.vstx d b x p) = w at *
  have := d.isLt
  have := b.isLt
  have := x.isLt
  have := p.isLt
  have g0 := nec (w := w) (lo := 2) (n := 10) (v := 0) (by decide) (by rw [e] <;> omega)
  simp [raw37 f1, decodeMajor37, f0, f2, f3, f4, f5, g0]

theorem Sys2Proof.Laws.Encoding.vstl (d : BitVec 7) (b : BitVec 7) (p : BitVec 2) : Statement (.vstl d b p) := by
  obtain ⟨e, f0, f1, f2, f3, f4⟩ := fields22 (w := encode (.vstl d b p)) (c0 := 3) (c1 := 55) (by decide) p b d rfl
  refine fun _ => ?_
  generalize encode (.vstl d b p) = w at *
  have := d.isLt
  have := b.isLt
  have := p.isLt
  have g0 := eqc (w := w) (lo := 2) (n := 3) (v := 3) (by rw [e] <;> omega)
  simp [raw37 f1, decodeMajor37, f0, f2, f3, f4, g0]

theorem Sys2Proof.Laws.Encoding.vsty (d : BitVec 7) (b : BitVec 7) (p : BitVec 2) : Statement (.vsty d b p) := by
  obtain ⟨e, f0, f1, f2, f3, f4⟩ := fields22 (w := encode (.vsty d b p)) (c0 := 4) (c1 := 55) (by decide) p b d rfl
  refine fun _ => ?_
  generalize encode (.vsty d b p) = w at *
  have := d.isLt
  have := b.isLt
  have := p.isLt
  have g0 := eqc (w := w) (lo := 2) (n := 3) (v := 4) (by rw [e] <;> omega)
  simp [raw37 f1, decodeMajor37, f0, f2, f3, f4, g0]

theorem Sys2Proof.Laws.Encoding.vstys (d : BitVec 7) (b : BitVec 7) (s : BitVec 7) (p : BitVec 2) : Statement (.vstys d b s p) := by
  obtain ⟨e, f0, f1, f2, f3, f4, f5⟩ := fields23 (w := encode (.vstys d b s p)) (c0 := 5) (c1 := 55) (by decide) p s b d rfl
  refine fun _ => ?_
  generalize encode (.vstys d b s p) = w at *
  have := d.isLt
  have := b.isLt
  have := s.isLt
  have := p.isLt
  have g0 := nec (w := w) (lo := 2) (n := 10) (v := 0) (by decide) (by rw [e] <;> omega)
  have g1 := nec (w := w) (lo := 2) (n := 10) (v := 3) (by decide) (by rw [e] <;> omega)
  have g2 := nec (w := w) (lo := 2) (n := 10) (v := 4) (by decide) (by rw [e] <;> omega)
  simp [raw37 f1, decodeMajor37, f0, f2, f3, f4, f5, g0, g1, g2]

theorem Sys2Proof.Laws.Encoding.waitv (d : BitVec 7) (a : BitVec 7) (b : BitVec 7) (k : BitVec 1) : Statement (.waitv d a b k) := by
  obtain ⟨e, f0, f1, f2, f3, f4, f5⟩ := fields24 (w := encode (.waitv d a b k)) (c0 := 0) (c1 := 60) (by decide) k b a d rfl
  refine fun _ => ?_
  generalize encode (.waitv d a b k) = w at *
  simp [raw3C f1, decodeMajor3C, f0, f2, f3, f4, f5]

theorem Sys2Proof.Laws.Encoding.vstr (d : BitVec 7) (a : BitVec 7) (b : BitVec 7) (p : BitVec 2) : Statement (.vstr d a b p) := by
  obtain ⟨e, f0, f1, f2, f3, f4, f5, f6⟩ := fields25 (w := encode (.vstr d a b p)) (c0 := 1) (c1 := 0) (c2 := 60) (by decide) p b a d rfl
  refine fun _ => ?_
  generalize encode (.vstr d a b p) = w at *
  have := d.isLt
  have := a.isLt
  have := b.isLt
  have := p.isLt
  have g0 := nec (w := w) (lo := 0) (n := 4) (v := 0) (by decide) (by rw [e] <;> omega)
  simp [raw3C f2, decodeMajor3C, f0, f1, f3, f4, f5, f6, g0]

theorem Sys2Proof.Laws.Encoding.ashape (d : BitVec 7) (a : BitVec 7) (b : BitVec 7) : Statement (.ashape d a b) := by
  obtain ⟨e, f0, f1, f2, f3, f4⟩ := fields0 (w := encode (.ashape d a b)) (c0 := 0) (c1 := 56) (by decide) b a d rfl
  refine fun _ => ?_
  generalize encode (.ashape d a b) = w at *
  simp [raw38 f1, decodeMajor38, f0, f2, f3, f4]

theorem Sys2Proof.Laws.Encoding.await : Statement .await := by
  obtain ⟨e, f0, f1⟩ := fields12 (w := encode .await) (c0 := 1) (c1 := 56) (by decide)  rfl
  refine fun _ => ?_
  generalize encode .await = w at *
  have g0 := eqc (w := w) (lo := 0) (n := 5) (v := 1) (by rw [e] <;> omega)
  simp [raw38 f1, decodeMajor38, f0, g0]

theorem Sys2Proof.Laws.Encoding.arole (d : BitVec 7) (a : BitVec 7) (b : BitVec 7) : Statement (.arole d a b) := by
  obtain ⟨e, f0, f1, f2, f3, f4⟩ := fields0 (w := encode (.arole d a b)) (c0 := 2) (c1 := 56) (by decide) b a d rfl
  refine fun _ => ?_
  generalize encode (.arole d a b) = w at *
  have := d.isLt
  have := a.isLt
  have := b.isLt
  have g0 := nec (w := w) (lo := 0) (n := 26) (v := 1) (by decide) (by rw [e] <;> omega)
  simp [raw38 f1, decodeMajor38, f0, f2, f3, f4, g0]

theorem Sys2Proof.Laws.Encoding.aflush (a : BitVec 7) (b : BitVec 7) : Statement (.aflush a b) := by
  obtain ⟨e, f0, f1, f2, f3, f4⟩ := fields13 (w := encode (.aflush a b)) (c0 := 3) (c1 := 0) (c2 := 56) (by decide) b a rfl
  refine fun _ => ?_
  generalize encode (.aflush a b) = w at *
  have := a.isLt
  have := b.isLt
  have g0 := nec (w := w) (lo := 0) (n := 26) (v := 1) (by decide) (by rw [e] <;> omega)
  simp [raw38 f2, decodeMajor38, f0, f1, f3, f4, g0]

theorem Sys2Proof.Laws.Encoding.aclr : Statement .aclr := by
  obtain ⟨e, f0, f1⟩ := fields12 (w := encode .aclr) (c0 := 4) (c1 := 56) (by decide)  rfl
  refine fun _ => ?_
  generalize encode .aclr = w at *
  have g0 := eqc (w := w) (lo := 19) (n := 7) (v := 0) (by rw [e] <;> omega)
  have g1 := eqc (w := w) (lo := 0) (n := 5) (v := 4) (by rw [e] <;> omega)
  simp [raw38 f1, decodeMajor38, f0, g0, g1]

theorem Sys2Proof.Laws.Encoding.ainval (a : BitVec 7) (b : BitVec 7) : Statement (.ainval a b) := by
  obtain ⟨e, f0, f1, f2, f3, f4⟩ := fields13 (w := encode (.ainval a b)) (c0 := 5) (c1 := 0) (c2 := 56) (by decide) b a rfl
  refine fun _ => ?_
  generalize encode (.ainval a b) = w at *
  have := a.isLt
  have := b.isLt
  have g0 := nec (w := w) (lo := 0) (n := 26) (v := 1) (by decide) (by rw [e] <;> omega)
  have g1 := nec (w := w) (lo := 0) (n := 26) (v := 4) (by decide) (by rw [e] <;> omega)
  simp [raw38 f2, decodeMajor38, f0, f1, f3, f4, g0, g1]

theorem Sys2Proof.Laws.Encoding.mbegin (a : BitVec 7) : Statement (.mbegin a) := by
  obtain ⟨e, f0, f1, f2, f3⟩ := fields8 (w := encode (.mbegin a)) (c0 := 0) (c1 := 0) (c2 := 57) (by decide) a rfl
  refine fun _ => ?_
  generalize encode (.mbegin a) = w at *
  simp [raw39 f2, decodeMajor39, f0, f1, f3]

theorem Sys2Proof.Laws.Encoding.mend : Statement .mend := by
  obtain ⟨e, f0, f1⟩ := fields12 (w := encode .mend) (c0 := 1) (c1 := 57) (by decide)  rfl
  refine fun _ => ?_
  generalize encode .mend = w at *
  have g0 := eqc (w := w) (lo := 0) (n := 12) (v := 1) (by rw [e] <;> omega)
  have g1 := eqc (w := w) (lo := 19) (n := 7) (v := 0) (by rw [e] <;> omega)
  simp [raw39 f1, decodeMajor39, f0, g0, g1]

theorem Sys2Proof.Laws.Encoding.msplit (a : BitVec 7) (b : BitVec 7) : Statement (.msplit a b) := by
  obtain ⟨e, f0, f1, f2, f3, f4⟩ := fields13 (w := encode (.msplit a b)) (c0 := 2) (c1 := 0) (c2 := 57) (by decide) b a rfl
  refine fun _ => ?_
  generalize encode (.msplit a b) = w at *
  have := a.isLt
  have := b.isLt
  have g0 := nec (w := w) (lo := 0) (n := 12) (v := 0) (by decide) (by rw [e] <;> omega)
  have g1 := nec (w := w) (lo := 0) (n := 26) (v := 1) (by decide) (by rw [e] <;> omega)
  simp [raw39 f2, decodeMajor39, f0, f1, f3, f4, g0, g1]

theorem Sys2Proof.Laws.Encoding.mjoin (d : BitVec 7) (a : BitVec 7) : Statement (.mjoin d a) := by
  obtain ⟨e, f0, f1, f2, f3⟩ := fields1 (w := encode (.mjoin d a)) (c0 := 3) (c1 := 57) (by decide) a d rfl
  refine fun _ => ?_
  generalize encode (.mjoin d a) = w at *
  have := d.isLt
  have := a.isLt
  have g0 := eqc (w := w) (lo := 0) (n := 5) (v := 3) (by rw [e] <;> omega)
  have g1 := nec (w := w) (lo := 0) (n := 26) (v := 1) (by decide) (by rw [e] <;> omega)
  simp [raw39 f1, decodeMajor39, f0, f2, f3, g0, g1]

theorem Sys2Proof.Laws.Encoding.mstop : Statement .mstop := by
  obtain ⟨e, f0, f1⟩ := fields12 (w := encode .mstop) (c0 := 4) (c1 := 57) (by decide)  rfl
  refine fun _ => ?_
  generalize encode .mstop = w at *
  have g0 := eqc (w := w) (lo := 0) (n := 12) (v := 4) (by rw [e] <;> omega)
  have g1 := eqc (w := w) (lo := 19) (n := 7) (v := 0) (by rw [e] <;> omega)
  have g2 := eqc (w := w) (lo := 0) (n := 5) (v := 4) (by rw [e] <;> omega)
  simp [raw39 f1, decodeMajor39, f0, g0, g1, g2]

theorem Sys2Proof.Laws.Encoding.mnext (a : BitVec 3) : Statement (.mnext a) := by
  obtain ⟨e, f0, f1, f2, f3⟩ := fields26 (w := encode (.mnext a)) (c0 := 5) (c1 := 0) (c2 := 57) (by decide) a rfl
  refine fun _ => ?_
  generalize encode (.mnext a) = w at *
  have := a.isLt
  have g0 := eqc (w := w) (lo := 19) (n := 7) (v := 0) (by rw [e] <;> omega)
  have g1 := eqc (w := w) (lo := 0) (n := 5) (v := 5) (by rw [e] <;> omega)
  have g2 := nec (w := w) (lo := 0) (n := 26) (v := 1) (by decide) (by rw [e] <;> omega)
  have g3 := nec (w := w) (lo := 0) (n := 26) (v := 4) (by decide) (by rw [e] <;> omega)
  simp [raw39 f2, decodeMajor39, f0, f1, f3, g0, g1, g2, g3]

theorem Sys2Proof.Laws.Encoding.mbr (a : BitVec 3) (b : BitVec 3) : Statement (.mbr a b) := by
  obtain ⟨e, f0, f1, f2, f3, f4, f5⟩ := fields27 (w := encode (.mbr a b)) (c0 := 6) (c1 := 0) (c2 := 0) (c3 := 57) (by decide) b a rfl
  refine fun _ => ?_
  generalize encode (.mbr a b) = w at *
  have := a.isLt
  have := b.isLt
  have g0 := eqc (w := w) (lo := 19) (n := 7) (v := 0) (by rw [e] <;> omega)
  have g1 := nec (w := w) (lo := 0) (n := 12) (v := 0) (by decide) (by rw [e] <;> omega)
  have g2 := nec (w := w) (lo := 0) (n := 26) (v := 1) (by decide) (by rw [e] <;> omega)
  have g3 := nec (w := w) (lo := 0) (n := 12) (v := 3) (by decide) (by rw [e] <;> omega)
  have g4 := nec (w := w) (lo := 0) (n := 26) (v := 4) (by decide) (by rw [e] <;> omega)
  have g5 := nec (w := w) (lo := 0) (n := 12) (v := 5) (by decide) (by rw [e] <;> omega)
  simp [raw39 f3, decodeMajor39, f0, f1, f2, f4, f5, g0, g1, g2, g3, g4, g5]

theorem Sys2Proof.Laws.Encoding.mlinkr (d : BitVec 3) (l : BitVec 1) : Statement (.mlinkr d l) := by
  obtain ⟨e, f0, f1, f2, f3, f4, f5⟩ := fields28 (w := encode (.mlinkr d l)) (c0 := 7) (c1 := 0) (c2 := 0) (c3 := 57) (by decide) l d rfl
  refine fun _ => ?_
  generalize encode (.mlinkr d l) = w at *
  have := d.isLt
  have := l.isLt
  have g0 := eqc (w := w) (lo := 0) (n := 5) (v := 7) (by rw [e] <;> omega)
  have g1 := eqc (w := w) (lo := 8) (n := 4) (v := 0) (by rw [e] <;> omega)
  have g2 := nec (w := w) (lo := 0) (n := 26) (v := 1) (by decide) (by rw [e] <;> omega)
  have g3 := nec (w := w) (lo := 0) (n := 26) (v := 4) (by decide) (by rw [e] <;> omega)
  simp [raw39 f3, decodeMajor39, f0, f1, f2, f4, f5, g0, g1, g2, g3]

theorem Sys2Proof.Laws.Encoding.mlinkw : Statement .mlinkw := by
  obtain ⟨e, f0, f1⟩ := fields12 (w := encode .mlinkw) (c0 := 8) (c1 := 57) (by decide)  rfl
  refine fun _ => ?_
  generalize encode .mlinkw = w at *
  have g0 := eqc (w := w) (lo := 0) (n := 12) (v := 8) (by rw [e] <;> omega)
  have g1 := eqc (w := w) (lo := 15) (n := 11) (v := 0) (by rw [e] <;> omega)
  have g2 := eqc (w := w) (lo := 19) (n := 7) (v := 0) (by rw [e] <;> omega)
  have g3 := eqc (w := w) (lo := 13) (n := 6) (v := 0) (by rw [e] <;> omega)
  have g4 := eqc (w := w) (lo := 0) (n := 5) (v := 8) (by rw [e] <;> omega)
  have g5 := eqc (w := w) (lo := 8) (n := 4) (v := 0) (by rw [e] <;> omega)
  have g6 := eqc (w := w) (lo := 22) (n := 4) (v := 0) (by rw [e] <;> omega)
  simp [raw39 f1, decodeMajor39, f0, g0, g1, g2, g3, g4, g5, g6]

theorem Sys2Proof.Laws.Encoding.msetm (d : BitVec 7) (a : BitVec 7) (m : BitVec 3) : Statement (.msetm d a m) := by
  obtain ⟨e, f0, f1, f2, f3, f4, f5⟩ := fields29 (w := encode (.msetm d a m)) (c0 := 9) (c1 := 0) (c2 := 57) (by decide) m a d rfl
  refine fun _ => ?_
  generalize encode (.msetm d a m) = w at *
  have := d.isLt
  have := a.isLt
  have := m.isLt
  have g0 := nec (w := w) (lo := 0) (n := 12) (v := 0) (by decide) (by rw [e] <;> omega)
  have g1 := nec (w := w) (lo := 0) (n := 26) (v := 1) (by decide) (by rw [e] <;> omega)
  have g2 := nec (w := w) (lo := 0) (n := 12) (v := 3) (by decide) (by rw [e] <;> omega)
  have g3 := nec (w := w) (lo := 0) (n := 26) (v := 4) (by decide) (by rw [e] <;> omega)
  have g4 := nec (w := w) (lo := 0) (n := 12) (v := 5) (by decide) (by rw [e] <;> omega)
  have g5 := nec (w := w) (lo := 0) (n := 12) (v := 7) (by decide) (by rw [e] <;> omega)
  have g6 := nec (w := w) (lo := 0) (n := 26) (v := 8) (by decide) (by rw [e] <;> omega)
  simp [raw39 f2, decodeMajor39, f0, f1, f3, f4, f5, g0, g1, g2, g3, g4, g5, g6]

theorem Sys2Proof.Laws.Encoding.mgetm (d : BitVec 7) (a : BitVec 7) (m : BitVec 3) : Statement (.mgetm d a m) := by
  obtain ⟨e, f0, f1, f2, f3, f4, f5⟩ := fields29 (w := encode (.mgetm d a m)) (c0 := 10) (c1 := 0) (c2 := 57) (by decide) m a d rfl
  refine fun _ => ?_
  generalize encode (.mgetm d a m) = w at *
  have := d.isLt
  have := a.isLt
  have := m.isLt
  have g0 := nec (w := w) (lo := 0) (n := 12) (v := 0) (by decide) (by rw [e] <;> omega)
  have g1 := nec (w := w) (lo := 0) (n := 26) (v := 1) (by decide) (by rw [e] <;> omega)
  have g2 := nec (w := w) (lo := 0) (n := 12) (v := 3) (by decide) (by rw [e] <;> omega)
  have g3 := nec (w := w) (lo := 0) (n := 26) (v := 4) (by decide) (by rw [e] <;> omega)
  have g4 := nec (w := w) (lo := 0) (n := 12) (v := 5) (by decide) (by rw [e] <;> omega)
  have g5 := nec (w := w) (lo := 0) (n := 12) (v := 7) (by decide) (by rw [e] <;> omega)
  have g6 := nec (w := w) (lo := 0) (n := 26) (v := 8) (by decide) (by rw [e] <;> omega)
  simp [raw39 f2, decodeMajor39, f0, f1, f3, f4, f5, g0, g1, g2, g3, g4, g5, g6]

theorem Sys2Proof.Laws.Encoding.mstat (d : BitVec 7) (a : BitVec 7) : Statement (.mstat d a) := by
  obtain ⟨e, f0, f1, f2, f3⟩ := fields1 (w := encode (.mstat d a)) (c0 := 11) (c1 := 57) (by decide) a d rfl
  refine fun _ => ?_
  generalize encode (.mstat d a) = w at *
  have := d.isLt
  have := a.isLt
  have g0 := eqc (w := w) (lo := 0) (n := 5) (v := 11) (by rw [e] <;> omega)
  have g1 := eqc (w := w) (lo := 8) (n := 4) (v := 0) (by rw [e] <;> omega)
  have g2 := nec (w := w) (lo := 0) (n := 26) (v := 1) (by decide) (by rw [e] <;> omega)
  have g3 := nec (w := w) (lo := 0) (n := 26) (v := 4) (by decide) (by rw [e] <;> omega)
  have g4 := nec (w := w) (lo := 0) (n := 26) (v := 8) (by decide) (by rw [e] <;> omega)
  simp [raw39 f1, decodeMajor39, f0, f2, f3, g0, g1, g2, g3, g4]

theorem Sys2Proof.Laws.Encoding.mreset (a : BitVec 7) : Statement (.mreset a) := by
  obtain ⟨e, f0, f1, f2, f3⟩ := fields8 (w := encode (.mreset a)) (c0 := 12) (c1 := 0) (c2 := 57) (by decide) a rfl
  refine fun _ => ?_
  generalize encode (.mreset a) = w at *
  have := a.isLt
  have g0 := eqc (w := w) (lo := 0) (n := 5) (v := 12) (by rw [e] <;> omega)
  have g1 := eqc (w := w) (lo := 8) (n := 4) (v := 0) (by rw [e] <;> omega)
  have g2 := eqc (w := w) (lo := 22) (n := 4) (v := 0) (by rw [e] <;> omega)
  have g3 := nec (w := w) (lo := 0) (n := 26) (v := 1) (by decide) (by rw [e] <;> omega)
  have g4 := nec (w := w) (lo := 0) (n := 26) (v := 4) (by decide) (by rw [e] <;> omega)
  have g5 := nec (w := w) (lo := 0) (n := 26) (v := 8) (by decide) (by rw [e] <;> omega)
  simp [raw39 f2, decodeMajor39, f0, f1, f3, g0, g1, g2, g3, g4, g5]

theorem Sys2Proof.Laws.Encoding.tattach (d : BitVec 7) (a : BitVec 7) : Statement (.tattach d a) := by
  obtain ⟨e, f0, f1, f2, f3⟩ := fields1 (w := encode (.tattach d a)) (c0 := 0) (c1 := 58) (by decide) a d rfl
  refine fun _ => ?_
  generalize encode (.tattach d a) = w at *
  simp [raw3A f1, decodeMajor3A, f0, f2, f3]

theorem Sys2Proof.Laws.Encoding.tdetach : Statement .tdetach := by
  obtain ⟨e, f0, f1⟩ := fields12 (w := encode .tdetach) (c0 := 1) (c1 := 58) (by decide)  rfl
  refine fun _ => ?_
  generalize encode .tdetach = w at *
  have g0 := eqc (w := w) (lo := 0) (n := 12) (v := 1) (by rw [e] <;> omega)
  simp [raw3A f1, decodeMajor3A, f0, g0]

theorem Sys2Proof.Laws.Encoding.tmma (t : BitVec 1) (a : BitVec 7) (b : BitVec 7) : Statement (.tmma t a b) := by
  obtain ⟨e, f0, f1, f2, f3, f4, f5⟩ := fields30 (w := encode (.tmma t a b)) (c0 := 2) (c1 := 0) (c2 := 58) (by decide) b a t rfl
  refine fun _ => ?_
  generalize encode (.tmma t a b) = w at *
  have := t.isLt
  have := a.isLt
  have := b.isLt
  have g0 := nec (w := w) (lo := 0) (n := 12) (v := 0) (by decide) (by rw [e] <;> omega)
  have g1 := nec (w := w) (lo := 0) (n := 26) (v := 1) (by decide) (by rw [e] <;> omega)
  simp [raw3A f2, decodeMajor3A, f0, f1, f3, f4, f5, g0, g1]

theorem Sys2Proof.Laws.Encoding.tzero (t : BitVec 1) : Statement (.tzero t) := by
  obtain ⟨e, f0, f1, f2, f3⟩ := fields31 (w := encode (.tzero t)) (c0 := 3) (c1 := 0) (c2 := 58) (by decide) t rfl
  refine fun _ => ?_
  generalize encode (.tzero t) = w at *
  have := t.isLt
  have g0 := eqc (w := w) (lo := 0) (n := 12) (v := 3) (by rw [e] <;> omega)
  have g1 := eqc (w := w) (lo := 0) (n := 5) (v := 3) (by rw [e] <;> omega)
  have g2 := nec (w := w) (lo := 0) (n := 26) (v := 1) (by decide) (by rw [e] <;> omega)
  simp [raw3A f2, decodeMajor3A, f0, f1, f3, g0, g1, g2]

theorem Sys2Proof.Laws.Encoding.tread (d : BitVec 7) (t : BitVec 1) (b : BitVec 7) : Statement (.tread d t b) := by
  obtain ⟨e, f0, f1, f2, f3, f4, f5⟩ := fields32 (w := encode (.tread d t b)) (c0 := 4) (c1 := 0) (c2 := 58) (by decide) b t d rfl
  refine fun _ => ?_
  generalize encode (.tread d t b) = w at *
  have := d.isLt
  have := t.isLt
  have := b.isLt
  have g0 := nec (w := w) (lo := 0) (n := 12) (v := 0) (by decide) (by rw [e] <;> omega)
  have g1 := nec (w := w) (lo := 0) (n := 26) (v := 1) (by decide) (by rw [e] <;> omega)
  have g2 := nec (w := w) (lo := 0) (n := 19) (v := 3) (by decide) (by rw [e] <;> omega)
  simp [raw3A f2, decodeMajor3A, f0, f1, f3, f4, f5, g0, g1, g2]

theorem Sys2Proof.Laws.Encoding.tload (t : BitVec 1) (a : BitVec 7) (b : BitVec 7) : Statement (.tload t a b) := by
  obtain ⟨e, f0, f1, f2, f3, f4, f5⟩ := fields30 (w := encode (.tload t a b)) (c0 := 5) (c1 := 0) (c2 := 58) (by decide) b a t rfl
  refine fun _ => ?_
  generalize encode (.tload t a b) = w at *
  have := t.isLt
  have := a.isLt
  have := b.isLt
  have g0 := nec (w := w) (lo := 0) (n := 12) (v := 0) (by decide) (by rw [e] <;> omega)
  have g1 := nec (w := w) (lo := 0) (n := 26) (v := 1) (by decide) (by rw [e] <;> omega)
  have g2 := nec (w := w) (lo := 0) (n := 19) (v := 3) (by decide) (by rw [e] <;> omega)
  simp [raw3A f2, decodeMajor3A, f0, f1, f3, f4, f5, g0, g1, g2]

theorem Sys2Proof.Laws.Encoding.twait (t : BitVec 1) : Statement (.twait t) := by
  obtain ⟨e, f0, f1, f2, f3⟩ := fields31 (w := encode (.twait t)) (c0 := 6) (c1 := 0) (c2 := 58) (by decide) t rfl
  refine fun _ => ?_
  generalize encode (.twait t) = w at *
  have := t.isLt
  have g0 := eqc (w := w) (lo := 0) (n := 12) (v := 6) (by rw [e] <;> omega)
  have g1 := eqc (w := w) (lo := 13) (n := 6) (v := 0) (by rw [e] <;> omega)
  have g2 := eqc (w := w) (lo := 0) (n := 5) (v := 6) (by rw [e] <;> omega)
  have g3 := nec (w := w) (lo := 0) (n := 26) (v := 1) (by decide) (by rw [e] <;> omega)
  simp [raw3A f2, decodeMajor3A, f0, f1, f3, g0, g1, g2, g3]
end

