-- ==== Sys2Proof/Laws/Traps.lean ====
section
/-! SUPPORT. What taking an exception leaves (R80, R140, R144). -/

namespace Sys2Proof.Machine

theorem bit_wset_same (x : Word) (k v : Nat) (h : k < 64) : bit (wset x k 1 v).toNat k = (v % 2 == 1) := by
  have e := wf_wset_same x k 1 v (by omega)
  simp only [wf, bits, bit] at e ⊢
  simp only [Nat.pow_one] at e
  rw [e]

theorem bit_wset_apart (x : Word) (lo n v k : Nat) (h : lo + n ≤ 64) (a : k < lo ∨ lo + n ≤ k) :
    bit (wset x lo n v).toNat k = bit x.toNat k := by
  have e := wf_wset_apart x lo n v k 1 h (by omega)
  simp only [wf, bits, bit, Nat.pow_one] at e ⊢
  rw [e]

theorem b2n_eq (b : Bool) : (b2n b % 2 == 1) = b := by cases b <;> rfl

/-- STATUS as a trap from level `pl` with interrupts `ie` leaves it. -/
theorem status_enter (x : Word) (pp pl target : Nat) (ie : Bool) (hp : pl < 4) (ht : target < 4) :
    let y := wset (wset (wset (wset (wset x 6 1 pp) 2 2 pl) 5 1 (b2n ie)) 4 1 0) 0 2 target
    wf y 0 2 = target ∧ wf y 2 2 = pl ∧ bit y.toNat 4 = false ∧ bit y.toNat 5 = ie ∧ bit y.toNat 6 = (pp % 2 == 1) ∧
      wf y 7 57 = wf x 7 57 := by
  simp only
  refine ⟨?_, ?_, ?_, ?_, ?_, ?_⟩
  · rw [wf_wset_same _ _ _ _ (by omega)]; omega
  · rw [wf_wset_apart _ _ _ _ _ _ (by omega) (by omega), wf_wset_apart _ _ _ _ _ _ (by omega) (by omega),
      wf_wset_apart _ _ _ _ _ _ (by omega) (by omega), wf_wset_same _ _ _ _ (by omega)]; omega
  · rw [bit_wset_apart _ _ _ _ _ (by omega) (by omega), bit_wset_same _ _ _ (by omega)]; rfl
  · rw [bit_wset_apart _ _ _ _ _ (by omega) (by omega), bit_wset_apart _ _ _ _ _ (by omega) (by omega),
      bit_wset_same _ _ _ (by omega), b2n_eq]
  · rw [bit_wset_apart _ _ _ _ _ (by omega) (by omega), bit_wset_apart _ _ _ _ _ (by omega) (by omega),
      bit_wset_apart _ _ _ _ _ (by omega) (by omega), bit_wset_apart _ _ _ _ _ (by omega) (by omega),
      bit_wset_same _ _ _ (by omega)]
  · rw [wf_wset_apart _ _ _ _ _ _ (by omega) (by omega), wf_wset_apart _ _ _ _ _ _ (by omega) (by omega),
      wf_wset_apart _ _ _ _ _ _ (by omega) (by omega), wf_wset_apart _ _ _ _ _ _ (by omega) (by omega),
      wf_wset_apart _ _ _ _ _ _ (by omega) (by omega)]

/-- Taking an exception changes nothing but the hart. -/
theorem State.enterTrap_eq (s : State) (h : BitVec 1) (cause detail : Nat) (epc : Word) (p : Option (BitVec 26)) :
    s.enterTrap h cause detail epc p = s.setHart h ((s.enterTrap h cause detail epc p).hart h) := by
  unfold State.enterTrap State.savePrefix
  cases p <;> rcases hart_cases h with rfl | rfl <;> rfl

/-- The hart that has taken an exception. -/
theorem State.hart_enterTrap (s : State) (h : BitVec 1) (cause detail : Nat) (epc : Word) (p : Option (BitVec 26)) :
    (s.enterTrap h cause detail epc p).hart h =
      { s.hart h with
        csr := { (s.hart h).csr with
          epc := epc, cause := word (detail % 256 * 256 + cause % 256)
          pfx := match p with | some b => b.zeroExtend 64 | none => (s.hart h).csr.pfx
          status := wset (wset (wset (wset (wset (s.hart h).csr.status 6 1 (b2n p.isSome)) 2 2 (s.hart h).pl) 5 1
            (b2n (s.hart h).ieOn)) 4 1 0) 0 2 (trapLevel cause (s.hart h).pl) }
        pc := if trapLevel cause (s.hart h).pl = 1 then (s.hart h).csr.tvec else firmwarePc
        run := .running, fmt := none, jumped := false, waits := none, stalled := none } := by
  unfold State.enterTrap State.savePrefix
  cases p <;> rcases hart_cases h with rfl | rfl <;> rfl

/-- Taking an exception at the hart's present word (R144): what it saves, what it clears and where it goes. -/
theorem State.trapAt_spec (s : State) (h : BitVec 1) (cause detail : Nat) (hc : cause < 256) (hd : detail < 256) :
    s.OnlyHart h (s.trapAt h cause detail) ∧ (s.hart h).Entered cause detail ((s.trapAt h cause detail).hart h) ∧
      (s.hart h).FaultKept ((s.trapAt h cause detail).hart h) := by
  have hp : (s.hart h).pl < 4 := bits_lt _ 0 2
  have ht : trapLevel cause (s.hart h).pl < 4 := by unfold trapLevel; repeat' split
                                                    all_goals omega
  have lv : enteredLevel cause (s.hart h).pl = trapLevel cause (s.hart h).pl := by
    unfold enteredLevel trapLevel
    by_cases h1 : cause = 18 <;> by_cases h2 : (s.hart h).pl = 2 <;> by_cases h3 : (s.hart h).pl = 0 <;> simp_all
  refine ⟨?_, ?_⟩
  · unfold State.OnlyHart
    unfold State.trapAt
    rw [State.enterTrap_eq]
    rcases hart_cases h with rfl | rfl <;> rfl
  · generalize hx : s.hart h = x at *
    have e := s.hart_enterTrap h cause detail (s.hart h).pc ((s.hart h).fmt.map Prefix.bits)
    rw [show s.enterTrap h cause detail (s.hart h).pc ((s.hart h).fmt.map Prefix.bits) = s.trapAt h cause detail from rfl] at e
    rw [hx] at e
    have n : (x.fmt.map Prefix.bits).isSome = x.fmt.isSome := by cases x.fmt <;> rfl
    rw [n] at e
    obtain ⟨e1, e2, e3, e4, e5, e6⟩ := status_enter x.csr.status (b2n x.fmt.isSome) x.pl (trapLevel cause x.pl) x.ieOn hp ht
    rw [e]
    refine ⟨⟨rfl, ?_, e2, e4, e3, ?_, ?_, ?_, ?_, e6, ?_, ?_⟩, rfl, rfl, rfl, rfl⟩
    · simp only [word]; congr 1; omega
    · rw [lv]; exact e1
    · simp only [Hart.pp]; rw [e5, b2n_eq]
    · intro p hf; simp only [hf]; rfl
    · intro hf; simp only [hf]; rfl
    · rw [lv]
    · rfl

end Sys2Proof.Machine
end

