-- ==== Sys2Proof/Laws/Waits.lean ====
section
/-! SUPPORT. What the shared operations leave that may have to wait: sweeps of the cache, posted scratch stores, stalls. -/

namespace Sys2Proof.Machine

@[simp] theorem Sweep.isDone_done (s : State) : (Sweep.done s).isDone = true := rfl
@[simp] theorem Sweep.isDone_wait (s : State) : (Sweep.wait s).isDone = false := rfl
@[simp] theorem Sweep.andThen_done (s : State) (k : State → Result) : (Sweep.done s).andThen k = k s := rfl
@[simp] theorem Sweep.andThen_wait (s : State) (k : State → Result) : (Sweep.wait s).andThen k = .next s := rfl
@[simp] theorem Sweep.orIn_done (s t : State) : (Sweep.done t).orIn s = t := rfl
@[simp] theorem Sweep.orIn_wait (s t : State) : (Sweep.wait t).orIn s = s.waitsAs t := rfl

/-- A stall changes nothing but the note of what the hart waits for. -/
@[simp] theorem State.hart_stall (s : State) (h : BitVec 1) (ev : Nat) :
    (s.stall h ev).hart h = { s.hart h with stalled := some ev } := by simp [State.stall]

@[simp] theorem State.hart_stall_other (s : State) (h : BitVec 1) (ev : Nat) :
    (s.stall h ev).hart (other h) = s.hart (other h) := by simp [State.stall]

theorem State.stall_stays (s : State) (h : BitVec 1) (ev : Nat) : s.Stays h (s.stall h ev) := by
  rcases hart_cases h with rfl | rfl <;> exact ⟨rfl, rfl⟩

/-- With no store of its own on the way, a hart's scratch stores have settled. -/
theorem State.settleStores_nil {s : State} {h : BitVec 1} (e : (s.hart h).stores = []) : s.settleStores h = some s := by
  simp only [State.settleStores, e]

theorem State.withStores_nil {s : State} {h : BitVec 1} (e : (s.hart h).stores = []) (k : State → Result) :
    s.withStores h k = k s := by
  simp only [State.withStores, State.settleStores_nil e]

theorem State.drainStores_nil {s : State} {h : BitVec 1} (e : (s.hart h).stores = []) : s.drainStores h = s := by
  simp only [State.drainStores, e]

/-- A hart that does not stall has no clocks of waiting counted. -/
theorem State.countStall_none {s : State} {h : BitVec 1} (e : (s.hart h).stalled = none) (n : Nat) :
    s.countStall h n = s := by
  simp only [State.countStall, e]

/-- With no part on its way out of service, none leaves it. -/
theorem State.retireEmptied_nil {s : State} (e : s.mgmt.emptying = []) : s.retireEmptied = s := by
  simp only [State.retireEmptied, e, List.find?_nil]

end Sys2Proof.Machine
end

