-- ==== Sys2Proof/Tests/Slice0.lean ====
section
/-! SUPPORT. Tests and witnesses: a word of every constructor written out from the tables of chapter 03 and decoded,
worked examples of the spec, terms that break each condition of WellFormed.lean, and for every statement of
Certificates/Slice0/Obligations.lean states and operands that meet its hypotheses, clause by clause. -/

namespace Sys2Proof.Tests

open Sys2Proof Sys2Proof.Machine

-- Each test below is checked by the kernel before the next one starts: as tasks side by side they would all wait for the
-- declarations before them, each in a thread of its own.
set_option Elab.async false

/-! ### Every word of the opcode table, by major

Each word is put together from the fields of its row in Tables 03-1 to 03-9, with operands that differ from field to
field. -/

theorem test_decode_major_01 :
    decode 0x042860E0 = some (.add 5 6 7) ∧
    decode 0x042860E1 = some (.sub 5 6 7) ∧
    decode 0x042860E2 = some (.and 5 6 7) ∧
    decode 0x042860E3 = some (.or 5 6 7) ∧
    decode 0x042860E4 = some (.xor 5 6 7) ∧
    decode 0x042860E5 = some (.andn 5 6 7) ∧
    decode 0x042860E6 = some (.sll 5 6 7) ∧
    decode 0x042860E7 = some (.srl 5 6 7) ∧
    decode 0x042860E8 = some (.sra 5 6 7) ∧
    decode 0x042860E9 = some (.slt 5 6 7) ∧
    decode 0x042860EA = some (.sltn 5 6 7) ∧
    decode 0x042860EB = some (.min 5 6 7) ∧
    decode 0x042860EC = some (.max 5 6 7) ∧
    decode 0x042860ED = some (.minn 5 6 7) ∧
    decode 0x042860EE = some (.maxn 5 6 7) ∧
    decode 0x042860EF = some (.addw 5 6 7) ∧
    decode 0x042860F0 = some (.subw 5 6 7) ∧
    decode 0x042860F1 = some (.cmov 5 6 7) := by
  decide +kernel

theorem test_decode_major_02 :
    decode 0x082860E0 = some (.mul 5 6 7) ∧
    decode 0x082860E1 = some (.mulh 5 6 7) ∧
    decode 0x082860E2 = some (.mulhn 5 6 7) ∧
    decode 0x082860E3 = some (.div 5 6 7) ∧
    decode 0x082860E4 = some (.divn 5 6 7) ∧
    decode 0x082860E5 = some (.rem 5 6 7) ∧
    decode 0x082860E6 = some (.remn 5 6 7) ∧
    decode 0x08286008 = some (.clz 5 6) ∧
    decode 0x08286009 = some (.ctz 5 6) ∧
    decode 0x0828600A = some (.popc 5 6) ∧
    decode 0x0828600B = some (.rev 5 6) ∧
    decode 0x0828600C = some (.bswap 5 6) ∧
    decode 0x082860ED = some (.rotl 5 6 7) ∧
    decode 0x082860EE = some (.rotr 5 6 7) := by
  decide +kernel

theorem test_decode_major_03 :
    decode 0x0C2860E0 = some (.fadd 5 6 7) ∧
    decode 0x0C2860E1 = some (.fsub 5 6 7) ∧
    decode 0x0C2860E2 = some (.fmul 5 6 7) ∧
    decode 0x0C2860E3 = some (.fdiv 5 6 7) ∧
    decode 0x0C2860E4 = some (.fma 5 6 7) ∧
    decode 0x0C2860E5 = some (.fmin 5 6 7) ∧
    decode 0x0C2860E6 = some (.fmax 5 6 7) ∧
    decode 0x0C286007 = some (.fsqrt 5 6) ∧
    decode 0x0C2860E8 = some (.feq 5 6 7) ∧
    decode 0x0C2860E9 = some (.flt 5 6 7) ∧
    decode 0x0C2860EA = some (.fle 5 6 7) ∧
    decode 0x0C28600B = some (.fcvtis 5 6) ∧
    decode 0x0C28600C = some (.fcvtsi 5 6) ∧
    decode 0x0C28600D = some (.fclass 5 6) ∧
    decode 0x0C28600E = some (.fcvtbf 5 6) ∧
    decode 0x0C28600F = some (.fcvtfb 5 6) := by
  decide +kernel

theorem test_decode_major_04 :
    decode 0x102864B4 = some (.addi 5 6 0x4b4) := by
  decide +kernel

theorem test_decode_major_05 :
    decode 0x142864B4 = some (.andi 5 6 0x4b4) := by
  decide +kernel

theorem test_decode_major_06 :
    decode 0x182864B4 = some (.ori 5 6 0x4b4) := by
  decide +kernel

theorem test_decode_major_07 :
    decode 0x1C2864B4 = some (.xori 5 6 0x4b4) := by
  decide +kernel

theorem test_decode_major_08 :
    decode 0x2028602D = some (.slli 5 6 45) ∧
    decode 0x2028642D = some (.srli 5 6 45) ∧
    decode 0x2028682D = some (.srai 5 6 45) := by
  decide +kernel

theorem test_decode_major_09 :
    decode 0x242864B4 = some (.slti 5 6 0x4b4) := by
  decide +kernel

theorem test_decode_major_0A :
    decode 0x282CB4B4 = some (.lih 5 0x4b4b4) := by
  decide +kernel

theorem test_decode_major_0B :
    decode 0x2C2CB4B4 = some (.auip 5 0x4b4b4) := by
  decide +kernel

theorem test_decode_major_0C :
    decode 0x30B4B4B4 = some (.jal 0xb4b4b4) := by
  decide +kernel

theorem test_decode_major_0D :
    decode 0x342864B4 = some (.jalr 5 6 0x4b4) := by
  decide +kernel

theorem test_decode_major_0E :
    decode 0x382860F2 = some (.beq 5 6 7 18) := by
  decide +kernel

theorem test_decode_major_0F :
    decode 0x3C2860F2 = some (.bne 5 6 7 18) := by
  decide +kernel

theorem test_decode_major_10 :
    decode 0x402860F2 = some (.blt 5 6 7 18) := by
  decide +kernel

theorem test_decode_major_11 :
    decode 0x442860F2 = some (.bge 5 6 7 18) := by
  decide +kernel

theorem test_decode_major_12 :
    decode 0x482860F2 = some (.bltn 5 6 7 18) := by
  decide +kernel

theorem test_decode_major_13 :
    decode 0x4C2860F2 = some (.bgen 5 6 7 18) := by
  decide +kernel

theorem test_decode_major_14 :
    decode 0x502861A5 = some (.lb 5 6 0x1a5) ∧
    decode 0x502863A5 = some (.lh 5 6 0x1a5) ∧
    decode 0x502865A5 = some (.lw 5 6 0x1a5) ∧
    decode 0x502867A5 = some (.ld 5 6 0x1a5) ∧
    decode 0x502869A5 = some (.lbz 5 6 0x1a5) ∧
    decode 0x50286BA5 = some (.lhz 5 6 0x1a5) ∧
    decode 0x50286DA5 = some (.lwz 5 6 0x1a5) := by
  decide +kernel

theorem test_decode_major_15 :
    decode 0x542861A5 = some (.sb 5 6 0x1a5) ∧
    decode 0x542863A5 = some (.sh 5 6 0x1a5) ∧
    decode 0x542865A5 = some (.sw 5 6 0x1a5) ∧
    decode 0x542867A5 = some (.sd 5 6 0x1a5) := by
  decide +kernel

theorem test_decode_major_16 :
    decode 0x582860E0 = some (.aadd 5 6 7) ∧
    decode 0x582860E1 = some (.aswap 5 6 7) ∧
    decode 0x582860E2 = some (.aand 5 6 7) ∧
    decode 0x582860E3 = some (.aor 5 6 7) ∧
    decode 0x582860E4 = some (.axor 5 6 7) ∧
    decode 0x582860E5 = some (.amin 5 6 7) ∧
    decode 0x582860E6 = some (.amax 5 6 7) ∧
    decode 0x582860E7 = some (.aminn 5 6 7) ∧
    decode 0x582860E8 = some (.amaxn 5 6 7) ∧
    decode 0x582860E9 = some (.acas 5 6 7) ∧
    decode 0x582860F0 = some (.aaddw 5 6 7) ∧
    decode 0x582860F1 = some (.aswapw 5 6 7) ∧
    decode 0x582860F2 = some (.aandw 5 6 7) ∧
    decode 0x582860F3 = some (.aorw 5 6 7) ∧
    decode 0x582860F4 = some (.axorw 5 6 7) ∧
    decode 0x582860F5 = some (.aminw 5 6 7) ∧
    decode 0x582860F6 = some (.amaxw 5 6 7) ∧
    decode 0x582860F7 = some (.aminnw 5 6 7) ∧
    decode 0x582860F8 = some (.amaxnw 5 6 7) ∧
    decode 0x582860F9 = some (.acasw 5 6 7) ∧
    decode 0x582860FA = some (.afadd 5 6 7) := by
  decide +kernel

theorem test_decode_major_17 :
    decode 0x5C2860E0 = some (.sbind 5 6 7) ∧
    decode 0x5C2860E1 = some (.sunbind 5 6 7) ∧
    decode 0x5C005002 = some (.sacq 5) ∧
    decode 0x5C005003 = some (.sacqs 5) ∧
    decode 0x5C286004 = some (.stry 5 6) ∧
    decode 0x5C005005 = some (.srel 5) ∧
    decode 0x5C0002A6 = some (.fence 1 1 1) ∧
    decode 0x5C2860E7 = some (.waita 5 6 7) := by
  decide +kernel

theorem test_decode_major_18 :
    decode 0x60280012 = some (.csrr 5 18) ∧
    decode 0x60286412 = some (.csrw 5 6 18) ∧
    decode 0x60286812 = some (.csrs 5 6 18) ∧
    decode 0x60286C12 = some (.csrc 5 6 18) := by
  decide +kernel

theorem test_decode_major_19 :
    decode 0x64000000 = some (.ecall) ∧
    decode 0x64000001 = some (.ebreak) ∧
    decode 0x64000002 = some (.eret) ∧
    decode 0x64000003 = some (.sleep) ∧
    decode 0x64000004 = some (.switch) ∧
    decode 0x640050C5 = some (.tlbinv 5 6) ∧
    decode 0x64000006 = some (.icinv) ∧
    decode 0x64286007 = some (.xprobe 5 6) ∧
    decode 0x64000008 = some (.aown) ∧
    decode 0x64000009 = some (.halt) := by
  decide +kernel

theorem test_decode_major_1A :
    decode 0x6A5291A0 = some (.fmt 18 18 18 1 1 1) := by
  decide +kernel

theorem test_decode_major_1B :
    decode 0x6C2862A5 = some (.ldl 5 6 0x2a5) ∧
    decode 0x6C2866A5 = some (.stl 5 6 0x2a5) ∧
    decode 0x6C286AA5 = some (.ldy 5 6 0x2a5) ∧
    decode 0x6C286EA5 = some (.sty 5 6 0x2a5) := by
  decide +kernel

theorem test_decode_major_1C :
    decode 0x70286000 = some (.cpy 5 6) ∧
    decode 0x700050C1 = some (.cpyw 5 6) ∧
    decode 0x70286002 = some (.cpyq 5 6) ∧
    decode 0x70005003 = some (.cpyx 5) := by
  decide +kernel

theorem test_decode_major_1D :
    decode 0x742860E0 = some (.nsend 5 6 7) ∧
    decode 0x742860E1 = some (.nput 5 6 7) ∧
    decode 0x74286002 = some (.nrecv 5 6) ∧
    decode 0x74286003 = some (.npoll 5 6) ∧
    decode 0x74005004 = some (.nfree 5) ∧
    decode 0x740050C5 = some (.nint 5 6) := by
  decide +kernel

theorem test_decode_major_1E :
    decode 0x78286000 = some (.tkspawn 5 6) ∧
    decode 0x78280001 = some (.tkget 5) ∧
    decode 0x78005002 = some (.tkdone 5) ∧
    decode 0x780050C3 = some (.tkarm 5 6) ∧
    decode 0x780050C4 = some (.tkbind 5 6) ∧
    decode 0x78005005 = some (.tkunbind 5) ∧
    decode 0x780050C6 = some (.tkdep 5 6) := by
  decide +kernel

theorem test_decode_major_1F :
    decode 0x7C2860E0 = some (.scfg 5 6 7) ∧
    decode 0x7C286001 = some (.sopen 5 6) ∧
    decode 0x7C005002 = some (.sclose 5) ∧
    decode 0x7C286003 = some (.sstat 5 6) := by
  decide +kernel

theorem test_decode_major_20 :
    decode 0x802860FA = some (.vadd 5 6 7 1 1 1) ∧
    decode 0x802860FB = some (.vsub 5 6 7 1 1 1) := by
  decide +kernel

theorem test_decode_major_21 :
    decode 0x842860FA = some (.vadds 5 6 7 1 1 1) ∧
    decode 0x842860FB = some (.vsubs 5 6 7 1 1 1) := by
  decide +kernel

theorem test_decode_major_22 :
    decode 0x882860FA = some (.vmul 5 6 7 1 1 1) ∧
    decode 0x882860FB = some (.vmulh 5 6 7 1 1 1) := by
  decide +kernel

theorem test_decode_major_23 :
    decode 0x8C2860FA = some (.vmin 5 6 7 1 1 1) ∧
    decode 0x8C2860FB = some (.vmax 5 6 7 1 1 1) := by
  decide +kernel

theorem test_decode_major_24 :
    decode 0x902860FA = some (.vminn 5 6 7 1 1 1) ∧
    decode 0x902860FB = some (.vmaxn 5 6 7 1 1 1) := by
  decide +kernel

theorem test_decode_major_25 :
    decode 0x942860FA = some (.vand 5 6 7 1 1 1) ∧
    decode 0x942860FB = some (.vor 5 6 7 1 1 1) := by
  decide +kernel

theorem test_decode_major_26 :
    decode 0x982860FA = some (.vxor 5 6 7 1 1 1) ∧
    decode 0x982860FB = some (.vbool 5 6 7 1 1 1) := by
  decide +kernel

theorem test_decode_major_27 :
    decode 0x9C2860FA = some (.vsll 5 6 7 1 1 1) ∧
    decode 0x9C2860FB = some (.vsrl 5 6 7 1 1 1) := by
  decide +kernel

theorem test_decode_major_28 :
    decode 0xA02860FA = some (.vsra 5 6 7 1 1 1) ∧
    decode 0xA02860F9 = some (.vmerge 5 6 7 1 1) := by
  decide +kernel

theorem test_decode_major_29 :
    decode 0xA42860FA = some (.vmac 5 6 7 1 1 1) ∧
    decode 0xA42860FB = some (.vwmac 5 6 7 1 1 1) := by
  decide +kernel

theorem test_decode_major_2A :
    decode 0xA82860FA = some (.vdot 5 6 7 1 1 1) ∧
    decode 0xA82860FB = some (.vdots 5 6 7 1 1 1) := by
  decide +kernel

theorem test_decode_major_2B :
    decode 0xAC2860FA = some (.vfadd 5 6 7 1 1 1) ∧
    decode 0xAC2860FB = some (.vfsub 5 6 7 1 1 1) := by
  decide +kernel

theorem test_decode_major_2C :
    decode 0xB02860FA = some (.vfmul 5 6 7 1 1 1) ∧
    decode 0xB02860FB = some (.vfma 5 6 7 1 1 1) := by
  decide +kernel

theorem test_decode_major_2D :
    decode 0xB42860FA = some (.vfmin 5 6 7 1 1 1) ∧
    decode 0xB42860FB = some (.vfmax 5 6 7 1 1 1) := by
  decide +kernel

theorem test_decode_major_2E :
    decode 0xB82860FA = some (.vfdiv 5 6 7 1 1 1) ∧
    decode 0xB82860FB = some (.vfms 5 6 7 1 1 1) := by
  decide +kernel

theorem test_decode_major_2F :
    decode 0xBC2860FA = some (.vcfle 5 6 7 1 1 1) ∧
    decode 0xBC2860FB = some (.vcfun 5 6 7 1 1 1) := by
  decide +kernel

theorem test_decode_major_30 :
    decode 0xC02860FA = some (.vceq 5 6 7 1 1 1) ∧
    decode 0xC02860FB = some (.vcne 5 6 7 1 1 1) := by
  decide +kernel

theorem test_decode_major_31 :
    decode 0xC42860FA = some (.vclt 5 6 7 1 1 1) ∧
    decode 0xC42860FB = some (.vcge 5 6 7 1 1 1) := by
  decide +kernel

theorem test_decode_major_32 :
    decode 0xC82860FA = some (.vcltn 5 6 7 1 1 1) ∧
    decode 0xC82860FB = some (.vcgen 5 6 7 1 1 1) := by
  decide +kernel

theorem test_decode_major_33 :
    decode 0xCC2860FA = some (.vcfeq 5 6 7 1 1 1) ∧
    decode 0xCC2860FB = some (.vcflt 5 6 7 1 1 1) := by
  decide +kernel

theorem test_decode_major_34 :
    decode 0xD0286012 = some (.vmov 5 6 1 1) ∧
    decode 0xD0286032 = some (.vnot 5 6 1 1) ∧
    decode 0xD0286052 = some (.vneg 5 6 1 1) ∧
    decode 0xD0286072 = some (.vabs 5 6 1 1) ∧
    decode 0xD0286092 = some (.vfneg 5 6 1 1) ∧
    decode 0xD02860B2 = some (.vfabs 5 6 1 1) ∧
    decode 0xD02860D2 = some (.vfsqrt 5 6 1 1) ∧
    decode 0xD02860F2 = some (.vexp2 5 6 1 1) ∧
    decode 0xD0286112 = some (.vlog2 5 6 1 1) ∧
    decode 0xD0286132 = some (.vrcp 5 6 1 1) ∧
    decode 0xD0286152 = some (.vrsqrt 5 6 1 1) ∧
    decode 0xD0286172 = some (.vcvt 5 6 1 1) ∧
    decode 0xD0286192 = some (.vclz 5 6 1 1) ∧
    decode 0xD02861B2 = some (.vpopc 5 6 1 1) ∧
    decode 0xD02861D2 = some (.vsearch 5 6 1 1) ∧
    decode 0xD02851F4 = some (.vkwrite 5 5 1 1) ∧
    decode 0xD0286200 = some (.vcompress 5 6) ∧
    decode 0xD0286220 = some (.vexpand 5 6) ∧
    decode 0xD0286242 = some (.vrev 5 6 1) ∧
    decode 0xD0286262 = some (.viota 5 6 1) := by
  decide +kernel

theorem test_decode_major_35 :
    decode 0xD42800C0 = some (.vbcast 5 6) ∧
    decode 0xD42860E1 = some (.vextr 5 6 7) ∧
    decode 0xD42860E2 = some (.vinsr 5 6 7) ∧
    decode 0xD42860E3 = some (.vslli 5 6 7) ∧
    decode 0xD42860E4 = some (.vsrli 5 6 7) ∧
    decode 0xD42860E5 = some (.vsrai 5 6 7) ∧
    decode 0xD42860E6 = some (.vaddi 5 6 7) ∧
    decode 0xD42860E7 = some (.vslideup 5 6 7) ∧
    decode 0xD42860E8 = some (.vslidedn 5 6 7) ∧
    decode 0xD4286009 = some (.vredsum 5 6) ∧
    decode 0xD428600A = some (.vredmin 5 6) ∧
    decode 0xD428600B = some (.vredmax 5 6) ∧
    decode 0xD428600C = some (.vredand 5 6) ∧
    decode 0xD428600D = some (.vredor 5 6) ∧
    decode 0xD428600E = some (.vredxor 5 6) ∧
    decode 0xD42860EF = some (.vfredsum 5 6 7) ∧
    decode 0xD4286010 = some (.vfredmax 5 6) ∧
    decode 0xD4286011 = some (.vfredmin 5 6) ∧
    decode 0xD42860F2 = some (.vsegsum 5 6 7) ∧
    decode 0xD4286013 = some (.vmpopc 5 6) ∧
    decode 0xD4286014 = some (.vmfirst 5 6) := by
  decide +kernel

theorem test_decode_major_36 :
    decode 0xD8286001 = some (.vld 5 6 1) ∧
    decode 0xD82860E5 = some (.vlds 5 6 7 1) ∧
    decode 0xD82860E9 = some (.vldx 5 6 7 1) ∧
    decode 0xD828600D = some (.vldl 5 6 1) ∧
    decode 0xD8286011 = some (.vldy 5 6 1) ∧
    decode 0xD82860F5 = some (.vldys 5 6 7 1) ∧
    decode 0xD8286019 = some (.vldff 5 6 1) := by
  decide +kernel

theorem test_decode_major_37 :
    decode 0xDC286001 = some (.vst 5 6 1) ∧
    decode 0xDC2860E5 = some (.vsts 5 6 7 1) ∧
    decode 0xDC2860E9 = some (.vstx 5 6 7 1) ∧
    decode 0xDC28600D = some (.vstl 5 6 1) ∧
    decode 0xDC286011 = some (.vsty 5 6 1) ∧
    decode 0xDC2860F5 = some (.vstys 5 6 7 1) := by
  decide +kernel

theorem test_decode_major_38 :
    decode 0xE02860E0 = some (.ashape 5 6 7) ∧
    decode 0xE0000001 = some (.await) ∧
    decode 0xE02860E2 = some (.arole 5 6 7) ∧
    decode 0xE00050C3 = some (.aflush 5 6) ∧
    decode 0xE0000004 = some (.aclr) ∧
    decode 0xE00050C5 = some (.ainval 5 6) := by
  decide +kernel

theorem test_decode_major_39 :
    decode 0xE4005000 = some (.mbegin 5) ∧
    decode 0xE4000001 = some (.mend) ∧
    decode 0xE40050C2 = some (.msplit 5 6) ∧
    decode 0xE4286003 = some (.mjoin 5 6) ∧
    decode 0xE4000004 = some (.mstop) ∧
    decode 0xE4001005 = some (.mnext 1) ∧
    decode 0xE4001026 = some (.mbr 1 1) ∧
    decode 0xE4081007 = some (.mlinkr 1 1) ∧
    decode 0xE4000008 = some (.mlinkw) ∧
    decode 0xE4286029 = some (.msetm 5 6 1) ∧
    decode 0xE428602A = some (.mgetm 5 6 1) ∧
    decode 0xE428600B = some (.mstat 5 6) ∧
    decode 0xE400500C = some (.mreset 5) := by
  decide +kernel

theorem test_decode_major_3A :
    decode 0xE8286000 = some (.tattach 5 6) ∧
    decode 0xE8000001 = some (.tdetach) ∧
    decode 0xE80850C2 = some (.tmma 1 5 6) ∧
    decode 0xE8080003 = some (.tzero 1) ∧
    decode 0xE82810C4 = some (.tread 5 1 6) ∧
    decode 0xE80850C5 = some (.tload 1 5 6) ∧
    decode 0xE8080006 = some (.twait 1) := by
  decide +kernel

theorem test_decode_major_3C :
    decode 0xF02860F0 = some (.waitv 5 6 7 1) ∧
    decode 0xF02860E3 = some (.vstr 5 6 7 1) := by
  decide +kernel

theorem test_decode_major_3D :
    decode 0xF42800C0 = some (.vbcastMd 5 6) ∧
    decode 0xF42860E3 = some (.vslliMd 5 6 7) ∧
    decode 0xF42860E4 = some (.vsrliMd 5 6 7) ∧
    decode 0xF42860E5 = some (.vsraiMd 5 6 7) ∧
    decode 0xF42860E6 = some (.vaddiMd 5 6 7) ∧
    decode 0xF42860E7 = some (.vslideupMd 5 6 7) ∧
    decode 0xF42860E8 = some (.vslidednMd 5 6 7) ∧
    decode 0xF4286009 = some (.vredsumMd 5 6) ∧
    decode 0xF428600A = some (.vredminMd 5 6) ∧
    decode 0xF428600B = some (.vredmaxMd 5 6) ∧
    decode 0xF428600C = some (.vredandMd 5 6) ∧
    decode 0xF428600D = some (.vredorMd 5 6) ∧
    decode 0xF428600E = some (.vredxorMd 5 6) ∧
    decode 0xF42860EF = some (.vfredsumMd 5 6 7) ∧
    decode 0xF4286010 = some (.vfredmaxMd 5 6) ∧
    decode 0xF4286011 = some (.vfredminMd 5 6) ∧
    decode 0xF42860F2 = some (.vsegsumMd 5 6 7) ∧
    decode 0xF4286013 = some (.vmpopcMd 5 6) ∧
    decode 0xF4286014 = some (.vmfirstMd 5 6) := by
  decide +kernel

/-! ### States for the witnesses -/

/-- Hart 0 runs at level 0 with these registers. -/
def withRegs (g : Store 64) : State := { State.reset with h0 := { State.reset.h0 with run := .running, g := g } }

/-- The same at level `pl`, a level that a hart can have. -/
def atLevel (pl : Nat) (g : Store 64) : State :=
  (withRegs g).modCsr 0 (fun c => { c with status := wset c.status 0 2 pl })

/-- One translation: the first GiB of every context, readable, writable and executable. -/
def firstGiB (ms : Bool) : TlbEntry := { page := 0, size := 30, cid := 0, all := true, leaf := if ms then 0x4F else 0x0F }

/-- The same with that translation: an MS page or a cached one. -/
def mapped (ms : Bool) (g : Store 64) : State := { withRegs g with mmu := { Mmu.reset with tlb := [firstGiB ms] } }

/-- What the translation gives for an address of its page. -/
def place (ms : Bool) (a : Nat) : Trans := (firstGiB ms).trans a

/-! ### Witnesses: states and operands that meet the hypotheses of the statements, clause by clause -/

theorem witness_IntegerWords : (withRegs [(5, 0xFFFFFFFFFFFFFFFF)]).Issues 0 [63, 5, 0] := ⟨rfl, by decide⟩

theorem witness_BitsAndProducts : (withRegs [(5, 0x8000000000000000), (6, 0xFFFFFFFFFFFFFFFF)]).Issues 0 [0, 5, 6] :=
  ⟨rfl, by decide⟩

/-- Hart 1 has a divide in the core's divider, and hart 1 waits for it since tick 0. -/
def dividing : State := (withRegs []).modHart 1 (fun x => { x with late := [{ reg := 5, val := 1, flags := 0, divider := true }] })
def outwaited : State :=
  { withRegs [] with h1 := { Hart.reset 1 with run := .running, waits := some (.divider 0) } }

theorem witness_BitsAndProducts_divider :
    ((withRegs []).dividerBusy = false ∧ (withRegs []).dividerTurn 0 = true) ∧
      (dividing.Issues 0 [0, 5, 6] ∧ dividing.dividerBusy = true) ∧
      ({ outwaited with ctr := { outwaited.ctr with cycle := 1 } }).dividerTurn 0 = false :=
  ⟨by decide +kernel, ⟨⟨rfl, by decide⟩, by decide +kernel⟩, by decide +kernel⟩

theorem witness_JumpsAndBranches : (withRegs [(5, 3)]).Issues 0 [5, 5, 1] ∧ (withRegs [(5, 3)]).Issues 0 [5, 5] :=
  ⟨⟨rfl, by decide⟩, rfl, by decide⟩

theorem witness_Loads_ms : let s := mapped true [(5, 0x1000)]
    s.Issues 0 [6, 5] ∧ s.Reaches 0 .read ((s.hart 0).reg 5 + BitVec.ofNat 64 8 * (0x1FF : BitVec 9).signExtend 64) 8 false
      (place true 0xFF8) s ∧ (place true 0xFF8).mmio = false ∧ (place true 0xFF8).ms = true ∧
      s.arrayTouches 0 (place true 0xFF8).name 8 = false ∧ s.postedOver 0 (place true 0xFF8).name 8 = false ∧
      s.readError (place true 0xFF8).name = none :=
  ⟨⟨rfl, by decide⟩, ⟨by decide +kernel, by decide +kernel, by decide +kernel⟩, by decide +kernel⟩

theorem witness_Loads_cached : let s := mapped false [(5, 0x1000)]
    s.Issues 0 [6, 5] ∧ s.Reaches 0 .read ((s.hart 0).reg 5 + BitVec.ofNat 64 1 * (0 : BitVec 9).signExtend 64) 1 false
      (place false 0x1000) s ∧ (place false 0x1000).mmio = false ∧ (place false 0x1000).ms = false ∧
      s.arrayTouches 0 (place false 0x1000).name 1 = false ∧ s.cacheWays ≠ [] ∧
      ∃ v s2, s.cacheLoad 0 (place false 0x1000).name 1 s.cid16 (place false 0x1000).vpn = (.ok v, s2) :=
  ⟨⟨rfl, by decide⟩, ⟨by decide +kernel, by decide +kernel, by decide +kernel⟩, by decide +kernel, by decide +kernel,
    by decide +kernel, by decide +kernel, _, _, rfl⟩

/-- What a read of a home or of a window answered. -/
theorem read_ok {α β : Type} (r : Option α × β) (h : r.1.isSome = true) : ∃ v s, r = (some v, s) := by
  obtain ⟨x, s⟩ := r
  cases x with
  | some v => exact ⟨v, s, rfl⟩
  | none => cases h

/-- The first page holds the window of quadrant 0's mailbox. -/
def mailboxPage : TlbEntry := { page := 0, size := 12, cid := 0, all := true, leaf := 0x0F + 0xF00000000000 }
def windowed (g : Store 64) : State := { withRegs g with mmu := { Mmu.reset with tlb := [mailboxPage] } }

theorem witness_Loads_window (n : Nat) (h : n = 8 ∨ n = 1) : let s := windowed [(5, 0x40)]
    let t := mailboxPage.trans 0x40
    s.Issues 0 [6, 5] ∧ s.Reaches 0 .read ((s.hart 0).reg 5 + BitVec.ofNat 64 n * (0 : BitVec 9).signExtend 64) n false t s ∧
      t.mmio = true ∧ s.postedOver 0 t.name n = false ∧ ((s.mmioRead 0 t.name n).1.isSome = true ↔ n = 8) := by
  rcases h with rfl | rfl <;>
    exact ⟨⟨rfl, by decide⟩, ⟨by decide +kernel, by decide +kernel, by decide +kernel⟩, by decide +kernel⟩

theorem witness_Stores_window : let s := windowed [(5, 0x40)]
    let t := mailboxPage.trans 0x40
    s.Issues 0 [6, 5] ∧ s.Reaches 0 .write ((s.hart 0).reg 5 + BitVec.ofNat 64 8 * (0 : BitVec 9).signExtend 64) 8 true t s ∧
      t.mmio = true :=
  ⟨⟨rfl, by decide⟩, ⟨by decide +kernel, by decide +kernel, by decide +kernel⟩, by decide +kernel⟩

theorem witness_Stores_cached : let s := mapped false [(5, 0x1000)]
    s.Issues 0 [6, 5] ∧ s.Reaches 0 .write ((s.hart 0).reg 5 + BitVec.ofNat 64 8 * (0 : BitVec 9).signExtend 64) 8 true
      (place false 0x1000) s ∧ (place false 0x1000).mmio = false ∧ (place false 0x1000).ms = false ∧
      s.arrayTouches 0 (place false 0x1000).name 8 = false ∧ s.cacheWays ≠ [] ∧ s.homeError (place false 0x1000).name = none ∧
      ∃ s2, s.cachePut (place false 0x1000).name 8 0 s.cid16 (place false 0x1000).vpn = some s2 :=
  ⟨⟨rfl, by decide⟩, ⟨by decide +kernel, by decide +kernel, by decide +kernel⟩, by decide +kernel, by decide +kernel,
    by decide +kernel, by decide +kernel, by decide +kernel, _, rfl⟩

theorem witness_Stores_ms : let s := mapped true [(5, 0x1000)]
    s.Issues 0 [6, 5] ∧ s.Reaches 0 .write ((s.hart 0).reg 5 + BitVec.ofNat 64 1 * (0x100 : BitVec 9).signExtend 64) 1 true
      (place true 0xF00) s ∧ (place true 0xF00).mmio = false ∧ (place true 0xF00).ms = true ∧
      s.arrayTouches 0 (place true 0xF00).name 1 = false ∧ Map.get none s.home.frames (frameOf (place true 0xF00).name).1 = none :=
  ⟨⟨rfl, by decide⟩, ⟨by decide +kernel, by decide +kernel, by decide +kernel⟩, by decide +kernel⟩

/-- A line of the core cache: sector 1 holds bytes 0 and 1 dirty. -/
def lineAt16 : Line :=
  { set := 0, way := 0, tag := 16, cid := 0, vpn := 1, sectors := [(1, { valid := false, dirty := 3, data := 0xBBAA })] }

theorem witness_CacheBytes : let s := { mapped false [] with cache := [lineAt16] }
    (s.cacheWays ≠ [] ∧ 0x1040 % 64 + 2 ≤ 64 ∧ ∃ v t, s.cacheLoad 0 0x1040 2 0 1 = (.ok v, t)) ∧
    (0x1078 % 64 + 8 ≤ 64 ∧ ∃ l, s.findLine (0x1078 / 256) = some l ∧ s.wayHeld l.way = false) ∧
    s.homeError (0x1040 / 64 * 64) = none ∧ s.codedOver (0x1040 / 64 * 64) (List.range 64) = false ∧ (∃ t, s.evictSector 0x1040 = some t) ∧ ∃ t, s.cleanSector 0x1040 = some t :=
  ⟨⟨by decide +kernel, by decide, _, _, rfl⟩, ⟨by decide, _, rfl, by decide +kernel⟩, by decide +kernel, by decide +kernel,
    ⟨_, rfl⟩, _, rfl⟩

/-- A posted store of 8 bytes on its way. -/
def posted8 (done : Bool) : Posted := { hart := 0, va := 0x1000, pa := 0x1000, n := 8, v := 7, done := done }

/-- A line of a slice: bytes 0x1000 to 0x10FF, byte 0x1002 not yet written back. -/
def llcAt16 : LlcLine := { tag := 16, filled := 0, dirty := 4, stored := 0, va := 0x1000, cid := 0, own := 1 }

theorem witness_HomeWrites : let s := { withRegs [] with home := { Home.reset with posted := [posted8 false, posted8 true] } }
    let t := { s with home := { s.home with llc := [llcAt16] } }
    (s.home.posted[0]? = some (posted8 false) ∧ s.postedFirst 0 (posted8 false) = true ∧ s.homeError 0x1000 = none ∧
      Map.get none s.home.frames (frameOf 0x1000).1 = none ∧ (s.llcStored 0x1000).isSome = true ∧
      (t.llcStored 0x1000).isSome = true ∧ ((s.llcLine 0x1000).map (·.2)).isSome = true) ∧
    (8 ∈ [1, 2, 4, 8] ∧ s.homeError 0x5F7FFFFFF8 = none ∧ (s.llcLine 0x5F7FFFFFF8).isSome = true) ∧
    (t.findLlc 0x1002).any (fun l => l.has 0x1002 1) = true ∧
    s.home.posted.findIdx? (fun p => p.hart == 0 && p.done) = some 1 := by decide +kernel

theorem witness_HomeWrites_window : let p := { posted8 false with pa := 0x00E000000000, mmio := true }
    let s := { withRegs [] with home := { Home.reset with posted := [p] } }
    s.home.posted[0]? = some p ∧ p.done = false ∧ s.postedFirst 0 p = true ∧ p.mmio = true := by decide +kernel

theorem witness_Atomics_cached : let s := mapped false [(5, 0x1000)]
    (place false 0x1000).ms = false ∧ s.evictSector (place false 0x1000).name = some s ∧
      (((s.llcRead (place false 0x1000).name 8).llcLine (place false 0x1000).name).map (·.2)).isSome = true ∧
      s.readError 0x1008 = none ∧ 0x1008 % 8 = 0 ∧ ((s.llcRead 0x1008 8).llcLine 0x1008).isSome = true :=
  ⟨rfl, rfl, by decide +kernel, by decide +kernel, by decide, by decide +kernel⟩

theorem witness_Atomics : let s := mapped true [(5, 0x1000)]
    s.Issues 0 [6, 5, 7] ∧ s.Reaches 0 .both ((s.hart 0).reg 5) 8 true (place true 0x1000) s ∧
      (place true 0x1000).mmio = false ∧ s.arrayTouches 0 (place true 0x1000).name 8 = false ∧
      s.postedOver 0 (place true 0x1000).name 8 = false ∧
      (if (place true 0x1000).ms then some s else s.evictSector (place true 0x1000).name) = some s ∧
      s.homeError (place true 0x1000).name = none ∧ Map.get none s.home.frames (frameOf (place true 0x1000).name).1 = none ∧
      (s.llcStored (place true 0x1000).name).isSome = true :=
  ⟨⟨rfl, by decide⟩, ⟨by decide +kernel, by decide +kernel, by decide +kernel⟩, by decide +kernel, by decide +kernel,
    by decide +kernel, rfl, by decide +kernel, by decide +kernel, by decide +kernel⟩

theorem witness_MemoryFaults_misaligned : let s := withRegs [(5, 0x1001)]
    s.Issues 0 [6, 5] ∧ ((s.hart 0).reg 5 + BitVec.ofNat 64 2 * (0 : BitVec 9).signExtend 64).toNat % 2 ≠ 0 :=
  ⟨⟨rfl, by decide⟩, by decide +kernel⟩

theorem witness_MemoryFaults_parks : let s := { withRegs [] with h1 := { Hart.reset 1 with run := .running } }
    0x10 ∈ [0x04, 0x05, 0x06, 0x10] ∧ bit s.mgmt.fmode.toNat 0 = false ∧ s.canServe 0 = true := by decide +kernel

theorem witness_MemoryFaults_traps : let s := { withRegs [] with h1 := { Hart.reset 1 with run := .halted } }
    0x04 ∈ [0x04, 0x05, 0x06, 0x10] ∧ bit s.mgmt.fmode.toNat 0 = false ∧ (s.hart (other 0)).run = .halted := by
  decide +kernel

/-- Ways 0 and 16 are scratch: 256 KiB of local scratch and of layer space. -/
def withScratch (g : Store 64) : State :=
  { withRegs g with core := { CoreState.reset with wayrole := 0x0000000100000001 } }

theorem witness_ScratchAccess : let s := withScratch [(5, 0x3FFF8)]
    s.Issues 0 [6, 5] ∧ let o := ((s.hart 0).reg 5 + 8 * (0 : BitVec 10).signExtend 64).toNat
    o % 8 = 0 ∧ o + 8 ≤ s.extent false ∧ o + 8 ≤ s.extent true ∧ s.interlocked 1 o (o + 8) true = false ∧
      s.interlocked 2 o (o + 8) true = false ∧ s.layerHeld = false ∧ s.arrayTouches 1 o 8 = false ∧
      s.arrayTouches 2 o 8 = false ∧ s.relocated = false :=
  ⟨⟨rfl, by decide⟩, by decide +kernel⟩

theorem witness_ScratchAccess_relocated : let s := withScratch [(5, 0x3FFF8)]
    let s := { s with mgmt := { s.mgmt with relocated := [s.ownCluster] } }
    s.Issues 0 [6, 5] ∧ s.layerHeld = false ∧ s.interlocked 2 0x3FFF8 0x40000 true = false ∧ s.extent true = 0x40000 ∧
      s.arrayTouches 2 0x3FFF8 8 = false ∧ s.relocated = true :=
  ⟨⟨rfl, by decide⟩, by decide +kernel⟩

/-- A store to the last word of a scratch space, on its way to its bank. -/
def bankward (layer : Bool) : ScratchStore := { layer := layer, offset := 0x3FFF8, v := 7 }

theorem witness_ScratchAccess_posted (layer : Bool) :
    let s := (withScratch [(5, 0x3FFF8)]).modHart 0 (fun x => { x with stores := [bankward layer] })
    let t := { s with mgmt := { s.mgmt with relocating := [s.ownCluster] } }
    s.Issues 0 [6, 5] ∧ (s.hart 0).stores = [bankward layer] ∧ (bankward layer).offset % 8 = 0 ∧
      (bankward layer).offset + 8 ≤ s.extent (bankward layer).layer ∧ s.layerHeld = false ∧ t.layerHeld = true ∧
      ((s.hart 0).stores.filter (fun x => x.layer == layer && x.offset == 0x3FFF8)).getLast? = some (bankward layer) := by
  cases layer <;> exact ⟨⟨rfl, by decide⟩, by decide +kernel⟩

/-- A hart without stores of its own on the way has settled them: so it is in the witnesses below. -/
theorem witness_settled (s : State) (h : (s.hart 0).stores = []) : s.settleStores 0 = some s := by
  simp only [State.settleStores, h]

theorem witness_ScalarFloat : (withRegs [(5, 0x7FC00000), (6, 0x80000000)]).Issues 0 [7, 5, 6] := ⟨rfl, by decide⟩

/-- The registers of a sync instruction: its object is at 0x1000. -/
def syncing (g : Store 64) : State := mapped false ((5, 0x1000) :: g)

theorem witness_RangeRecords_bind : let s := syncing [(6, 0x2000)]
    s.Issues 0 [7, 5, 6] ∧ ObjectAt s 0 ((s.hart 0).reg 5) (place false 0x1000) s ∧ ((s.hart 0).reg 6).toNat % 8 = 0 ∧
      ∃ base len s2 s3 s4, s.loadVa 0 ((s.hart 0).reg 6) 8 2 = .ok base s2 ∧
        s2.loadVa 0 ((s.hart 0).reg 6 + 8) 8 2 = .ok len s3 ∧ s3.readError 0x1000 = none ∧
        s3.interlocked 0 0x1000 0x1040 true = false ∧ s3.arrayTouches 0 0x1000 64 = false ∧
        s3.postedOver 0 0x1000 64 = false ∧ s3.evictSector 0x1000 = some s4 ∧
        Map.get none s4.home.frames (frameOf 0x1000).1 = none ∧ s4.codedOver 0x1000 (List.range 64) = false ∧
        (s4.llcLine 0x1000).isSome = true :=
  ⟨⟨rfl, by decide⟩, by unfold ObjectAt; decide +kernel, by decide +kernel, _, _, _, _, _, rfl, rfl, by decide +kernel,
    by decide +kernel, by decide +kernel, by decide +kernel, rfl, by decide +kernel, by decide +kernel, by decide +kernel⟩

theorem witness_RangeRecords_unbind : let s := syncing [(6, 2)]
    s.Issues 0 [7, 5, 6] ∧ ObjectAt s 0 ((s.hart 0).reg 5) (place false 0x1000) s ∧
      s.interlocked 0 0x1000 0x1040 true = false ∧ s.arrayTouches 0 0x1000 64 = false ∧
      s.postedOver 0 0x1000 64 = false ∧ s.evictSector 0x1000 = some s ∧
      Map.get none s.home.frames (frameOf 0x1000).1 = none ∧ s.codedOver 0x1000 (List.range 64) = false ∧
      (s.llcLine 0x1000).isSome = true :=
  ⟨⟨rfl, by decide⟩, by unfold ObjectAt; decide +kernel, by decide +kernel, by decide +kernel, by decide +kernel, rfl,
    by decide +kernel⟩

/-- Hart 0 of core 0, and hart 1 of core 1. -/
def partyA : Party := { core := 0, hart := 0, cid := 0 }
def partyB : Party := { core := 1, hart := 1, cid := 0 }

/-- An object held by A, which B waits for. -/
def heldEntry : DirEntry := { pa := 0x1000, excl := true, holders := [partyA], ovf := false, waiters := [⟨partyB, true⟩] }

theorem witness_Directory_home : let s := { syncing [] with dir := { Directory.reset with entries := [heldEntry] } }
    s.dirEntry 0x2000 = none ∧ s.entryRoom 0x2000 = true ∧ s.dir.held = [] ∧ s.dirEntry 0x1000 = some heldEntry ∧ partyB ∉ heldEntry.holders ∧ heldEntry.excl = true ∧
      heldEntry.holders ≠ [] ∧ partyA ∈ heldEntry.holders ∧ heldEntry.holders = [partyA] ∧ heldEntry.ovf = false ∧
      heldEntry.waiters = { who := partyB, excl := true } :: [] := by decide +kernel

theorem witness_Directory_full :
    let s := { syncing [] with dir := { Directory.reset with entries := List.replicate 4096 heldEntry } }
    s.entryRoom 0x1040 = false := by decide +kernel

theorem witness_Directory_freed :
    let e := { heldEntry with waiters := [] }
    let s := { syncing [] with
      dir := { Directory.reset with entries := [e], held := [{ pa := 0x1040, who := partyB, excl := true }] } }
    s.dirEntry 0x1000 = some e ∧ e.holders = [partyA] ∧ e.ovf = false ∧ e.waiters = [] ∧ s.slice 0x1040 = s.slice 0x1000 ∧
      s.dirEntry 0x1040 = none ∧ (s.entriesOf (s.slice 0x1000)).length ≤ 4096 := by decide +kernel

theorem witness_Directory_sent :
    let r : SyncReq := { pa := 0x1000, cid := 0, kind := 0, stage := .sent }
    let s := (syncing []).modHart 0 (fun x => { x with sync := [r] })
    0x1000 % 64 = 0 ∧ s.homeError 0x1000 = none ∧ (s.hart 0).request 0 0x1000 false = some r ∧ r.stage = .sent ∧ r.kind = 0 ∧
      s.storeRoom 0x1000 = true ∧ (1 : BitVec 10) ≠ s.core.coreId ∧ s.waits partyB 0x1000 = false := by decide +kernel

theorem witness_Acquires : let s := syncing []
    s.Issues 0 [5] ∧ ObjectAt s 0 ((s.hart 0).reg 5) (place false 0x1000) s ∧ (s.hart 0).request s.cid16 0x1000 false = none :=
  ⟨⟨rfl, by decide⟩, by unfold ObjectAt; decide +kernel, by decide +kernel⟩

/-- A granted request for the object at 0x1000. -/
def granted : SyncReq := { pa := 0x1000, cid := 0, kind := 1, stage := .granted }

theorem witness_Acquires_granted :
    let s := (syncing []).modHart 0 (fun x => { x with sync := [granted] })
    s.Issues 0 [5] ∧ ObjectAt s 0 ((s.hart 0).reg 5) (place false 0x1000) s ∧
      (s.hart 0).request s.cid16 0x1000 false = some granted ∧ ∃ s2, s.selfInvalidate (s.ranges 0x1000) = .done s2 :=
  ⟨⟨rfl, by decide⟩, by unfold ObjectAt; decide +kernel, by decide +kernel, _, rfl⟩

theorem witness_Acquires_wakes :
    let s := (syncing []).modHart 0 (fun x => { x with sync := [granted], run := .asleep (.sacq 0x1000) })
    s.Issues 0 [5] ∧ ObjectAt s 0 ((s.hart 0).reg 5) (place false 0x1000) s ∧ (s.hart 0).run = .asleep (.sacq 0x1000) ∧
      (s.hart 0).request s.cid16 0x1000 false = some granted ∧ ∃ s2, s.selfInvalidate (s.ranges 0x1000) = .done s2 :=
  ⟨⟨rfl, by decide⟩, by unfold ObjectAt; decide +kernel, by decide +kernel, by decide +kernel, _, rfl⟩

theorem witness_Acquires_try : let s := syncing []
    let t := { syncing [] with dir := { Directory.reset with entries := [{ heldEntry with holders := [partyB] }] } }
    s.Issues 0 [7, 5] ∧ ObjectAt s 0 ((s.hart 0).reg 5) (place false 0x1000) s ∧
      (s.dirEntry 0x1000 = none ∧ s.entryRoom 0x1000 = true) ∧ (∃ s2, s.selfInvalidate (s.ranges 0x1000) = .done s2) ∧
      ObjectAt t 0 ((t.hart 0).reg 5) (place false 0x1000) t ∧ (t.dirEntry 0x1000).map (·.holders) = some [partyB] ∧
      t.party 0 ∉ [partyB] :=
  ⟨⟨rfl, by decide⟩, by unfold ObjectAt; decide +kernel, by decide +kernel, ⟨_, rfl⟩, by unfold ObjectAt; decide +kernel,
    by decide +kernel, by decide +kernel⟩

theorem witness_ReleasesAndFences : let s := syncing []
    s.Issues 0 [5] ∧ ObjectAt s 0 ((s.hart 0).reg 5) (place false 0x1000) s ∧ (s.hart 0).request s.cid16 0x1000 true = none ∧
      (∃ s2 s3, s.releaseRanges 0 (s.ranges 0x1000) = .done s2 ∧ s2.releaseAtHome (s2.party 0) 0x1000 = (true, s3)) ∧
      s.fenceWaits 0 5 3 3 = false ∧ s.home.posted = [] ∧ s.home.vstr = [] ∧ s.core.queue = [] ∧ s.copy.slots = [] ∧
      s.stream.slots = [] ∧ s.net.entries = [] ∧ s.net.flight = [] :=
  ⟨⟨rfl, by decide⟩, by unfold ObjectAt; decide +kernel, by decide +kernel, ⟨_, _, rfl, rfl⟩, by decide +kernel⟩

theorem witness_ReleasesAndFences_waits :
    let s := { withRegs [] with home := { Home.reset with posted := [posted8 false] } }
    s.cur = .hart 0 ∧ s.fenceWaits 0 4 0 0 = true := by decide +kernel

theorem witness_ReleasesAndFences_banks :
    let s := (withScratch []).modHart 0 (fun x => { x with stores := [bankward true] })
    let t := { s with mgmt := { s.mgmt with relocating := [s.ownCluster] } }
    s.cur = .hart 0 ∧ s.fenceWaits 0 4 1 0 = false ∧ (s.settleStores 0).isSome = true ∧ t.fenceWaits 0 4 1 0 = false ∧
      (t.settleStores 0).isNone = true := by decide +kernel

theorem witness_ReleasesAndFences_memory :
    let s := { withRegs [] with home := { Home.reset with llc := [llcAt16] } }
    let c : Codec := { Codec.new with overflow := [{ frame := 1, sb := 0, old := 3, own := 1 }] }
    let t := { withRegs [] with home := { Home.reset with codecs := [(0, c)] } }
    s.cur = .hart 0 ∧ s.fenceWaits 0 4 3 0 = false ∧ (∃ s1, s.llcCleanOf 0 = some s1 ∧ s1.heldOf 0 = false) ∧
      t.fenceWaits 0 4 3 0 = false ∧ t.llcCleanOf 0 = some t ∧ t.heldOf 0 = true :=
  ⟨rfl, by decide +kernel, ⟨_, rfl, by decide +kernel⟩, by decide +kernel, rfl, by decide +kernel⟩

theorem witness_Waits_waita : let s := mapped true [(5, 0x1000)]
    s.Issues 0 [7, 5, 6] ∧ s.Reaches 0 .read ((s.hart 0).reg 5) 8 false (place true 0x1000) s ∧
      (place true 0x1000).mmio = false ∧ s.arrayTouches 0 0x1000 8 = false ∧ s.postedOver 0 0x1000 8 = false ∧
      (if (place true 0x1000).ms then some s else s.cleanSector 0x1000) = some s ∧ s.readError 0x1000 = none :=
  ⟨⟨rfl, by decide⟩, ⟨by decide +kernel, by decide +kernel, by decide +kernel⟩, by decide +kernel, by decide +kernel,
    by decide +kernel, rfl, by decide +kernel⟩

theorem witness_Waits_home : let s := mapped true [(5, 0x1000)]
    ∃ v s3, s.homeRead 0 s.cid16.toNat 0x1000 8 Via.memory = (some v, s3) := read_ok _ (by decide +kernel)

theorem witness_Waits_match (m : Bool) : let s := (withRegs []).modHart 0 (fun x => { x with
      run := .asleep (.waita 7 0x1000 1 0 m), csr := { x.csr with waitto := 1 } })
    let s := { s with ctr := { s.ctr with cycle := 1 } }
    (s.hart 0).run = .asleep (.waita 7 0x1000 1 0 m) ∧ (s.hart 0).csr.waitto ≠ 0 ∧
      0 + (s.hart 0).csr.waitto.toNat ≤ s.ctr.cycle.toNat := by cases m <;> decide +kernel

/-- A request for a monitor that waits for one. -/
def unarmed : Monitor := { hart := 0, elem := 0, name := 0x1000, ms := true, armed := false }

/-- How many monitors other cores hold is a free value: some unit has one left. -/
theorem witness_Waits_arms (hf : Config.otherMonitors 256 0 < 256) :
    let s := (withRegs []).modHart 0 (fun x => { x with run := .asleep (.waita 7 0x1000 1 0 false) })
    let s := { s with home := { s.home with monitors := [unarmed] } }
    s.home.monitors[0]? = some unarmed ∧ unarmed.armed = false ∧ (s.homeError unarmed.name).isNone = true ∧
      s.monitorUnit unarmed.name unarmed.ms = 256 ∧ s.monitorFree (s.home.monitors.take 0) 256 = true := by
  refine ⟨rfl, rfl, by decide +kernel, by decide +kernel, ?_⟩
  exact (by simpa using hf : (decide (0 + Config.otherMonitors 256 0 < 256) && true) = true)

/-- Hart 0 owns the array; way 0 is an array way, and VL is `vl` elements of type `t`. -/
def withArray (vl t : Nat) (g : Store 64) : State :=
  { mapped true g with core := { CoreState.reset with wayrole := 2, shape := word (vl + t * 2 ^ 18) } }

theorem witness_Waits_waitv (vl : Nat) (h : vl = 0 ∨ vl = 1) : let s := withArray vl 8 []
    s.Owns 0 3 [] ∧ s.hostPort = false ∧
    let w := aw .waitv 8 16 24 0 0 0
    let q := s.newEntry 0 w none s.core.shape (s.core.mtsel.truncate 32) 0 0 0
    w.check (s.hart 0).fmt.isSome (resolve .waitv none s.core.shape 0) 0 = none ∧ s.core.queue = [] ∧ s.core.mqueue = [] ∧
      s.placeWaits q = false ∧ s.core.mqueue.any (fun t => scoreboardHolds t q) = false ∧
      ∃ x s1, s.place 0 q (s.ctx q) = (x, s1) ∧ x.wait = false ∧ x.fault = none ∧ s1.placedLocked q x = false ∧
      (x.addrs = [] ↔ vl = 0) ∧ ∀ a ∈ x.addrs, s1.postedOver 0 a.name 4 = false ∧ s1.vstrOver a.name 4 = false := by
  rcases h with rfl | rfl
  · refine ⟨⟨⟨rfl, by decide⟩, by decide +kernel⟩, by decide +kernel, by decide +kernel, by decide +kernel, by decide +kernel,
      by decide +kernel, by decide +kernel, _, _, (Prod.eta _).symm, by decide +kernel, by decide +kernel, by decide +kernel,
      by decide +kernel, by decide +kernel⟩
  · refine ⟨⟨⟨rfl, by decide⟩, by decide +kernel⟩, by decide +kernel, by decide +kernel, by decide +kernel, by decide +kernel,
      by decide +kernel, by decide +kernel, _, _, (Prod.eta _).symm, by decide +kernel, by decide +kernel, by decide +kernel,
      by decide +kernel, by decide +kernel⟩

theorem witness_Waits_waitv_compares : let s := withArray 1 8 []
    let q := s.newEntry 0 (aw .waitv 8 16 24 0 0 0) none s.core.shape (s.core.mtsel.truncate 32) 0 0 0
    let r := s.place 0 q (s.ctx q)
    r.1.addrs ≠ [] ∧ ∃ s2, r.2.cleanAll r.1.addrs = some s2 :=
  ⟨by decide +kernel, Option.isSome_iff_exists.mp (by decide +kernel)⟩

/-- A word of WAITV that has not matched. -/
def unmatched : Watch := { elem := 63, addr := 0x1000, want := 5, matched := false }

theorem witness_Waits_waitv_over :
    let s := (withArray 1 8 []).modHart 0 (fun x => { x with
      run := .asleep (.waitv 8 false [unmatched] 0), csr := { x.csr with waitto := 1 } })
    let s := { s with ctr := { s.ctr with cycle := 1 } }
    (s.hart 0).run = .asleep (.waitv 8 false [unmatched] 0) ∧ (s.hart 0).mb = false ∧
      [unmatched].Pairwise (fun a b => a.elem < b.elem) ∧ (∀ e ∈ [unmatched], e.elem < 64) ∧ (s.hart 0).csr.waitto ≠ 0 ∧
      0 + (s.hart 0).csr.waitto.toNat ≤ s.ctr.cycle.toNat := by decide +kernel

theorem witness_CsrAccess : let s := withRegs [(5, 3)]
    s.Issues 0 [6, 5] ∧
    (csrName 0x011 = some (0x011, false) ∧ (s.hart 0).pl ≤ (csrLevels 0x011 false).1 ∧ s.csrWaits 0 0x011 = false) ∧
    (0x011 ≠ 0x019 ∧ (csrLevels 0x011 false).2 = some 2 ∧ (s.hart 0).pl ≤ 2 ∧ (s.hart 0).mb = false ∧
      ownerCsr 0x011 = false) := ⟨⟨rfl, by decide⟩, by decide +kernel⟩

theorem witness_CsrAccess_flags : let s := withRegs []
    let t := s.modHart 0 (fun x => { x with waits := some (.flags 0) })
    let u := s.modHart 1 (fun x => { x with late := [{ reg := 5, val := 0, flags := 0, opf := true }] })
    csrName 0x210 = some (0x010, true) ∧ (s.hart 0).pl ≤ (csrLevels 0x010 true).1 ∧
      ((t.hart 0).waits = some (.flags 0) ∧ t.awaitsFlags 0 0 = false) ∧ (u.hart 0).waits = none ∧
      u.flagsPending (other 0) = true := by decide +kernel

theorem witness_TrapsAndReturn : (atLevel 2 []).cur = .hart 0 ∧ ((atLevel 1 []).cur = .hart 0 ∧ ((atLevel 1 []).hart 0).pl ≤ 1) := by
  decide +kernel

theorem witness_IllegalWords : let s := atLevel 2 []
    s.cur = .hart 0 ∧ csrName 0x3FF = none ∧ 1 < (s.hart 0).pl ∧ s.Issues 0 [5, 6, 7] ∧
      csrName 0x001 = some (0x001, false) ∧ (csrLevels 0x001 false).1 < (s.hart 0).pl :=
  ⟨rfl, by decide +kernel, by decide +kernel, ⟨rfl, by decide⟩, by decide +kernel, by decide +kernel⟩

theorem witness_IllegalWords_levels : let s := atLevel 2 []
    let t := atLevel 1 []
    (s.hart 0).mb = false ∧ 0 < (s.hart 0).pl ∧ csrName 0x013 = some (0x013, false) ∧ (csrLevels 0x013 false).2 = none ∧
      csrName 0x002 = some (0x002, false) ∧ (csrLevels 0x002 false).2 = some 1 ∧ 1 < (s.hart 0).pl ∧ ownerCsr 0x002 = false ∧
      csrName 0x203 = some (0x003, true) ∧ (csrLevels 0x003 true).2 = some 1 ∧
      (({ t with h1 := { Hart.reset 1 with run := .running } } : State).hart (other 0)).stopped = false := by decide +kernel

/-- What a fetch that meets a word met. -/
theorem met_word (m : Met) (w : IWord) (h : (match m with | .word v _ => v == w | _ => false) = true) :
    ∃ s1, m = .word w s1 := by
  cases m with
  | word v s1 => exact ⟨s1, by rw [eq_of_beq h]⟩
  | skipped v s1 => cases h
  | fault c s1 => cases h
  | next s1 => cases h

/-- What a fetch that faults met. -/
theorem met_fault (m : Met) (c : Nat) (h : (match m with | .fault d _ => d == c | _ => false) = true) :
    ∃ s1, m = .fault c s1 := by
  cases m with
  | word v s1 => cases h
  | skipped v s1 => cases h
  | fault d s1 => exact ⟨s1, by rw [eq_of_beq h]⟩
  | next s1 => cases h

theorem witness_IllegalWords_word : let s := mapped true []
    s.cur = .hart 0 ∧ (s.hart 0).issues = true ∧ assigned 0 = false ∧ bits (0 : BitVec 32).toNat 26 6 ≠ 0x1A ∧
      ∃ s1, s.meet 0 = .word 0 s1 :=
  ⟨rfl, by decide +kernel, by decide +kernel, by decide +kernel, met_word _ _ (by decide +kernel)⟩

theorem witness_IllegalWords_skipped :
    let s := (mapped true []).modHart 0 (fun x => { x with pc := 4, jumped := true })
    let s := { s with home := { s.home with mem := Memory.store [] 0 4 0x68000000 } }
    s.cur = .hart 0 ∧ (s.hart 0).issues = true ∧ assigned 0 = false ∧ bits (0 : BitVec 32).toNat 26 6 ≠ 0x1A ∧
      (match s.meet 0 with | .skipped w _ => w == 0 | _ => false) = true := by decide +kernel

theorem witness_IllegalWords_fetch : let s := (withRegs []).modHart 0 (fun x => { x with pc := 0x800000000000 })
    s.cur = .hart 0 ∧ (s.hart 0).issues = true ∧ ∃ s1, s.meet 0 = .fault 0x06 s1 :=
  ⟨rfl, by decide +kernel, met_fault _ _ (by decide +kernel)⟩

theorem witness_IllegalWords_fmt : let s := mapped true []
    let t := { mapped true [] with home := { Home.reset with mem := Memory.store [] 4 4 0x10000000 } }
    (s.cur = .hart 0 ∧ s.hostPort = false ∧ (s.hart 0).ao = true) ∧ s.peekAt 0 4 = some 0 ∧
    misused (0x16#5 ++ 0x10#5 ++ 0x10#5 ++ 0#3 ++ 1#1 ++ 1#2 ++ 0#5) 0 = false ∧ t.peekAt 0 4 = some 0x10000000 ∧
    misused (0x16#5 ++ 0x10#5 ++ 0x10#5 ++ 0#3 ++ 1#1 ++ 1#2 ++ 0#5) 0x10000000 = true := by decide +kernel

/-! #### Harts, traps and translation -/

theorem witness_HartStates_sleep :
    let s := withRegs []
    let t := (withRegs []).modHart 0 (fun x => { x with mgmtEv := [1], csr := { x.csr with ie := 0x40 } })
    t.cur = .hart 0 ∧ t.wakes 0 = true ∧ s.cur = .hart 0 ∧ s.wakes 0 = false ∧ (s.hart 0).pl = 0 ∧ (s.hart 0).ao = true ∧
      (s.hart 0).mb = false ∧
      let u := t.modHart 0 (fun x => { x with run := .asleep .sleep })
      (u.hart 0).run = .asleep .sleep ∧ u.wakes 0 = true ∧ (u.hart 0).ieOn = false := by decide +kernel

theorem witness_HartStates_icinv : let s := withRegs []
    let t := { withRegs [] with home := { Home.reset with posted := [posted8 false] } }
    s.cur = .hart 0 ∧ s.storing 0 = false ∧ t.cur = .hart 0 ∧ t.storing 0 = true := by decide +kernel

theorem witness_HartStates_mb :
    let s := (withRegs []).modHart 0 (fun x => { x with
      mgmtEv := [1], run := .asleep .sleep, csr := { x.csr with ie := 0x40, status := 0x181 ||| 4 } })
    (s.hart 0).run = .asleep .sleep ∧ s.wakes 0 = true ∧ (s.hart 0).mb = true := by decide +kernel

theorem witness_HartStates_switch :
    let s := (withRegs []).modHart 0 (fun x => { x with csr := { x.csr with status := x.csr.status ||| 0x200 } })
    let t := s.modHart 1 (fun x => { x with run := .parked none })
    let u := s.modHart 1 (fun x => { x with run := .asleep .sleep })
    (t.cur = .hart 0 ∧ (t.hart 0).pl ≤ 1 ∧ (t.hart (other 0)).run = .parked none ∧ (t.hart 0).parkedPeer = true) ∧
      (u.hart (other 0)).run = .asleep .sleep ∧ (s.hart (other 0)).run = .held := by decide +kernel

/-- Hart 0 at level 1 with interrupts enabled and every interrupt enabled in IE. -/
def listening : State :=
  (withRegs []).modHart 0 (fun x => { x with csr := { x.csr with status := 0x91, ie := 0x7F } })

theorem witness_AsyncTraps : let f (x : Hart → Hart) : Option Async := (listening.modHart 0 x).asyncNext 0 false
    f (fun x => { x with mgmtEv := [1] }) = some .management ∧
    f (fun x => { x with parityEv := some ⟨0, 0, 0, 0, none⟩ }) = some .parity ∧
    f (fun x => { x with busEv := some ⟨0, 0, 0, 0, none⟩ }) = some .busError ∧
    f (fun x => { x with streamEv := [(0, 0)] }) = some .streamFault ∧
    f (fun x => { x with dirEv := some 0 }) = some .dirOverflow ∧
    f (fun x => { x with meshQ := [⟨0, 0, 0⟩] }) = some .mesh ∧
    f (fun x => { x with csr := { x.csr with tickcmp := 0 } }) = some .cycleCompare ∧
    ((listening.modHart 0 (fun x => { x with csr := { x.csr with status := 0x291 } })).modHart 1
      (fun x => { x with run := .parked none })).asyncNext 0 false = some .peerFault ∧
    f id = none ∧ (withRegs []).asyncNext 0 false = none ∧ ((withRegs []).hart 0).ieOn = false := by decide +kernel

theorem witness_AsyncTraps_core :
    let s := { listening with core := { CoreState.reset with
      wayrole := 2, mtstat := 0x100000002, mts := [(0, { MicroThread.new with state := 2 })] } }
    let t := { listening with core := { s.core with mtstat := 0x100000000 } }
    let u := { listening with
      core := { CoreState.reset with coreId := 0x200 }, host := { HostSide.reset with arrivals := [(0, 0)] } }
    let v := (listening.modHart 1 (fun x => { x with run := .running, csr := { x.csr with status := 0x11, ie := 0x7F } }))
    let v := { v with mmu := { Mmu.reset with queue := [{ w0 := 0, w1 := 0, w2 := 0, w3 := 0, taken := false }] } }
    s.asyncNext 0 false = some .mtFault ∧ t.asyncNext 0 false = some .mtSummary ∧ u.asyncNext 0 false = some .mailbox ∧
      v.asyncNext 1 false = some .faultQueue := by decide +kernel

/-- A TLB entry of another context. -/
def otherCid : TlbEntry := { page := 0x40000000, size := 12, cid := 7, all := false, leaf := 0x0F }

theorem witness_TlbWords_inv : let s (a b : Word) := { mapped true [(5, a), (6, b)] with
      mmu := { Mmu.reset with tlb := [firstGiB true, otherCid] } }
    (s 0 7).Issues 0 [5, 6] ∧ ((s 0 7).hart 0).pl ≤ 1 ∧ ((s 0 7).hart 0).reg 5 = 0 ∧
      ((s 0x40000000 7).hart 0).reg 5 ≠ 0 ∧ canonical (((s 0x40000000 7).hart 0).reg 5) = true ∧
      4096 ≤ (((s 0x40000000 7).hart 0).reg 5).toNat := ⟨⟨rfl, by decide⟩, by decide +kernel⟩

theorem witness_TlbWords_uses : let s := mapped true [(5, 0), (6, 0x10000)]
    let t := { s with home := { s.home with posted := [posted8 false] } }
    let l := s.mmu.tlb.filter (fun e => tlbMatch ((s.hart 0).reg 5) ((s.hart 0).reg 6) e.page e.size e.cid e.all)
    s.usesEntry l = false ∧ t.usesEntry l = true := by decide +kernel

theorem witness_TlbWords_probe : let s := withRegs [(5, 0x800000000000)]
    s.Issues 0 [7, 5] ∧ (s.hart 0).pl ≤ 1 ∧ s.probe 0 ((s.hart 0).reg 5) = (.fault Acc.probe.pageFault 3, s) :=
  ⟨⟨rfl, by decide⟩, by decide +kernel⟩

theorem witness_TlbWords_probes :
    let s := mapped true [(5, 0x1000)]
    let t := withRegs [(5, 0x1000)]
    let u := withRegs [(5, 0x800000000000)]
    s.Issues 0 [7, 5] ∧ (s.hart 0).pl ≤ 1 ∧
      s.mmu.tlb.any (fun e => e.covers ((s.hart 0).reg 5).toNat s.cid16) = true ∧ (s.probe 0 ((s.hart 0).reg 5)).1 ≠ .wait ∧
      (t.probe 0 ((t.hart 0).reg 5)).1 = .wait ∧ canonical ((u.hart 0).reg 5) = false ∧
      (u.probe 0 ((u.hart 0).reg 5)).1 = .fault Acc.probe.pageFault 3 := ⟨⟨rfl, by decide⟩, by decide +kernel⟩

/-- A leaf of size 1 GiB at level 1 of a two-level table at 0x2000. -/
def tables : State := { withRegs [] with
  core := { CoreState.reset with ptbase := 0x2000 }
  home := { Home.reset with mem := Memory.store (Memory.store [] 0x2000 8 0x3001) 0x3000 8 0x0F } }

/-- What a walk found. -/
theorem walk_ok (r : Except (Nat × Nat) TlbEntry × State) (h : (match r.1 with | .ok _ => true | _ => false) = true) :
    ∃ e s1, r = (.ok e, s1) := by
  obtain ⟨x, s1⟩ := r
  cases x with
  | ok e => exact ⟨e, s1, rfl⟩
  | error c => cases h

/-- A walk that found nothing. -/
theorem walk_error (r : Except (Nat × Nat) TlbEntry × State) (h : (match r.1 with | .ok _ => false | _ => true) = true) :
    ∃ c s1, r = (.error c, s1) := by
  obtain ⟨x, s1⟩ := r
  cases x with
  | ok e => cases h
  | error c => exact ⟨c, s1, rfl⟩

/-- The miss table: a lookup of the page at 0x1000, with this root. -/
def missed (root : Word) (ended : Option WalkEnd) : Miss := { page := 1, ptbase := root, cid := 0, acc := .read, ended := ended }
def missing (root : Word) (ended : Option WalkEnd) : State := { tables with mmu := { Mmu.reset with misses := [missed root ended] } }

theorem witness_TlbWords_walk : let f (r : Word) := missing r none
    ((f 0x2000).walks.find? (fun m => m.page == (0x1008 : Word).toNat / 4096) = some (missed 0x2000 none) ∧
      ∃ e s1, (f 0x2000).walk 0x2000 0 (4096 * 1) .read = (.ok e, s1)) ∧
    (f 0x5000).walks.find? (fun m => m.page == (0x1008 : Word).toNat / 4096) = some (missed 0x5000 none) ∧
      ∃ c s1, (f 0x5000).walk 0x5000 0 (4096 * 1) .read = (.error c, s1) :=
  ⟨⟨by decide +kernel, walk_ok _ (by decide +kernel)⟩, by decide +kernel, walk_error _ (by decide +kernel)⟩

theorem witness_Translation_misses : let s := missing 0x2000 none
    let serves (va : Word) (m : Miss) : Bool := m.page == va.toNat / 4096 && m.cid == s.cid16 && m.acc == .read
    canonical 0x1008 = true ∧ s.mmu.tlb = [] ∧ s.mmu.misses.any (serves 0x1008) = true ∧
      (∀ m ∈ s.mmu.misses, serves 0x1008 m = true → m.ended = none) ∧
      s.mmu.misses.any (serves 0x2000) = false ∧ s.mmu.misses.length < Config.missEntries := by decide +kernel

theorem witness_Translation : canonical 0x800000000000 = false ∧ canonical 0x3FFFFFFF = true ∧
    (mapped false []).mmu.tlb.find? (fun e => e.covers (0x3FFFFFFF : Word).toNat (mapped false []).cid16) =
      some (firstGiB false) := by decide +kernel

/-! #### The array -/

/-- A sum of group 24 into group 8. -/
def vaddWord : ArrWord := aw .vadd 8 16 24 0 0 0

theorem witness_ArrayIssue_queued : let s := withArray 4096 8 []
    s.cur = .hart 0 ∧ s.hostPort = false ∧ (Instr.vadd 8 16 24 0 0 0, vaddWord) ∈ arrayTable 8 16 24 0 0 0 ∧
      (s.hart 0).ao = true ∧ s.wordCheck 0 vaddWord = none ∧ (s.hart 0).mb = false ∧
      (∀ r ∈ vaddWord.scalars, (s.hart 0).isPending r.toNat = false) ∧
      (s.hart 0).isPending vaddWord.scalarDest = false ∧ s.core.queue.length < Config.arrayQueueEntries ∧
      vaddWord.op.space = none :=
  ⟨rfl, by decide +kernel, by simp [arrayTable, arrayTable3, vaddWord], by decide +kernel⟩

theorem witness_ArrayIssue_block :
    let s := (withArray 4096 8 []).modHart 0 (fun x => { x with csr := { x.csr with status := 0x180 } })
    s.cur = .hart 0 ∧ (s.hart 0).ao = true ∧ s.wordCheck 0 vaddWord = none ∧ (s.hart 0).mb = true ∧
      s.core.block.length < 32 := by decide +kernel

theorem witness_ArrayIssue_traps : let s := withArray 4096 8 []
    let t := s.modHart 0 (fun x => { x with csr := { x.csr with status := 0 } })
    ((s.hart 0).ao = true ∧ s.wordCheck 0 (aw .vadd 127 16 24 0 0 0) = some 0x0B ∧ (s.hart 0).mb = false) ∧
      (t.hart 0).ao = false ∧ t.wordCheck 0 vaddWord ≠ some 0x01 := by decide +kernel

/-- Places a word's elements, or says why not. -/
theorem prepared_ok (r : Prepared) (h : (match r with | .ok _ _ _ => true | _ => false) = true) :
    ∃ q sh s1, r = .ok q sh s1 := by
  cases r with
  | ok q sh s1 => exact ⟨q, sh, s1, rfl⟩
  | _ => cases h

theorem witness_ArrayMemoryIssue : let s := withArray 2 8 [(16, 0x1000)]
    let w := aw .vld 8 16 0 0 0 0
    s.cur = .hart 0 ∧ s.hostPort = false ∧ (s.hart 0).ao = true ∧ (s.hart 0).mb = false ∧
      (Instr.vld 8 16 0, w) ∈ arrayMemTable 8 16 0 0 ∧ s.wordCheck 0 w = none ∧
      (∀ r ∈ w.scalars, (s.hart 0).isPending r.toNat = false) ∧ s.core.queue.length < Config.arrayQueueEntries ∧
      ∃ q sh s1, s.prepare 0 (s.entryOf 0 w) = .ok q sh s1 :=
  ⟨rfl, by decide +kernel, by decide +kernel, by decide +kernel, by simp [arrayMemTable], by decide +kernel,
    by decide +kernel, by decide +kernel, prepared_ok _ (by decide +kernel)⟩

/-- Way 0 is an array way and way 16 scratch, with a word queued. -/
def withQueue (vl t : Nat) (g : Store 64) (w : ArrWord) : State :=
  let s := { withArray vl t g with core := { CoreState.reset with
    wayrole := 0x0000000100000002, shape := word (vl + t * 2 ^ 18), sram := Memory.store [] 0 8 0x0123456789ABCDEF } }
  { s with core := { s.core with queue := [s.entryOf 0 w] } }

theorem witness_ArrayMemoryIssue_scratch : let w := aw .vldl 8 16 0 0 0 0
    let s := withQueue 2 8 [(16, 0x3FFF8)] w
    let s := { s with core := { s.core with wayrole := 0x0000000100000006 } }
    let q := s.entryOf 0 w
    8 ≤ width q.memType ∧ q.x0.toNat % 4 = 0 ∧ q.x0.toNat + 4 * (s.ctx q).vl ≤ s.extent false ∧ s.placeWaits q = false ∧
      s.interlocked 1 q.x0.toNat (q.x0.toNat + 8 : Nat) q.w.op.stores = false := by decide +kernel

/-- A memory word on two elements of 4 bytes from `x`, about to be placed; the second GiB is mapped too, but not readable. -/
def secondGiB : TlbEntry := { firstGiB true with page := 0x40000000, leaf := 0x4D }
def placing (x : Word) : State :=
  let s := withArray 2 8 [(16, x)]
  { s with core := { s.core with wayrole := 0x0000000100000006 }, mmu := { s.mmu with tlb := [firstGiB true, secondGiB] } }
def placed (op : ArrOp) (x : Word) : QEntry := (placing x).entryOf 0 (aw op 8 16 0 0 0 0)

theorem witness_ArrayMemoryIssue_prepares (op : ArrOp) (h : op = .vldl ∨ op = .vsty ∨ op = .vld ∨ op = .vldff) (x : Word) :
    (placing x).placeWaits (placed op x) = false ∧ ((placing x).hart 0).pages = [] ∧
      (placing x).mgmt.fmode.getLsbD 0 = false ∧
      (∀ sp lo hi, (placing x).interlocked sp lo hi (placed op x).w.op.stores = false) ∧
      (placing x).mmu.tlb.Pairwise (fun a b => ∀ va, ¬(a.covers va (placing x).cid16 = true ∧ b.covers va (placing x).cid16 = true)) := by
  have i : (placing x).interlocks = [] := rfl
  refine ⟨?_, rfl,
    (by decide : (0 : BitVec 6).getLsbD 0 = false), ?_, ?_⟩
  · rcases h with rfl | rfl | rfl | rfl <;> rfl
  · intro sp lo hi; simp [State.interlocked, i]
  · refine List.pairwise_pair.mpr ?_
    intro va ⟨a, b⟩
    simp only [TlbEntry.covers, firstGiB, secondGiB, Bool.and_eq_true, decide_eq_true_eq] at a b
    omega

/-- What its translation phase comes to, at the places where the cases meet (R325 to R327). -/
theorem witness_ArrayMemoryIssue_ends :
    let ok (op : ArrOp) (x : Word) : Bool := match (placing x).prepare 0 (placed op x) with | .ok _ _ _ => true | _ => false
    let cut (op : ArrOp) (x : Word) : Bool := match (placing x).prepare 0 (placed op x) with | .ok _ sh _ => wf sh 0 18 == 1 | _ => false
    let faults (c k : Nat) (op : ArrOp) (x : Word) : Bool :=
      match (placing x).prepare 0 (placed op x) with | .fault d e _ _ _ => d == c && e == k | _ => false
    (∀ op ∈ [ArrOp.vldl, .vsty, .vld, .vldff], width (placed op 0).memType = 32) ∧
      ok .vldl 0x3FFF8 = true ∧ faults 0x07 1 .vldl 0x3FFFC = true ∧ faults 0x03 0 .vsty 2 = true ∧
      ok .vld 0x3FFFFFF8 = true ∧ faults 0x03 0 .vld 2 = true ∧ faults 0x04 0 .vld 0x800000000000 = true ∧
      faults 0x04 1 .vld 0x3FFFFFFC = true ∧ cut .vldff 0x3FFFFFFC = true ∧ faults 0x04 0 .vldff 0x40000000 = true := by
  decide +kernel

/-- Word `w` is the first of the queue, may begin and passes its checks. -/
def Ready (s : State) (q : QEntry) : Prop :=
  s.core.queue[0]? = some q ∧ s.mayBegin 0 q = true ∧ q.w.check q.fmt.isSome q.res q.scaleg = none

theorem witness_ArrayElementwise : let s := withQueue 4096 8 [] vaddWord
    Ready s (s.entryOf 0 vaddWord) ∧ vaddWord.op ∈ elementOps := by
  unfold Ready; decide +kernel

theorem witness_ArrayReductions : let w := aw .vredsum 5 16 0 0 0 0
    let s := withQueue 4096 8 [] w
    Ready s (s.entryOf 0 w) ∧ isInt (s.ctx (s.entryOf 0 w)).r.t1 = true := by
  unfold Ready; decide +kernel

theorem witness_ArrayReductions_ends : let w := aw .vredsum 5 16 0 0 0 0
    let s := withQueue 4096 8 [] w
    let q := { s.entryOf 0 w with stage := .begun }
    let s := { s with core := { s.core with queue := [q] } }
    s.core.queue[0]? = some q ∧ q.stage = .begun ∧ (s.core.queue.take 0).any q.sameDest = false := by decide +kernel

theorem witness_ArrayReductions_arrives : let e : Late := { reg := 63, val := 1, flags := 1 }
    let s := (withRegs []).modHart 0 (fun x => { x with late := [e] })
    (s.hart 0).late.findIdx? (fun e => e.reg == 63) = some 0 ∧ (s.hart 0).late[0]? = some e := by decide +kernel

theorem witness_ArrayReductions_answer : let a : MtAnswer := { hart := 0, reg := 5, num := 0, m := none, seq := 0 }
    let s := { withArray 1 8 [] with core := { CoreState.reset with wayrole := 2, answers := [a] } }
    (s.hart 0).late.findIdx? (fun e => e.reg == (5 : BitVec 6)) = none ∧
      s.core.answers.find? (fun a => a.hart == 0 && a.reg == 5) = some a ∧ s.answerReady a = true := by decide +kernel

theorem witness_ArrayMoves : let f (w : ArrWord) : Prop := Ready (withQueue 4096 8 [] w) ((withQueue 4096 8 [] w).entryOf 0 w)
    f (aw .vslideup 8 16 5 0 0 0) ∧ f (aw .viota 8 16 0 0 0 0) ∧ f (aw .vcompress 8 16 0 0 0 0) ∧
      f (aw .vexpand 8 16 0 0 0 0) ∧ f (aw .vinsr 8 16 5 0 0 0) ∧ f (aw .vmerge 8 16 24 0 0 0) := by
  unfold Ready; decide +kernel

/-- An element of 32 bits at `o` of a scratch space. -/
def scratchAt (e o : Nat) : ElemAddr :=
  { elem := e, lo := 0, n := 32, shift := 0, va := 0, name := o, vpn := 0, ms := true, mmio := false }

theorem witness_ArrayMemoryData (w : ArrWord) (h : w = aw .vldl 8 16 0 0 0 0 ∨ w = aw .vstl 8 16 0 0 0 0) :
    let s := withQueue 2 8 [] w
    let q := { s.entryOf 0 w with addrs := [scratchAt 0 0, scratchAt 1 0x3FFFC] }
    let s := { s with core := { s.core with wayrole := 0x0000000100000006, queue := [q] } }
    let layer := q.w.op.space == some 2
    let c := s.ctx q
    Ready s q ∧ 8 ≤ width q.memType ∧ width q.memType / 8 = 4 ∧
    (∀ a ∈ q.addrs, c.inSel a.elem = true ∧ a.lo = 0 ∧ a.n = 32 ∧ a.shift = 0 ∧ a.name % 4 = 0 ∧
      a.name + 4 ≤ s.extent layer ∧ s.elemHeld q.w.op (c.way a.elem) = false) ∧
    q.addrs.Pairwise (fun a b => a.elem < b.elem ∧ (a.name + 4 ≤ b.name ∨ b.name + 4 ≤ a.name)) := by
  rcases h with rfl | rfl <;> (unfold Ready; decide +kernel)

/-- An element of a VSTR: 1.5 for the binary32 at 0x1000. -/
def reduced : VstrItem :=
  { hart := 0, seq := 0, va := 0x1000, pa := 0x1000, td := 0x16, cls := 0, neg := false, num := 3, exp := -1, mode := 0,
    sat := false, elem := 0 }

theorem witness_ArrayMemoryData_relocated (w : ArrWord) (h : w = aw .vldy 8 16 0 0 0 0 ∨ w = aw .vsty 8 16 0 0 0 0) :
    let s := withQueue 2 8 [] w
    let q := { s.entryOf 0 w with addrs := [scratchAt 0 0, scratchAt 1 0x3FFFC] }
    let s := { s with
      core := { s.core with wayrole := 0x0000000100000006, queue := [q] }
      mgmt := { s.mgmt with relocated := [s.ownCluster] } }
    let c := s.ctx q
    Ready s q ∧ 8 ≤ width q.memType ∧ width q.memType / 8 = 4 ∧ (q.w.op.space == some 2 && s.relocated) = true ∧
    (∀ a ∈ q.addrs, c.inSel a.elem = true ∧ a.lo = 0 ∧ a.n = 32 ∧ a.shift = 0 ∧ a.name % 4 = 0 ∧
      a.name + 4 ≤ s.extent true ∧ s.elemHeld q.w.op (c.way a.elem) = false) ∧
    q.addrs.Pairwise (fun a b => a.elem < b.elem ∧ (a.name + 4 ≤ b.name ∨ b.name + 4 ≤ a.name)) := by
  rcases h with rfl | rfl <;> (unfold Ready; decide +kernel)

/-- An element of 32 bits of global memory. -/
def globalAt (e a : Nat) (ms : Bool) : ElemAddr :=
  { elem := e, lo := 0, n := 32, shift := 0, va := BitVec.ofNat 64 a, name := a, vpn := a / 4096, ms := ms, mmio := false }

/-- The whole of the second sector of the line of bytes 0x1000 to 0x10FF. -/
def fullLine : Line :=
  { set := 0, way := 1, tag := 16, cid := 0, vpn := 1, sectors := [(1, { valid := true, dirty := 0, data := 7 })] }

theorem witness_ArrayMemoryData_global (w : ArrWord) (h : w = aw .vld 8 16 0 0 0 0 ∨ w = aw .vst 8 16 0 0 0 0) (ms : Bool) :
    let s := withQueue 2 8 [] w
    let q := { s.entryOf 0 w with addrs := [globalAt 0 0x1040 ms, globalAt 1 0x107C ms] }
    let s := { s with cache := [fullLine], core := { s.core with queue := [q] } }
    let c := s.ctx q
    Ready s q ∧ 8 ≤ width q.memType ∧ width q.memType / 8 = 4 ∧
    (∀ a ∈ q.addrs, c.inSel a.elem = true ∧ a.name % 4 = 0 ∧ s.elemHeld q.w.op (c.way a.elem) = false ∧
      s.postedOver q.hart a.name 4 = false ∧ s.vstrOver a.name 4 = false ∧ s.homeError a.name = none ∧
      s.readError a.name = none) ∧
    q.addrs.Pairwise (fun a b => a.elem < b.elem) ∧ s.home.frames = [] ∧ s.home.llc = [] ∧ s.cacheWays ≠ [] ∧
    ∀ a ∈ q.addrs, ms = false → s.cachedPart a = true ∧ ∃ l, s.findLine (a.name / 256) = some l ∧ s.wayHeld l.way = false := by
  have f : ∀ s : State, s.cache = [fullLine] → s.findLine 16 = some fullLine := by
    intro s e; simp only [State.findLine, e]; rfl
  rcases h with rfl | rfl <;> cases ms <;>
    refine ⟨by unfold Ready; decide +kernel, by decide +kernel, by decide +kernel, by decide +kernel, by decide +kernel,
      by decide +kernel, by decide +kernel, by decide +kernel, ?_⟩ <;>
    (intro a ha; simp only [List.mem_cons, List.not_mem_nil, or_false] at ha
     rcases ha with rfl | rfl <;> intro e <;> first | exact absurd e (by decide) |
       exact ⟨by decide +kernel, fullLine, f _ rfl, by decide +kernel⟩)

theorem witness_RemoteReduce : let s := { withRegs [] with home := { Home.reset with vstr := [reduced] } }
    (0x1002 % (width 0x14 / 8) = 0 ∧ s.readError 0x1002 = none ∧ ((s.llcRead 0x1002 2).llcLine 0x1002).isSome = true) ∧
    s.home.vstr[0]? = some reduced ∧ s.home.vstr.filter reduced.together = [reduced] ∧ s.evictSector 0x1000 = some s ∧
    s.readError 0x1000 = none ∧ Map.get none s.home.frames (frameOf 0x1000).1 = none ∧
    (∀ x ∈ s.home.vstr.take 0, x.pa + 4 ≤ reduced.pa ∨ reduced.pa + 4 ≤ x.pa) ∧
    (s.llcStored 0x1000).isSome = true ∧ (((s.llcRead 0x1000 4).llcLine 0x1000).map (·.2)).isSome = true :=
  ⟨by decide +kernel, by decide +kernel, by decide +kernel, rfl, by decide +kernel⟩

theorem witness_RemoteReduce_peer : let v := { reduced with pa := 0xF80000001000 }
    let s := { withRegs [] with
      home := { Home.reset with vstr := [v] }, mgmt := { Management.reset with peermap := [(0, 0x80000005)] } }
    s.home.vstr[0]? = some v ∧ s.home.vstr.filter v.together = [v] ∧
      (∀ x ∈ s.home.vstr.take 0, x.pa + 4 ≤ v.pa ∨ v.pa + 4 ≤ x.pa) ∧ regionOf v.pa = .mmio ∧
      s.findLine (v.pa / 256) = none ∧ s.peerSlot v.pa = true ∧ s.ownDevice (s.peerPlace v.pa).1 = false := by
  decide +kernel

/-- A sweep that is over. -/
theorem swept (r : Sweep) (h : r.isDone = true) : ∃ s, r = .done s := by
  cases r with
  | done s => exact ⟨s, rfl⟩
  | wait s => cases h

theorem turned_some {α : Type} (o : Option α) (h : o.isSome = true) : ∃ x, o = some x := Option.isSome_iff_exists.mp h

theorem witness_WayRoles : let s := withArray 1 8 [(5, 0x9), (6, 1)]
    s.Owns 0 1 [7, 5, 6] ∧ (∀ w ∈ s.changing 9 1, (s.mt w).state ≠ 1) ∧ s.roleWaits (s.rolePlace 0) = false ∧
      ∃ s1, s.turnWays 9 1 = some s1 :=
  ⟨⟨⟨rfl, by decide⟩, by decide +kernel⟩, by decide +kernel, by decide +kernel, turned_some _ (by decide +kernel)⟩

theorem witness_WayRoles_csr : let s := withArray 1 8 [(5, 0x0000000100000009)]
    s.Owns 0 1 [7, 5] ∧ (∀ w ∈ s.changing 9 1, (s.mt w).state ≠ 1) ∧ s.roleWaits (s.rolePlace 0) = false ∧
      ∃ s1, s.turnWays 9 1 = some s1 :=
  ⟨⟨⟨rfl, by decide⟩, by decide +kernel⟩, by decide +kernel, by decide +kernel, turned_some _ (by decide +kernel)⟩

theorem witness_WayRoles_way : ∃ t, (withArray 1 8 []).turnWay 31 1 = some t := turned_some _ (by decide +kernel)

/-! #### Blocks, micro-threads and the tile unit -/

theorem witness_ArrayControl_ashape : let s (y : Word) := withArray 1 8 [(5, 0x3FFFF), (6, y)]
    (s 0x88).Owns 0 2 [7, 5, 6] ∧ (s 0x88).hostPort = false ∧
      (typeOk (wf 0x88 0 5) = true ∧ wf 0x88 5 2 ≠ 3 ∧ wf 0x88 8 56 = 0) ∧
      (s 0x88).core.queue.length < Config.arrayQueueEntries ∧ wf 0x160 8 56 ≠ 0 :=
  ⟨⟨⟨rfl, by decide⟩, by decide +kernel⟩, by decide +kernel⟩

theorem witness_ArrayControl_aclr : let s := withQueue 4096 8 [] (aw .aclr 0 0 0 0 0 0)
    ((withArray 1 8 []).core.queue = [] ∧ (withArray 1 8 []).core.mqueue = []) ∧ s.core.queue ≠ [] ∧ s.Owns 0 2 [] ∧
      s.mayBegin 0 (s.entryOf 0 (aw .aclr 0 0 0 0 0 0)) = true :=
  ⟨by decide +kernel, by decide +kernel, ⟨⟨rfl, by decide⟩, by decide +kernel⟩, by decide +kernel⟩

theorem witness_ArrayControl_flush : let s := { mapped false [(5, 0x1000), (6, 1)] with cache := [lineAt16] }
    s.Owns 0 2 [5, 6] ∧ (∀ q ∈ s.core.queue, q.stage = .waiting → q.w.op.stores = false) ∧
      (∃ s1, s.overMapped (some 0) (s.lineIn 0x1000 1) State.cleanLine = .done s1) ∧
      (∀ l ∈ s.cache, s.lineIn 0x1000 1 l = true ∧ canonical (BitVec.ofNat 64 l.va) = true ∧
        s.mmu.tlb.any (fun e => e.covers (BitVec.ofNat 64 l.va).toNat s.cid16) = true) ∧ (s.hart 0).pl ≤ 1 ∧
      s.core.queue = [] ∧ s.core.mqueue = [] :=
  ⟨⟨⟨rfl, by decide⟩, by decide +kernel⟩, by decide +kernel, swept _ (by decide +kernel), by decide +kernel,
    by decide +kernel⟩

/-- Hart 0 in an open block with these words. -/
def inBlock (ws : List Collected) : State :=
  let s := (withArray 4096 8 []).modHart 0 (fun x => { x with csr := { x.csr with status := 0x180 } })
  { s with core := { s.core with block := ws, blockMask := 1 } }

/-- What the planning of a block found. -/
theorem planned_ok (r : BlockPlan) (h : (match r with | .ok _ _ _ => true | _ => false) = true) :
    ∃ qs sh s1, r = .ok qs sh s1 := by
  cases r with
  | ok qs sh s1 => exact ⟨qs, sh, s1, rfl⟩
  | _ => cases h

theorem witness_BroadcastBlocks : let s := inBlock [⟨vaddWord, none⟩]
    ((withArray 1 8 [(5, 3)]).Issues 0 [5] ∧ ((withArray 1 8 [(5, 3)]).hart 0).mb = false) ∧ s.cur = .hart 0 ∧
      s.hostPort = false ∧ (s.hart 0).ao = true ∧ (s.hart 0).mb = true ∧ s.core.block.length ≤ s.queueRoom ∧
      (∀ r ∈ blockRegs s.core.block, (s.hart 0).isPending r = false) ∧
      ∃ qs sh s1, planBlock 0 s.core.blockMask 0 s.core.block [] s.core.shape s = .ok qs sh s1 :=
  ⟨⟨⟨rfl, by decide⟩, by decide +kernel⟩, rfl, by decide +kernel, by decide +kernel, by decide +kernel, by decide +kernel,
    by decide +kernel, planned_ok _ (by decide +kernel)⟩

theorem witness_BroadcastBlocks_full : let s := inBlock [⟨vaddWord, none⟩]
    let s := { s with core := { s.core with queue := List.replicate Config.arrayQueueEntries (s.entryOf 0 vaddWord) } }
    s.queueRoom < s.core.block.length ∧ s.asyncNext 0 true = none ∧
      (let t := s.modHart 0 (fun x => { x with csr := { x.csr with status := 0x100 } })
       (t.hart 0).mb = true ∧ (t.hart 0).ao = false) ∧ ((withArray 1 8 []).hart 0).mb = false := by decide +kernel

theorem witness_BroadcastBlocks_waitv : let s := inBlock [⟨vaddWord, none⟩, ⟨aw .waitv 8 16 24 0 0 0, none⟩]
    s.core.block.any (fun c => c.w.op == .waitv) = true ∧
      ∃ qs sh s1, planBlock 0 s.core.blockMask 0 s.core.block [] s.core.shape s = .ok qs sh s1 :=
  ⟨by decide +kernel, planned_ok _ (by decide +kernel)⟩

/-- Way 0 is an array way with a micro-thread in state `st`. -/
def withMt (st : Nat) (g : Store 64) : State :=
  let s := withArray 4096 8 g
  { s with core := { s.core with mts := [(0, { MicroThread.new with state := BitVec.ofNat 2 st, vlp := 4096, type := 8 })] } }

theorem witness_MicroThreadControl : let s := withMt 2 [(5, 0x1000), (6, 1)]
    s.Owns 0 3 [6, 5, 6] ∧ s.hostPort = false ∧ s.core.queue.length < Config.arrayQueueEntries ∧
      1 % 2 ^ (arrayWays s.core.wayrole).length ≠ 0 ∧ (∀ w ∈ s.masked 1, (s.mt w).state = 0 ∨ (s.mt w).state = 2) ∧
      s.masked 1 = [0] ∧ (∀ q ∈ s.core.queue, q.w.op ≠ .msplit) ∧ (∀ w ∈ s.masked 1, (s.mt w).state ≠ 1) :=
  ⟨⟨⟨rfl, by decide⟩, by decide +kernel⟩, by decide +kernel⟩

theorem witness_MicroThreadControl_private : let s := withMt 1 [(6, 1)]
    ∃ w ∈ s.masked 1, (s.mt w).state = 1 ∨ (s.mt w).state = 3 := ⟨0, by decide +kernel⟩

/-- A word queued with a selection of micro-threads. -/
def selecting (op : ArrOp) : QEntry := { (withArray 1 8 []).entryOf 0 (aw op 0 5 3 0 0 0) with sel := 1, x0 := 0x3FFFFC }

theorem witness_MicroThreadControl_queue :
    let s (op : ArrOp) := { withMt 0 [] with core := { (withMt 0 []).core with queue := [selecting op] } }
    ((s .msetm).core.queue[0]? = some (selecting .msetm) ∧ (s .msetm).mayBegin 0 (selecting .msetm) = true) ∧
      (s .msplit).mtWay 0 = some 0 ∧
      (s .msplit).core.queue.findIdx? (fun q => q.w.op == .msplit && bit q.sel.toNat 0) = some 0 ∧
      ((s .msplit).mt 0).state = 0 ∧
      (let t := { s .msplit with core := { (s .msplit).core with
        queue := [{ selecting .vstl with hart := 1, stage := .begun, sel := 1 }, selecting .msplit] } }
       t.core.queue.findIdx? (fun q => q.w.op == .msplit && bit q.sel.toNat 0) = some 1 ∧
        ∀ e ∈ t.core.queue.take 1, e.stage = .waiting → 0 ∉ t.restWays e ∧
          (e.hart = (selecting .msplit).hart → e.w.op.stores = true → e.w.op.space = some 0)) := by decide +kernel

/-- The block at BPC 0 of a private micro-thread: `add g3, g1, g2` and MSTOP. -/
def running (bpc : Nat) (image : List IWord) : State :=
  let s := withMt 1 []
  let sram := Memory.store (Memory.store [] 262144 4 0x04181040) 262148 4 0
  { s with
    cur := .mt 0
    core := { s.core with
      wayrole := 6, sram := sram
      mts := [(0, { s.mt 0 with bpc := BitVec.ofNat 22 bpc, image := image })] } }

theorem witness_PrivateBlocks : let s := running 0 [0x04181040]
    let t := { s with core := { s.core with mts := [(0, { s.mt 0 with stopReq := true })] } }
    s.cur = .mt 0 ∧ (s.mt 0).stopReq = false ∧ (t.mt 0).stopReq = true ∧ s.mtWay 0 = some 0 ∧ (s.mt 0).state = 1 ∧
      (s.mt 0).image[(s.mt 0).pos]? = some 0x04181040 ∧ arrayWord 0x04181040 = none ∧ encode (.add 3 1 2) = 0x04181040 ∧
      ((vaddWord.op.privateOk = true ∧ vaddWord.op.space = none ∧ (∀ r ∈ vaddWord.scalars, r.toNat < 8) ∧
        vaddWord.scalarDest < 8 ∧
        vaddWord.check (s.mt 0).fmt.isSome (s.privateCtx 0 (s.privateEntry 0 vaddWord)).r s.core.scaleg = none)) ∧
      ArrOp.privateOk .vld = false := by decide +kernel

/-- What an instruction came to. -/
theorem goes_on (r : Result) (h : (match r with | .next _ => true | _ => false) = true) : ∃ t, r = .next t := by
  cases r with
  | next t => exact ⟨t, rfl⟩
  | _ => cases h

theorem witness_PrivateBlocks_runs : let s := running 0 [0x04181040]
    (match exec (.add 3 1 2) { s with cur := .mt 0 } with | .next u => (u.mt 0).state != 3 | _ => false) = true := by
  decide +kernel

theorem witness_PrivateBlocks_fetch : let s := running 0x3FFF8 []
    let s := { s with core := { s.core with
      sram := Memory.store (Memory.store [] (s.scratchKey false 0x3FFF8) 4 0x04181040) (s.scratchKey false 0x3FFFC) 4 0xE4000004 } }
    s.mtWay 0 = some 0 ∧ (s.mt 0).state = 1 ∧ (s.mt 0).image = [] ∧ (s.mt 0).stopReq = false ∧ s.mtsHeld = false ∧
      endWord 0x04181040 = false ∧ bits (0x04181040 : IWord).toNat 26 6 ≠ 0x1A ∧ endWord 0xE4000004 = true ∧
      (s.mt 0).bpc.toNat + 4 * 2 ≤ s.extent false ∧ s.scratchLoad false 0x3FFF8 4 = 0x04181040 ∧
      s.scratchLoad false 0x3FFFC 4 = 0xE4000004 := by decide +kernel

/-- A private micro-thread of one element: a memory word of local scratch from m5. -/
def privateWord (op : ArrOp) (x : BitVec 32) : State × ArrWord :=
  let s := running 0 []
  ({ s with core := { s.core with mts := [(0, { s.mt 0 with vlp := 1, m := [(5, x)] })] } }, aw op 8 5 0 0 0 0)

theorem witness_PrivateBlocks_memory (op : ArrOp) (h : op = .vldl ∨ op = .vstl) :
    let s := (privateWord op 0x3FFFC).1
    let a := (privateWord op 0x3FFFC).2
    let t := (privateWord op 0x3FFFD).1
    let q (s : State) := s.privateEntry 0 a
    let c (s : State) := s.privateCtx 0 (q s)
    let at_ (s : State) (e : Nat) : Nat := ((q s).elementAt (c s) s.core.sram e).toNat
    s.cur = .mt 0 ∧ s.role 0 = 2 ∧ (∀ r ∈ a.scalars, r.toNat < 8) ∧ a.check (s.mt 0).fmt.isSome (c s).r s.core.scaleg = none ∧
      width (q s).memType = 32 ∧ s.elemHeld a.op 0 = false ∧
      (∀ e, (c s).active s.core.sram e = true → at_ s e % 4 = 0 ∧ at_ s e + 4 ≤ s.extent false) ∧
      ((c t).active t.core.sram 0 = true ∧ ¬(at_ t 0 % 4 = 0 ∧ at_ t 0 + 4 ≤ t.extent false)) := by
  have z : ∀ (c : ArrCtx) (m : Memory) (e : Nat), c.vl = 1 → c.active m e = true → e = 0 := by
    intro c m e v x
    simp only [ArrCtx.active, ArrCtx.inRange, v, Bool.and_eq_true, decide_eq_true_eq] at x
    omega
  rcases h with rfl | rfl <;>
    exact ⟨rfl, by decide +kernel, by decide +kernel, by decide +kernel, by decide +kernel, by decide +kernel,
      fun e x => by rw [z _ _ e (by decide +kernel) x]; decide +kernel, by decide +kernel⟩

/-- The core holds `rows` rows from 0, and the tile unit's owner pattern says so. -/
def withTile (rows t : Nat) (g : Store 64) : State :=
  { withArray 4096 t g with
    core := { CoreState.reset with wayrole := 2, shape := word (4096 + t * 2 ^ 18), tgrant := BitVec.ofNat 64 rows }
    tile := { TileUnit.reset with owner := if rows = 0 then [] else [(0, 1)] } }

theorem witness_TileWords : let s := withTile 0 4 [(5, 16), (6, 15)]
    let t := withTile 16 4 [(5, 16), (6, 15)]
    s.Owns 0 2 [7, 5, 6] ∧ s.hostPort = false ∧ s.grantAfter = some 0 ∧ t.grantAfter = some 16 ∧
      s.core.mqueue.length < Config.matrixQueueEntries ∧ s.wordCheck 0 (aw .tzero 1 0 0 0 0 0) = none ∧
      (withTile 16 8 [(6, 15)]).wordCheck 0 (aw .tread 8 1 6 0 0 0) = none ∧ (8 * (0 + 16) + 0 ≤ t.vlmax 0 ∧ 0 + 256 ≤ t.vlmax 0) ∧
      t.wordCheck 0 (aw .tmma 1 16 24 0 0 0) = none :=
  ⟨⟨⟨rfl, by decide⟩, by decide +kernel⟩, by decide +kernel⟩

/-- A word of the tile unit in the matrix queue. -/
def withTileWord (rows t : Nat) (g : Store 64) (w : ArrWord) (stage : QStage) : State :=
  let s := withTile rows t g
  { s with core := { s.core with mqueue := [{ s.entryOf 0 w with stage := stage }] } }

theorem witness_TileWords_ends : let s := withTileWord 16 4 [(5, 16)] (aw .tattach 7 5 0 0 0 0) .begun
    s.core.mqueue.findIdx? (fun q => q.stage == .begun) = some 0 ∧ (3 : BitVec 2).toNat ≠ s.position ∧
      (∀ b, b < 8 → (Store.get s.tile.owner b).toNat ≠ (3 : BitVec 2).toNat + 1) ∧
      s.core.mqueue.any (fun q => q.tile == some 0 || q.w.op == .tattach || q.w.op == .tdetach) = true := by decide +kernel

theorem witness_TileWords_ends_one : let s := withTile 16 4 [(5, 16)]
    let e (w : ArrWord) : QEntry := { s.entryOf 0 w with stage := .begun }
    let l := [e (aw .tmma 0 16 24 0 0 0), e (aw .tzero 1 0 0 0 0 0)]
    ∀ k q, l[k]? = some q → q.stage = .begun ∧
      ∀ x ∈ l.take k, ¬(q.tile.isSome = true ∧ x.tile = q.tile ∧ x.w.op ≠ .tread ∧ q.w.op ≠ .tread) := by
  intro s e l k q h
  have : k < 2 := (List.getElem?_eq_some_iff.mp h).1
  match k, this with
  | 0, _ => cases h; decide +kernel
  | 1, _ => cases h; decide +kernel

theorem witness_TileWords_accept : let s := withTileWord 16 4 [(5, 16)] (aw .tzero 1 0 0 0 0 0) .waiting
    let first (s : State) : Bool := s.headStarts && decide (s.turnOf s.position < s.turnOf (1 : BitVec 2).toNat)
    (1 : BitVec 2).toNat ≠ s.position ∧ first { s with tile := { s.tile with lastPos := 0 } } = false ∧
      first { s with tile := { s.tile with lastPos := 3 } } = true := by decide +kernel

theorem witness_TileEffects (w : ArrWord) (h : w = aw .tzero 1 0 0 0 0 0 ∨ w = aw .tload 1 8 5 0 0 0 ∨
      w = aw .tdetach 0 0 0 0 0 0 ∨ w = aw .tmma 1 16 24 0 0 0 ∨ w = aw .tread 8 1 5 0 0 0) :
    let s := withTileWord 16 (if w.op = .tread then 8 else 4) [(5, 15)] w .waiting
    let q := s.entryOf 0 w
    s.tileHead = some 0 ∧ s.core.mqueue[0]? = some q ∧ s.canStart 0 q = true ∧
      wf s.core.tgrant 8 7 + wf s.core.tgrant 0 8 ≤ 128 ∧ q.w.check q.fmt.isSome q.res q.scaleg = none := by
  rcases h with rfl | rfl | rfl | rfl | rfl <;> decide +kernel

theorem witness_TileEffects_attach (n : Word) (h : n = 16 ∨ n = 128) :
    let s := withTile 0 4 []
    let q := { s.entryOf 0 (aw .tattach 7 5 0 0 0 0) with x0 := n }
    let s := { s with core := { s.core with mqueue := [q] } }
    s.tileHead = some 0 ∧ s.core.mqueue[0]? = some q ∧ s.canStart 0 q = true ∧
      wf s.core.tgrant 8 7 + wf s.core.tgrant 0 8 ≤ 128 ∧ (s.tile.grant q.x0.toNat).isSome = true := by
  rcases h with rfl | rfl <;> decide +kernel

/-! #### Copies, packets, nodes and streams -/

/-- These words stored one after another, 8 bytes each. -/
def putWords (a : Nat) (ws : List Nat) (m : Memory) : Memory :=
  (ws.zipIdx.map (fun e => (a + 8 * e.2, e.1))).foldl (fun m e => Memory.store m e.1 8 e.2) m

/-- A core whose 256 KiB of local scratch hold these words from 0 on. -/
def scratchWith (ws : List Nat) (g : Store 64) : State :=
  { mapped true g with core := { CoreState.reset with wayrole := 1, sram := putWords 0 ws [] } }

/-- A copy of 2 rows of 3 binary32 from scratch 0x1000 to 0x2000, the last column outside the valid window. -/
def copyCmd (op : Nat) : CopyCmd :=
  { src := 0x1000, dst := 0x2000, sstride := 0x100, dstride := 0x100, rows := 2, cols := 3, vrows := 2, vcols := 2
    ctl := BitVec.ofNat 32 (1 + 4 + 0x16 * 16 + 0x16 * 512 + op * 2 ^ 20), scale := 0, fill := 0 }

/-- A transfer of that command in slot 63. -/
def copySlot63 (stage : CopyStage) : CopySlot :=
  { seq := 5, cmd := copyCmd 0, ranges := (copyCmd 0).ranges, block := 0, cid := 0, level := 0, hart := 0, stage := stage
    cancel := false, progress := 0, nsat := 0, status := 0, promise := 100, planned := 100, resumed := false, ended := false
    paused := false, order := 0 }

/-- A core with that transfer. -/
def copying (stage : CopyStage) (g : Store 64) : State :=
  { scratchWith [] g with copy := { slots := [(63, some (copySlot63 stage))], nextSeq := 6 } }

theorem witness_CopyQueue_cpy : let s := scratchWith [0x1000, 0x2000, 0x100, 0x100, 0x0002000200030002, (copyCmd 0).ctl.toNat, 0, 0] []
    let t := scratchWith [0x1000, 0x1000, 0x100, 0x100, 0x0002000200030002, (copyCmd 0).ctl.toNat, 0, 0] []
    s.Issues 0 [7, 5] ∧ s.within false 0 64 = true ∧ s.interlocked 1 0 64 false = false ∧ s.arrayTouches 1 0 64 = false ∧
      s.readCmd 0 = copyCmd 0 ∧ (copyCmd 0).op ≠ 3 ∧ (copyCmd 0).shapeDetail = none ∧
      (copyCmd 0).srcRange.bind s.rangeOutside = none ∧ s.rangeOutside (copyCmd 0).dstRange = none ∧
      (copyCmd 0).overlaps = false ∧ s.copySlot 0 = none ∧ (t.readCmd 0).overlaps = true ∧
      (t.readCmd 0).shapeDetail = none ∧ ((withScratch []).readCmd 0).shapeDetail = some 3 :=
  ⟨⟨rfl, by decide⟩, by decide +kernel⟩

theorem witness_CopyQueue_recode : let s := (scratchWith [0, 0, 0, 0, 0, 0x300000, 0, 0] []).modCsr 0 (fun c =>
      { c with status := wset c.status 0 2 2 })
    (s.readCmd 0).op = 3 ∧ (s.hart 0).pl = 2 := by decide +kernel

theorem witness_CopyQueue_ticket : let s := copying .running [(5, 0), (6, 0x17F)]
    s.Issues 0 [7, 5, 6] ∧ s.liveTicket 0x17F = some (63, copySlot63 .running) ∧ s.liveTicket 0 = none ∧
      s.ctr.cycle.toNat < 1 ∧ (0 : Word).toNat ≤ s.ctr.cycle.toNat ∧ (copySlot63 .running).paused = false :=
  ⟨⟨rfl, by decide⟩, by decide +kernel⟩

theorem witness_CopyQueue_restored : let c := { copySlot63 .running with resumed := true, replacement := 9 }
    let s := { copying .running [(5, 0), (6, 0x17F)] with copy := { slots := [(63, some c)], nextSeq := 6 } }
    let t := { s with ctr := { s.ctr with cycle := 9 } }
    let u := { s with copy := { s.copy with slots := [(63, some { c with paused := true })] } }
    s.liveTicket 0x17F = some (63, c) ∧ s.ctr.cycle.toNat < max (0 : Word).toNat c.replacement ∧
      max (0 : Word).toNat c.replacement ≤ t.ctr.cycle.toNat ∧ c.paused = false ∧
      u.liveTicket 0x17F = some (63, { c with paused := true }) := by decide +kernel

theorem witness_CopyQueue_missed :
    let s := (copying .running []).modHart 0 (fun x => { x with run := .asleep (.cpyw 0 0x17F) })
    (s.hart 0).run = .asleep (.cpyw 0 0x17F) ∧ s.liveTicket ((0x17F : BitVec 32).zeroExtend 64) = some (63, copySlot63 .running) ∧
      (0 : Word).toNat ≤ s.ctr.cycle.toNat := by decide +kernel

/-- The tick of a CPYW has come, or has passed, and the transfer is over or not; its context is suspended or not. -/
theorem witness_CopyQueue_late : let c := copySlot63 .running
    let n (k : Nat) : State := { copying .running [] with ctr := { Counters.reset with cycle := BitVec.ofNat 64 k } }
    c.over = false ∧ ({ c with ended := true } : CopySlot).over = true ∧ c.paused = false ∧ c.resumed = false ∧
      (n 9).ctr.cycle.toNat = 9 ∧ (n 9).late c 9 = true ∧ (n 9).late { c with ended := true } 9 = false ∧
      (n 10).late { c with ended := true } 9 = true ∧ (n 10).late { c with paused := true } 9 = false := by decide +kernel

theorem witness_CopyTransfer : let c := copySlot63 .running
    let s := copying .running []
    let src (p : Nat) : Nat := (c.cmd.src + BitVec.ofNat 64 (p / 3) * c.cmd.sstride).toNat + 4 * (p % 3)
    let dst (p : Nat) : Nat := (c.cmd.dst + BitVec.ofNat 64 (p / 3) * c.cmd.dstride).toNat + 4 * (p % 3)
    s.copySlot 63 = some c ∧ c.paused = false ∧ c.over = false ∧ c.cmd.op = 0 ∧ c.cmd.sspace = 1 ∧ c.cmd.dspace = 1 ∧
      width c.cmd.dtype = 32 ∧ c.cmd.stype = c.cmd.dtype ∧ (∀ r ∈ c.ranges, r.space = 1) ∧ c.cmd.perChunk = 1024 ∧
      c.cmd.cols = 3 ∧ (∀ p, p < 6 → dst p + 4 ≤ s.extent false ∧ src p + 4 ≤ s.extent false) ∧
      (∀ p, p < 6 → ∀ q, q < 6 → (p ≠ q → dst p + 4 ≤ dst q ∨ dst q + 4 ≤ dst p) ∧ (dst p + 4 ≤ src q ∨ src q + 4 ≤ dst p)) := by
  decide +kernel

/-- The same copy between global memory and layer space. -/
def copySpaces (sspace dspace : Nat) : CopySlot :=
  let cmd := { copyCmd 0 with ctl := BitVec.ofNat 32 (sspace + 4 * dspace + 0x16 * 16 + 0x16 * 512) }
  { copySlot63 .waiting with cmd := cmd, ranges := cmd.ranges }
def copyingSpaces (c : CopySlot) (relocated : Bool) : State :=
  let s := { mapped true [] with
    core := { CoreState.reset with wayrole := 0x0000000100000001 }, copy := { slots := [(63, some c)], nextSeq := 6 } }
  if relocated then { s with mgmt := { s.mgmt with relocated := [s.ownCluster] } } else s

theorem witness_CopyTransfer_spaces (ss ds : Nat) (relocated : Bool) (h : (ss = 0 ∧ ds = 2) ∨ (ss = 2 ∧ ds = 0)) :
    let c := copySpaces ss ds
    let s := copyingSpaces c relocated
    let src (p : Nat) : Nat := (c.cmd.src + BitVec.ofNat 64 (p / 3) * c.cmd.sstride).toNat + 4 * (p % 3)
    let dst (p : Nat) : Nat := (c.cmd.dst + BitVec.ofNat 64 (p / 3) * c.cmd.dstride).toNat + 4 * (p % 3)
    let entry (va : Nat) : Option TlbEntry := s.mmu.tlb.find? (fun t => t.covers va c.cid)
    let reach (space : Nat) (acc : Acc) (a : Nat) : Bool :=
      if space = 0 then a % 4 == 0 && canonical (BitVec.ofNat 64 a) && (entry a).any (fun t =>
        permits t.leaf acc c.level.toNat && (t.trans a).ms && !(t.trans a).mmio && (s.readError (t.trans a).name).isNone &&
          (s.findLine ((t.trans a).name / 256)).isNone)
      else decide (a + 4 ≤ s.extent true)
    let key (space a : Nat) : Bool × Nat :=
      if space = 0 then (true, s.homeKey (((entry a).map (fun t => (t.trans a).name)).getD 0))
      else if s.relocated = true then (true, s.slotKey (s.scratchKey true a)) else (false, s.scratchKey true a)
    let apart (x y : Bool × Nat) : Bool := x.1 != y.1 || decide (x.2 + 4 ≤ y.2) || decide (y.2 + 4 ≤ x.2)
    s.copySlot 63 = some c ∧ c.paused = false ∧ c.over = false ∧ s.startHeld c.hart c.order c.cid c.ranges = false ∧
      s.behindRole c.order = false ∧ s.layerHeld = false ∧ c.cmd.op = 0 ∧ c.cmd.sspace = ss ∧ c.cmd.dspace = ds ∧
      width c.cmd.dtype = 32 ∧ c.cmd.stype = c.cmd.dtype ∧ s.home.frames = [] ∧ s.home.llc = [] ∧ c.nsat < 2 ^ 32 ∧
      c.cmd.perChunk = 1024 ∧ c.cmd.cols = 3 ∧
      (∀ p, p < 6 → reach ds .write (dst p) = true ∧ reach ss .read (src p) = true) ∧
      ∀ p, p < 6 → ∀ q, q < 6 → (p ≠ q → apart (key ds (dst p)) (key ds (dst q)) = true) ∧
        apart (key ds (dst p)) (key ss (src q)) = true := by
  rcases h with ⟨rfl, rfl⟩ | ⟨rfl, rfl⟩ <;> cases relocated <;> decide +kernel

theorem witness_CopyTransfer_ends : let c := { copySlot63 .running with progress := 1 }
    let s := { scratchWith [] [] with copy := { slots := [(63, some c)], nextSeq := 6 } }
    s.copySlot 63 = some c ∧ c.paused = false ∧ c.cmd.chunks ≤ c.progress ∧ c.block + 0x40 ≤ s.extent false ∧
      c.block % 64 = 0 := by decide +kernel

theorem witness_CopyTransfer_missed : let c := { copySlot63 .running with progress := 1, missedAt := some 9 }
    let s (n : Nat) : State := { scratchWith [] [] with
      copy := { slots := [(63, some c)], nextSeq := 6 }, ctr := { Counters.reset with cycle := BitVec.ofNat 64 n } }
    c.missedAt = some (s 9).ctr.cycle.toNat ∧ c.missedAt ≠ some (s 10).ctr.cycle.toNat := by decide +kernel

/-- The same transfer from a home address that no page maps. -/
def lostCopy (stage : CopyStage) : CopySlot :=
  { copySlot63 stage with cmd := { copyCmd 0 with src := 0x800000000000, ctl := (copyCmd 0).ctl - 1 } }

theorem witness_FaultReplies_fault : let c := lostCopy .running
    let s := { scratchWith [] [] with copy := { slots := [(63, some c)], nextSeq := 6 } }
    let x := s.runChunk c
    s.copySlot 63 = some c ∧ c.paused = false ∧ c.over = false ∧ c.cmd.op ≠ 3 ∧ (∀ r ∈ c.ranges, r.space ≠ 2) ∧
      x.wait = false ∧ x.fault = some (0x04, false, 0, 0, 0x800000000000) ∧ x.s.canDeposit = true ∧
      bit x.s.mgmt.fmode.toNat 0 = false := by decide +kernel

/-- A reply from the host. -/
def replyOf (w : Word) : ReplyMsg := { src := 1024, before := 0, word := w }

/-- A core with an outstanding record that its agent deposited, and a reply to it. -/
def replied (d : Deposit) (w : Word) (s : State) : State :=
  let s := (s.deposit d).2
  { s with net := { Network.reset with replies := [replyOf w] } }

/-- The record of a fault of agent `source` with tag `tag`. -/
def depositOf (source tag : Nat) : Deposit :=
  { addr := 0x5000, stride := 0, remain := 1, elen := 8, tag := tag, cause := 0x04, source := source, wr := false, cid := 0 }

theorem witness_FaultReplies_copy : let s := replied (depositOf 2 0x17F) 0 (copying (.stalled 0) [])
    let t := replied (depositOf 2 0x17F) 0x10000 (copying (.stalled 0) [])
    let u := replied (depositOf 2 0) 5 s
    let v := replied (depositOf 2 0) 0x700000000 s
    let first (s : State) (w : BitVec 64) : Option (ReplyMsg × Nat) :=
      s.net.replies.zipIdx.find? (fun e => e.1.word == w && s.firstReply e.2 e.1)
    (first s 0 = some (replyOf 0, 0) ∧ wf 0 32 16 = s.cid16.toNat ∧ s.core.preempted = false ∧ wf 0 16 2 < 2 ∧
      (s.outstanding 0).map (fun r => (r.source, r.tag % 64)) = some (2, 63) ∧
      s.copySlot 63 = some (copySlot63 (.stalled 0)) ∧ (copySlot63 (.stalled 0)).cancel = false) ∧
    (first t 0x10000 = some (replyOf 0x10000, 0) ∧ wf 0x10000 16 2 = 1 ∧ wf 0x10000 0 16 = 0) ∧
    (∀ m ∈ t.net.replies, m.word ≠ 0) ∧ (first u 5 = some (replyOf 5, 0) ∧ u.outstanding 5 = none) ∧
    first v 0x700000000 = some (replyOf 0x700000000, 0) ∧ wf 0x700000000 32 16 ≠ v.cid16.toNat ∧
      v.parkArea (BitVec.ofNat 16 (wf 0x700000000 32 16)) = none := by decide +kernel

theorem witness_FaultReplies_hart :
    let s := replied (depositOf 1 0) 0 ((withRegs []).modHart 1 (fun x => { x with run := .parked (some 0) }))
    (s.outstanding 0).map (fun r => r.source) = some (1 : BitVec 1).toNat ∧ (s.hart 1).run = .parked (some 0) := by
  decide +kernel

/-- A destination word: core 1 of this device, virtual network `vn`, transform `x`, offset or handler `v`. -/
def destWord (vn x v : Nat) : Nat := 2 ^ 42 + vn * 2 ^ 40 + x * 2 ^ 38 + v

theorem witness_NetworkSend :
    let s (w n : Nat) := scratchWith [1, 2, 3] [(5, BitVec.ofNat 64 w), (6, 0), (7, BitVec.ofNat 64 n)]
    let t (vn : BitVec 2) := { s (destWord 1 0 7) 248 with
      net := { Network.reset with entries := List.replicate 32 (1, 0, vn, 1) } }
    (s (destWord 1 0 7) 248).Issues 0 [7, 5, 6] ∧
    (sendFields (BitVec.ofNat 64 (destWord 1 0 7)) = true ∧ (s 0 0).destOk (BitVec.ofNat 64 (destWord 1 0 7)) = true ∧
      (s 0 0).within false 0 248 = true ∧ (s 0 0).interlocked 1 0 248 false = false ∧ (s 0 0).arrayTouches 1 0 248 = false ∧
      (s 0 0).sendFull 0 1 = false ∧ (t 1).sendFull 0 1 = true) ∧
    (sendFields (BitVec.ofNat 64 (2 ^ 41)) = false ∧ putFields (BitVec.ofNat 64 (7 * 2 ^ 38)) = false) ∧
    (putFields (BitVec.ofNat 64 (destWord 0 6 7)) = true ∧ (4096 : Nat) % 8 = 0 ∧ (s 0 0).within false 0 4096 = true ∧
      (s 0 0).interlocked 1 0 4096 false = false ∧ (s 0 0).arrayTouches 1 0 4096 = false ∧ (s 0 0).sendFull 0 2 = false) ∧
    (nintFields (BitVec.ofNat 64 (2 ^ 42 + 2 ^ 32)) = true ∧ (s 0 0).destOk (BitVec.ofNat 64 (2 ^ 42 + 2 ^ 32)) = true ∧
      nintFields 1 = false ∧ (t 3).sendFull 0 3 = true ∧ ((s 0 0).hart 0).pl ≤ 1) :=
  ⟨⟨rfl, by decide⟩, by decide +kernel⟩

/-- Lengths that NPUT may not have, and a full send queue of its network. -/
theorem witness_NetworkSend_put : let s := scratchWith [1, 2, 3] []
    let fits (x n : Nat) : Prop := n % 8 = 0 ∧ 8 ≤ n ∧ n ≤ 4096 ∧ (x = 6 → 16 ≤ n)
    let t := { s with net := { Network.reset with entries := List.replicate 32 (1, 0, 2, 1) } }
    putFields (BitVec.ofNat 64 (destWord 0 0 7)) = true ∧ putFields (BitVec.ofNat 64 (destWord 0 1 7)) = true ∧
      s.destOk (BitVec.ofNat 64 (destWord 0 0 7)) = true ∧ s.destOk (BitVec.ofNat 64 (destWord 0 1 7)) = true ∧
      wf (BitVec.ofNat 64 (destWord 0 1 7)) 38 4 = 1 ∧ fits 6 16 ∧ fits 0 4096 ∧ ¬fits 6 8 ∧ ¬fits 0 0 ∧ ¬fits 0 4104 ∧ ¬fits 0 12 ∧
      t.sendFull 0 2 = true ∧ s.sendFull 0 2 = false := by decide +kernel

/-- A receive slot of VN 0. -/
def rxSlot (k order : Nat) (taken : Bool) : RxSlot :=
  { vn := 0, idx := k, taken := taken, handler := 9, core := 1, order := order }

theorem witness_NetworkArrivals :
    let s := scratchWith [] [(5, 0), (6, 2)]
    let t := { s with net := { Network.reset with rx := [rxSlot 0 1 false, rxSlot 1 0 false, rxSlot 2 2 true] } }
    (s.fromMe 0 1 = false ∧ s.divert = none ∧ 32768 ≤ s.extent false ∧ (∀ x ∈ s.net.rx, x.vn = 0 → x.idx ≠ 0)) ∧
    (∀ k, k < 64 → ∃ x ∈ (List.range 64).map (fun k => rxSlot k k false), x.vn = 0 ∧ x.idx = k) ∧
    t.Issues 0 [7, 5] ∧ (s.hart 0).reg 6 = 2 ∧ (t.slotsBusy = false ∧ 0 < t.extent false ∧
      t.interlocked 1 0x38000 (0x38000 + 256) true = false) ∧ ((withRegs []).slotsBusy = false ∧ (withRegs []).extent false = 0) ∧
    (rxSlot 1 0 false ∈ t.net.rx ∧ (∀ y ∈ t.net.rx, y.vn.toNat = 0 ∧ y.taken = false → y ≠ rxSlot 1 0 false → 0 < y.order) ∧
      t.net.rx.Pairwise (fun y z => ¬(y.vn = z.vn ∧ y.idx = z.idx))) := by
  refine ⟨by decide +kernel, ?_, ⟨rfl, by decide⟩, by decide +kernel⟩
  intro k h
  exact ⟨rxSlot k k false, List.mem_map.mpr ⟨k, List.mem_range.mpr h, rfl⟩, rfl, rfl⟩

theorem witness_NetworkArrivals_landing : let s := scratchWith [] []
    putLength 6 16 = true ∧ putLength 0 256 = true ∧ s.divert = none ∧
      (229120 + (256 - 0) / 1 * 1 ≤ s.extent false - 32768) ∧ ¬(229121 + (256 - 0) / 1 * 1 ≤ s.extent false - 32768) := by
  decide +kernel

theorem witness_MeshMessages :
    let s := (withRegs []).modHart 0 (fun x => { x with meshQ := List.replicate 7 ⟨0, 0, 0⟩ })
    let t := (withRegs []).modHart 0 (fun x => { x with meshQ := List.replicate 8 ⟨0, 0, 0⟩ })
    (1 : BitVec 10) ≠ s.core.coreId ∧ (s.hart 0).meshQ.length < 8 ∧ 8 ≤ (t.hart 0).meshQ.length ∧ s.h0.meshQ.length < 8 ∧
      s.h1.meshQ.length < 8 ∧ s.core.preempted = false ∧ s.core.resuming = none := by decide +kernel

/-- A message of this core to its hart 1, the one packet on its way. -/
def ownMessage (kind : BitVec 2) : Packet := { entry := 1, hart := 0, dest := 0, sdev := 0, score := 0, body := .nint 1 kind 7 }

theorem witness_MeshMessages_own (kind : BitVec 2) :
    let s := { withRegs [] with net := { Network.reset with flight := [ownMessage kind], entries := [(1, 0, 3, 1)] } }
    s.packet 0 = some (ownMessage kind) ∧ (ownMessage kind).body = .nint 1 kind 7 ∧ (ownMessage kind).score = s.core.coreId ∧
      s.firstMesh 0 (ownMessage kind) = true ∧ s.toMe (ownMessage kind).dest = true ∧ (s.hart 1).meshQ.length < 8 ∧
      s.core.preempted = false ∧ s.core.resuming = none := by revert kind; decide +kernel

/-- A spill area at 0x4000 with one message of 4 bytes. -/
def spilled (head : Nat) : State :=
  { scratchWith [] [] with
    net := { Network.reset with redeliver := some (0x4000, 0) }
    home := { Home.reset with mem := putWords 0x4000 ([2, head, 1] ++ List.replicate 5 0 ++ [2 ^ 42 + 7, 4, 0x01020304]) [] } }

theorem met_header (r : EngineResult × Nat × Nat × Nat) (x : Nat × Nat × Nat)
    (h : (match r with | (.ok v _, y) => v == 0 && y == x | _ => false) = true) : ∃ s1, r = (.ok 0 s1, x) := by
  obtain ⟨y, z⟩ := r
  cases y with
  | ok v s =>
    simp only [Bool.and_eq_true, beq_iff_eq] at h
    obtain ⟨rfl, rfl⟩ := h
    exact ⟨s, rfl⟩
  | _ => cases h

theorem witness_MeshMessages_redelivery : let s := spilled 0
    s.net.redeliver = some (0x4000, 0) ∧ s.core.preempted = false ∧ s.net.held = none ∧
      (∃ s1, s.spillHeader (s.spillId 0) 0x4000 = (.ok 0 s1, 2, 0, 1)) ∧
      ∃ s1, (spilled 1).spillHeader ((spilled 1).spillId 0) 0x4000 = (.ok 0 s1, 2, 1, 1) :=
  ⟨rfl, rfl, rfl, met_header _ _ (by decide +kernel), met_header _ _ (by decide +kernel)⟩

/-- The whole chain of one redelivery, from the entry to the packet's delivery. -/
theorem witness_MeshMessages_entry : let s := spilled 0
    (match s.spillHeader (s.spillId 0) 0x4000 with
     | (.ok 0 s1, cap, head, tail) => cap != 0 && head != tail &&
       (match s1.loadWords (s.spillId 0) (0x4000 + BitVec.ofNat 64 (64 + 272 * (head % cap))) 34 [] with
        | (.ok 0 s2, ws) =>
          (match s2.engineStore (s.spillId 0) (0x4000 + 8) 0 64 (head + 1) with
           | .ok _ s3 =>
             (match s3.unspill (ws.getD 0 0) (ws.getD 1 0) ((ws.drop 2).flatMap (fun v => (bytesOf v 8).map (·.2))) with
              | some p => (s3.deliverHere p).isSome
              | none => false)
           | _ => false)
        | _ => false)
     | _ => false) = true := by decide +kernel

/-- Where the packet of the entry at head finds no slot, and where a restored context waits for the end of redelivery. -/
theorem witness_MeshMessages_waits : let p : Packet := { entry := 0, hart := 0, dest := 0, sdev := 0, score := 1, body := .nsend 0 7 [1] }
    let s := { spilled 0 with net := { (spilled 0).net with rx := (List.range 64).map (fun k => rxSlot k k false) } }
    let t := { withRegs [] with
      core := { CoreState.reset with resuming := some (true, false) }, net := { Network.reset with redeliver := some (0, 0) } }
    (s.deliverHere p).isNone = true ∧ t.net.redeliver = some (0, 0) ∧ t.core.preempted = false ∧ t.net.held = none ∧
      t.core.resuming = some (true, false) := by decide +kernel

/-! Images of words that a hart reads one after another. -/

/-- The state after the first words of an image at `va` have been read. -/
def imageAt (k : Nat) (va : Word) (s : State) : Nat → State
  | 0 => s
  | i + 1 =>
    match (imageAt k va s i).loadVa 0 (va + BitVec.ofNat 64 (8 * i)) 8 k with
    | .ok _ t => t
    | _ => s

/-- Word `i` of that image. -/
def imageWord (k : Nat) (va : Word) (s : State) (i : Nat) : Nat :=
  match (imageAt k va s i).loadVa 0 (va + BitVec.ofNat 64 (8 * i)) 8 k with
  | .ok v _ => v
  | _ => 0

theorem image_reads (k n : Nat) (va : Word) (s : State)
    (h : ∀ i, i < n → (match (imageAt k va s i).loadVa 0 (va + BitVec.ofNat 64 (8 * i)) 8 k with
      | .ok _ _ => true
      | _ => false) = true) (i : Nat) (hi : i < n) :
    (imageAt k va s i).loadVa 0 (va + BitVec.ofNat 64 (8 * i)) 8 k = .ok (imageWord k va s i) (imageAt k va s (i + 1)) := by
  have h := h i hi
  rw [imageAt, imageWord]
  revert h
  cases (imageAt k va s i).loadVa 0 (va + BitVec.ofNat 64 (8 * i)) 8 k <;> intro h <;> first | rfl | cases h

theorem met_some {α : Type} (p : α → Bool) (o : Option α)
    (h : (match o with | some x => p x | none => false) = true) : ∃ x, o = some x ∧ p x = true := by
  cases o with
  | none => cases h
  | some x => exact ⟨x, rfl, h⟩

/-- A sweep that is over, and what is asked of the state that it leaves. -/
theorem met_done (p : State → Bool) (r : Sweep)
    (h : (match r with | .done s => p s | .wait _ => false) = true) : ∃ s, r = .done s ∧ p s = true := by
  cases r with
  | done s => exact ⟨s, rfl, h⟩
  | wait s => cases h

/-- A task record at 0x1000: no predecessor, one operand. -/
def recording (desc : Nat) (g : Store 64) : State :=
  { scratchWith [] g with
    home := { Home.reset with mem := putWords 0x1000 [2, 0, 0, 0, 0, 0, 0, 0, 0x3000, desc] [] } }

theorem witness_TaskNodes_spawn (desc : Nat) (h : desc = 0x10000000040 ∨ desc = 0x8000000000000000) :
    let s := recording desc [(5, 0x1000)]
    (imageAt 2 0x1000 s 0).Issues 0 [7, 5] ∧ ((s.hart 0).reg 5).toNat % 128 = 0 ∧
    (∀ i, i < 16 → (imageAt 2 0x1000 s i).loadVa 0 (0x1000 + BitVec.ofNat 64 (8 * i)) 8 2 =
      .ok (imageWord 2 0x1000 s i) (imageAt 2 0x1000 s (i + 1))) ∧
    (recordOk ((List.range 16).map (fun i => BitVec.ofNat 64 (imageWord 2 0x1000 s i))) = true ↔ desc = 0x10000000040) ∧
    ∃ s1, (imageAt 2 0x1000 s 16).cleanRecord 0 0x1000 = .done s1 ∧ decide (s1.freeNode = some 0) = true := by
  rcases h with rfl | rfl <;>
    exact ⟨⟨rfl, by decide⟩, by decide +kernel, image_reads 2 16 0x1000 _ (by decide +kernel), by decide +kernel,
      met_done _ _ (by decide +kernel)⟩

/-- A node of record 0x1000 with these predecessors. -/
def nodeOf (preds : Nat) (stage : NodeStage) : Node :=
  { record := 0x1000, cid := 0, core := 0, preds := preds, prio := 2, cls := 1, ops := [⟨0x3000, 64, 1⟩], stage := stage
    zeroAt := some 0, readyAt := some 0, level := 2, enteredAt := 0, unplaceable := false }

/-- A pool with these nodes. -/
def pooled (nodes : Map (Option Node)) (g : Store 64) : State :=
  { recording 0x10000000040 g with
    pool := { nodes := nodes, edges := [], waiters := [], triggers := [], fired := [], nextOrder := 2 } }

theorem witness_TaskNodes_get : (pooled [] []).Issues 0 [63] ∧ (pooled [] []).hostPort = false ∧
    let s := (pooled [(0, some (nodeOf 0 .live))] []).modHart 0 (fun x => { x with run := .asleep (.tkget 63) })
    let s := { s with pool := { s.pool with waiters := [0] } }
    s.pool.waiters[0]? = some 0 ∧ s.poolChoice = some (0, nodeOf 0 .live) ∧ (s.hart 0).run = .asleep (.tkget 63) ∧
      (∃ s1, s.selfInvalidate ((0x1000, 128) :: (nodeOf 0 .live).ops.map (fun o => (o.base, o.len))) = .done s1) ∧
      s.node 0 = some (nodeOf 0 .live) ∧ 0 ∈ s.readyIds :=
  ⟨⟨rfl, by decide⟩, rfl, by decide +kernel, by decide +kernel, by decide +kernel, swept _ (by decide +kernel),
    by decide +kernel, by decide +kernel⟩

theorem witness_TaskNodes_done :
    let s := pooled [(0, some (nodeOf 0 (.taken 0))), (1, some (nodeOf 1 .live))] [(5, 0), (6, 0x1000000000000)]
    s.Issues 0 [5, 6] ∧ s.node 2 = none ∧ s.node 0 = some (nodeOf 0 (.taken 0)) ∧ s.node 1 = some (nodeOf 1 .live) ∧
      (match s.loadVa 0 (0x1000 + 0x38) 8 2 with
       | .ok e s1 => e == 0 && (s1.releaseRanges 0 [(0x3000, 64)]).isDone
       | _ => false) = true ∧ s.pool.edges.length < 65536 :=
  ⟨⟨rfl, by decide⟩, by decide +kernel⟩

/-- A node with a successor list at 0x4000, of one node, and an edge to the same node. -/
theorem witness_TaskNodes_successors :
    let s := pooled [(0, some (nodeOf 0 (.taken 0))), (1, some (nodeOf 2 .live))] [(5, 0), (6, 0x1000000000000)]
    let s := { s with
      pool := { s.pool with edges := [(0, 1)] }
      home := { s.home with mem := Memory.store (putWords 0x4000 [1, 0x1000000000000] s.home.mem) 0x1038 8 0x4000 } }
    s.node 1 = some (nodeOf 2 .live) ∧
    (match s.loadVa 0 (0x1000 + 0x38) 8 2 with
     | .ok e s1 => e == 0x4000 &&
       (match s1.loadVa 0 0x4000 8 2 with
        | .ok c s2 => c == 1 &&
          (match s2.loadVa 0 (0x4000 + 8 + BitVec.ofNat 64 (8 * 0)) 8 2 with
           | .ok w s3 => wf (BitVec.ofNat 64 w) 48 16 == 1 && (s3.releaseRanges 0 [(0x3000, 64)]).isDone
           | _ => false)
        | _ => false)
     | _ => false) = true ∧ s.node 0 = some (nodeOf 0 (.taken 0)) ∧ (nodeOf 0 (.taken 0)).stage ≠ .live := by decide +kernel

theorem witness_TaskNodes_full : let s := pooled [] []
    65536 ≤ ({ s with pool := { s.pool with edges := List.replicate 65536 (0, 0) } } : State).pool.edges.length := by
  show 65536 ≤ (List.replicate 65536 (0, 0)).length
  exact Nat.le_of_eq List.length_replicate.symm

/-- A translation found. -/
theorem trans_ok (r : TransResult × State) (t : Trans) (h : (match r.1 with | .ok u => u == t | _ => false) = true) :
    ∃ s1, r = (.ok t, s1) := by
  obtain ⟨x, s1⟩ := r
  cases x with
  | ok u => exact ⟨s1, by rw [eq_of_beq h]⟩
  | _ => cases h

theorem witness_TriggerSlots_arm (ms : Bool) : let s := mapped ms [(5, 255), (6, 0x1000)]
    s.Issues 0 [5, 6] ∧ ((s.hart 0).reg 5).toNat ≤ 255 ∧ (s.hart 0).reg 6 ≠ 0 ∧ ((s.hart 0).reg 6).toNat % 8 = 0 ∧
      (s.translate 0 .both 0x1000 = (.ok (place ms 0x1000), s)) ∧ (place ms 0x1000).ms = ms ∧
      (place ms 0x1000).mmio = false ∧ s.homeError (place ms 0x1000).name = none ∧
      s.postedOver 0 (place ms 0x1000).name 8 = false ∧ ((mapped ms [(5, 256)]).hart 0).reg 5 = 256 := by
  cases ms <;> exact ⟨⟨rfl, by decide⟩, by decide +kernel⟩

/-- A page that cannot be written. -/
theorem witness_TriggerSlots_readOnly : let s := mapped true [(5, 255), (6, 0x1000)]
    let s := { s with mmu := { s.mmu with tlb := [{ firstGiB true with leaf := 0x4B }] } }
    s.Issues 0 [5, 6] ∧ (match s.translate 0 .both 0x1000 with | (.fault c _, _) => c == 0x05 | _ => false) = true :=
  ⟨⟨rfl, by decide⟩, by decide +kernel⟩

theorem witness_TriggerSlots_bind_pending : let s := recording 0x10000000040 [(5, 255), (6, 0x1000)]
    let x : Trigger := { armed := none, bound := none, pending := true, delayed := [] }
    let s := { s with pool := { s.pool with triggers := [(255, x)] } }
    (∀ i, i < 16 → (imageAt 2 0x1000 s i).loadVa 0 (0x1000 + BitVec.ofNat 64 (8 * i)) 8 2 =
      .ok (imageWord 2 0x1000 s i) (imageAt 2 0x1000 s (i + 1))) ∧
    recordOk ((List.range 16).map (fun i => BitVec.ofNat 64 (imageWord 2 0x1000 s i))) = true ∧
    ∃ s1, (imageAt 2 0x1000 s 16).cleanRecord 0 0x1000 = .done s1 ∧
      ((s1.trigger 255).pending && (s1.trigger 255).delayed.isEmpty && s1.freeNode == some 0) = true :=
  ⟨image_reads 2 16 0x1000 _ (by decide +kernel), by decide +kernel, met_done _ _ (by decide +kernel)⟩

theorem witness_TriggerSlots_bind : let s := recording 0x10000000040 [(5, 255), (6, 0x1000)]
    (imageAt 2 0x1000 s 0).Issues 0 [5, 6] ∧ ((s.hart 0).reg 5).toNat ≤ 255 ∧ ((s.hart 0).reg 6).toNat % 128 = 0 ∧
    (∀ i, i < 16 → (imageAt 2 0x1000 s i).loadVa 0 (0x1000 + BitVec.ofNat 64 (8 * i)) 8 2 =
      .ok (imageWord 2 0x1000 s i) (imageAt 2 0x1000 s (i + 1))) ∧
    recordOk ((List.range 16).map (fun i => BitVec.ofNat 64 (imageWord 2 0x1000 s i))) = true ∧
    ∃ s1, (imageAt 2 0x1000 s 16).cleanRecord 0 0x1000 = .done s1 ∧ (!(s1.trigger 255).pending) = true :=
  ⟨⟨rfl, by decide⟩, by decide +kernel, by decide +kernel, image_reads 2 16 0x1000 _ (by decide +kernel),
    by decide +kernel, met_done _ _ (by decide +kernel)⟩

/-- A template of the record at 0x1000. -/
def boundRecord : Template := { record := 0x1000, preds := 0, prio := 0, cls := 0, ops := [], cid := 0 }

theorem witness_TriggerSlots_fires (b : Option Template) (h : b = none ∨ b = some boundRecord) :
    let x : Trigger := { armed := some (0x1000, 0, 0), bound := b, pending := false, delayed := [boundRecord] }
    let s := pooled [] []
    let s := { s with pool := { s.pool with triggers := [(255, x)], fired := [(255, 0x1000)] } }
    s.pool.fired.find? (fun f => s.monitorUnit f.2 true == s.monitorUnit 0x1000 true) = some (255, 0x1000) ∧
      (s.trigger 255).armed = some (0x1000, 0, 0) ∧ (s.trigger 255).bound = b ∧
      s.freeNode = some 0 ∧ (s.trigger 255).delayed = boundRecord :: [] := by
  rcases h with rfl | rfl <;> decide +kernel

/-- A graph that copies the primary, binary32, to port 0. -/
def plainGraph : List Nat := List.replicate 16 0 ++ [17 + 0x16 * 32 + 1024, 0, 0, 0]

/-- An image of that graph at 0x1000. -/
def configuring (g : Store 64) : State :=
  { scratchWith [] g with home := { Home.reset with mem := putWords 0x1000 plainGraph [] } }

theorem witness_StreamWords_scfg : let s := configuring [(5, 31), (6, 0x1000)]
    (imageAt 1 0x1000 s 0).Issues 0 [7, 5, 6] ∧ ((imageAt 1 0x1000 s 0).hart 0).pl ≤ 1 ∧ ((s.hart 0).reg 5).toNat = 31 ∧
    ((s.hart 0).reg 6).toNat % 32 = 0 ∧
    (∀ i, i < 20 → (imageAt 1 0x1000 s i).loadVa 0 (0x1000 + BitVec.ofNat 64 (8 * i)) 8 1 =
      .ok (imageWord 1 0x1000 s i) (imageAt 1 0x1000 s (i + 1))) ∧
    (List.range 20).map (fun i => imageWord 1 0x1000 s i) = plainGraph :=
  ⟨⟨rfl, by decide⟩, by decide +kernel, by decide +kernel, by decide +kernel, image_reads 1 20 0x1000 _ (by decide +kernel),
    by decide +kernel⟩

theorem witness_StreamWords_install : let r : ScfgReq := { slot := 31, image := plainGraph.map (BitVec.ofNat 64), hart := 0, dest := 7 }
    let s := scratchWith [] []
    let s := { s with stream := { s.stream with reqs := [r] } }
    s.stream.reqs.find? (fun r => r.slot == (31 : BitVec 5).toNat) = some r ∧ s.graphInUse 31 = false ∧ graphStatus r.image = 0 := by
  decide +kernel

/-- The descriptor of a stream of `len` beats of binary32 from home memory at 0x1000 to local scratch at 0x2000. -/
def streamBlock (len : Nat) : List Nat := [0x1000, 0x2000, 0, 0, 0x5000, 0, len, 0x16 * 2 ^ 18 + 1 * 2 ^ 6]

/-- A core with that descriptor at scratch 0 and the graph in slot 0. -/
def opening (len : Nat) (g : Store 64) : State :=
  let s := scratchWith (streamBlock len) g
  { s with stream := { s.stream with graphs := [(0, some (plainGraph.map (BitVec.ofNat 64)))] } }

theorem witness_StreamWords_open : let s := opening 2 [(5, 0)]
    let g := plainGraph.map (BitVec.ofNat 64)
    let c := s.readStream 0 0
    s.Issues 0 [7, 5] ∧ s.within false 0 64 = true ∧ s.interlocked 1 0 64 false = false ∧ s.arrayTouches 1 0 64 = false ∧
      (wf (c.ctl.zeroExtend 64) 29 3 = 0 ∧ wf (c.ctl.zeroExtend 64) 6 2 ≠ 3 ∧ wf (c.ctl.zeroExtend 64) 23 3 ≠ 7 ∧
        wf (c.ctl.zeroExtend 64) 26 3 ≠ 7) ∧ (∀ r ∈ s.stream.reqs, r.slot ≠ c.graph) ∧ s.graph c.graph = some g ∧
      c.graphBad g = false ∧ c.len ≠ 0 ∧ (imgPort g 1).mode = 0 ∧ c.misaligned g = false ∧ s.streamOutside c g = none ∧
      c.cdone.toNat % 8 = 0 ∧ s.translate 0 .write c.cdone = (.ok (place true 0x5000), s) ∧ (place true 0x5000).ms = true ∧
      s.streamSlot 0 = none ∧ (s.openStream c g 0).isSome = true ∧ (s.hart 0).stores = [] ∧
      ((opening 0 []).readStream 0 0).len = 0 ∧ (scratchWith (streamBlock 2) []).graph c.graph = none :=
  ⟨⟨rfl, by decide⟩, by decide +kernel⟩

/-- No stream slot is free; or a queued array store of this hart to the stream's source has still to run. -/
theorem witness_StreamWords_waits : let s := opening 2 [(5, 0)]
    let g := plainGraph.map (BitVec.ofNat 64)
    let c := s.readStream 0 0
    let t := { s with stream := { s.stream with slots := (List.range 8).map (fun k => (k, some c)) } }
    let q := { s.entryOf 0 (aw .vst 8 5 0 0 0 0) with addrs := [globalAt 0 0x1000 false] }
    let u := { s with core := { s.core with queue := [q] } }
    (∀ k, k < 8 → (t.streamSlot k).isSome = true) ∧ s.storesOver c g = false ∧ u.storesOver c g = true := by decide +kernel

/-- That stream in slot 0, its one unit in this stage, its pages of kind `leaf` in the TLB of the fabric that runs it. -/
def streaming (leaf : TlbEntry) (stage : UnitStage) (src : Word) : State :=
  let s := opening 2 []
  let c := { s.readStream 0 0 with src := src, units := [{ first := 0, beats := 2, stage := stage }] }
  { s with stream := { s.stream with slots := [(0, some c)], tlbs := [((leaf.trans src.toNat).fabric, [leaf])] } }

/-- What is asked of the unit, of its placement `home`, of where it lies and of its run. -/
def unitMeets (s : State) (home : Option (Option Nat)) (g : List Word) (p : Option (Option Nat) → Nat → StreamRun → Bool) : Bool :=
  match s.streamSlot 0 with
  | none => false
  | some c =>
    let c := { c with home := home }
    match c.units[0]?, s.unitHome c g 0 with
    | some x, (.ok (f, pinned), s1) =>
      let e := if c.home = none then { c with home := some (if pinned then some f else none) } else c
      s.unitReady c g 0 x && p e.home f (s1.runUnit e g 0 x f)
    | _, _ => false

/-- A page of a pinned region, and a graph whose port packs its output. -/
def pinnedGiB : TlbEntry := { firstGiB true with leaf := 0x4F + 2 ^ 48 }
def packedGraph : List Nat := List.replicate 16 0 ++ [17 + 0x16 * 32 + 2048, 0, 0, 0]

theorem witness_StreamUnits_runs : let g := plainGraph.map (BitVec.ofNat 64)
    let s := streaming (firstGiB true) .waiting 0x1000
    s.graph 0 = some g ∧ (s.streamSlot 0).isSome = true ∧
      unitMeets s none g (fun h _ r => h == some none && (imgPort g 0).mode != 2 && !r.wait && r.fault.isNone) = true := by
  decide +kernel

theorem witness_StreamUnits_completes : let s := streaming (firstGiB true) .finished 0x1000
    (match s.streamSlot 0 with
     | some c => !c.paused && c.units.all (fun u => u.stage == .finished) &&
       !s.accessOver c.hart c.order { space := 0, dst := true, lo := c.cdone.toNat, hi := c.cdone.toNat + 8 } &&
       c.doneOn.isNone &&
       (match s.engineStore { kind := 3, ptbase := c.ptbase, cid := c.cid, level := c.level, route := .core } c.cdone 0 64 1 with
        | .ok _ _ => true
        | _ => false)
     | none => false) = true := by decide +kernel

theorem witness_StreamUnits_astray : let g := plainGraph.map (BitVec.ofNat 64)
    let q := packedGraph.map (BitVec.ofNat 64)
    unitMeets (streaming (firstGiB true) .waiting 0x1000) none q (fun h _ _ => h == some none && (imgPort q 0).mode == 2) = true ∧
      unitMeets (streaming pinnedGiB .waiting 0x1000) (some (some 200)) g (fun h f _ => h == some (some 200) && f != 200) = true ∧
      unitMeets (streaming pinnedGiB .waiting 0x1000) none g (fun h f r => h == some (some f) && !r.wait && r.fault.isNone) =
        true := by decide +kernel

/-- The second unit of the stream, unit 0's place found (`some`) or refused (`none`). -/
def secondMeets (s : State) (g : List Word) (p : Option (Option Nat) → StreamRun → Bool) : Bool :=
  match s.streamSlot 0 with
  | none => false
  | some c =>
    let c := { c with units := [{ first := 0, beats := 1, stage := .waiting }, { first := 1, beats := 1, stage := .waiting }] }
    let r := s.unitHome c g 0
    let c0 := match r.1 with
      | .ok (f, pinned) => { c with home := some (if pinned then some f else none) }
      | .error _ => c
    match c0.units[1]?, r.2.unitHome c0 g 1 with
    | some x, (.ok (f, _), s1) => r.2.unitReady c0 g 1 x && p c0.home (s1.runUnit c0 g 1 x f)
    | _, _ => false

theorem witness_StreamUnits_second : let g := plainGraph.map (BitVec.ofNat 64)
    let ok (r : StreamRun) : Bool := !r.wait && r.fault.isNone
    let t := streaming { secondGiB with leaf := 0x4F } .waiting 0x3FFFFF80
    let t := { t with stream := { t.stream with
      tlbs := t.stream.tlbs.map (fun e => (e.1, { firstGiB true with leaf := 0x4D } :: e.2)) } }
    secondMeets (streaming (firstGiB true) .waiting 0x1000) g (fun h r => h == some none && ok r) = true ∧
      secondMeets t g (fun h r => h.isNone && ok r) = true := by decide +kernel

theorem witness_StreamUnits_unstored : let s := streaming (firstGiB true) .finished 0x1000
    let s := { s with mmu := { s.mmu with tlb := [{ firstGiB true with leaf := 0x4B }] } }
    (match s.streamSlot 0 with
     | some c =>
       (match s.engineStore { kind := 3, ptbase := c.ptbase, cid := c.cid, level := c.level, route := .core } c.cdone 0 64 1 with
        | .fault cause s1 => s1.canDeposit && !bit s1.mgmt.fmode.toNat 0 && decide (cause < 256)
        | _ => false)
     | none => false) = true := by decide +kernel

theorem witness_FaultReplies_stream :
    let s := streaming (firstGiB true) .finished 0x1000
    let s := { s with stream := { s.stream with slots := s.stream.slots.map (fun e => (e.1, e.2.map (fun c => { c with doneOn := some 0 }))) } }
    let s := replied (depositOf 3 0) 0 s
    (s.outstanding 0).map (fun r => (r.source, r.tag % 8)) = some (3, 0) ∧ (s.streamSlot 0).map (·.doneOn) = some (some 0) ∧
      s.net.replies.zipIdx.find? (fun e => e.1.word == 0 && s.firstReply e.2 e.1) = some (replyOf 0, 0) := by decide +kernel

theorem witness_StreamUnits_faults : let g := plainGraph.map (BitVec.ofNat 64)
    unitMeets (streaming (firstGiB true) .waiting 0x3FFFFF80) none g (fun h _ r => h == some none && !r.wait &&
      (match r.fault with | some f => decide (f.cause < 256) && decide (f.elen < 65536) | none => false) &&
      r.s.canDeposit && !bit r.s.mgmt.fmode.toNat 0) = true := by decide +kernel

/-! #### The device and its host -/

theorem witness_HostQueues :
    let s := { withRegs [] with host := { HostSide.reset with mailbox := Memory.store [] (65536 * 3 + 256 * 255) 8 1, arrivals := [(3, 255)] } }
    (wf 1 0 2 = 1 ∧ (Memory.byte s.host.mailbox (65536 * 3 + 256 * 255)).toNat % 4 = 1) ∧
      (Memory.byte s.host.mailbox (65536 * 2)).toNat % 4 = 0 ∧
      s.host.arrivals.find? (fun e => e.1 == (3 : BitVec 2).toNat) = some (3, 255) ∧ (∀ e ∈ s.host.arrivals, e.1 ≠ 2) ∧
      Store.get s.host.msixOpen 327 = 0 ∧ Store.get [(327, (1 : BitVec 1))] 327 = 1 := by decide +kernel

theorem witness_HostQueues_recovery : (withRegs []).mgmt.recovery = false ∧
    ({ withRegs [] with mgmt := { Management.reset with recovery := true } } : State).mgmt.recovery = true := by decide

/-- A record, a directory event and a log entry, each the first of its queue. -/
def aRecord : FaultRec := { w0 := 1, w1 := 2, w2 := 3, w3 := 4, taken := false }
def anEvent (release : Bool) : DirEvent := { slice := 255, num := 9, release := release, pa := 0x1000, who := partyA, taken := false }

theorem witness_HostQueues_windows : let s := { withRegs [] with
      mmu := { Mmu.reset with queue := [aRecord] }
      host := { HostSide.reset with faultBuf := [{ quadrant := 3, slot := 0, rec_ := aRecord, core := 1 }] }
      dir := { Directory.reset with events := [anEvent false] }
      home := { Home.reset with vlog := [(3, [⟨1, 2, 3, 4⟩])] }
      mgmt := { Management.reset with evlog := [5] } }
    s.mmu.queue.find? (fun r => !r.taken) = some aRecord ∧
      (s.host.faultBuf.find? (fun e => e.quadrant == (3 : BitVec 2).toNat && !e.rec_.taken)).isSome = true ∧
      s.dir.events.find? (fun e => e.slice == (255 : BitVec 8).toNat && !e.taken) = some (anEvent false) ∧
      s.dir.events.find? (fun e => e.slice == (255 : BitVec 8).toNat && e.num.toNat == wf 9 0 12) = some (anEvent false) ∧
      bit 9 12 = false ∧ s.mgmt.dead = [] ∧ Map.get [] s.home.vlog (3 : BitVec 2).toNat = [⟨1, 2, 3, 4⟩] ∧
      s.mgmt.evlog = 5 :: [] ∧ wf 0 48 10 = s.core.coreId.toNat ∧ wf (2 ^ 48) 48 10 ≠ s.core.coreId.toNat := by decide +kernel

/-- The management block in mode `fmode`. -/
def managed (fmode : BitVec 6) : State := { withRegs [] with mgmt := { Management.reset with fmode := fmode } }

theorem witness_Services : let s := managed 8
    s.mgmt.fmode.getLsbD 3 = true ∧ partOk 3 16383 = true ∧ partOk 3 32768 = false ∧ (3, 31) ∉ s.mgmt.map ∧
      (managed 0).mgmt.fmode.getLsbD 3 = false ∧ partOk 3 32 = true ∧ ¬((0 : BitVec 4) = 1 ∧ 32 / 32 = s.core.coreId.toNat) ∧
      ((withRegs []).modHart 0 (fun x => { x with run := .halted })).h0.run = .halted ∧ 0 / 2 = s.core.coreId.toNat ∧
      2048 / 2 ≠ s.core.coreId.toNat := by decide +kernel

/-- The seventh and the eighth error of a unit, in hosted mode. -/
theorem witness_Services_report : let s := managed 8
    let n (k : Nat) : Nat := (List.replicate k (3, 16 * 32 + 1, 0)).countP
      (fun w => w.1 == 3 && w.2.1 == 16 * 32 + 1 && decide (s.ctr.cycle.toNat < w.2.2 + 2 ^ 30)) + 1
    s.mgmt.fmode.getLsbD 3 = true ∧ some 8 = some (n 7) ∧ some 8 ≠ some (n 6) := by decide +kernel

theorem witness_Services_relocation : let s := withScratch []
    let s := { s with mgmt := { s.mgmt with relocating := [s.ownCluster, 127] } }
    s.ownCluster ∈ s.mgmt.relocating ∧ 127 ≠ s.ownCluster ∧ s.hostPort = false ∧ s.ownCluster ∉ s.mgmt.relocated ∧
      s.wf = true ∧ 0 < s.extent true := by decide +kernel

theorem witness_Services_parity : let s := withQueue 4096 8 [] vaddWord
    s.core.queue = s.entryOf 0 vaddWord :: [] ∧ (s.mt 0).state ≠ 1 ∧ Ready s (s.entryOf 0 vaddWord) ∧
      0 ∈ s.usedWays (s.entryOf 0 vaddWord) ∧ vaddWord.op ∈ elementOps ∧ s.core.coreId.toNat < 512 ∧
      ∀ g, (s.ctx (s.entryOf 0 vaddWord)).groupAt 0 15 g = some (4096 * 0 + 256 * 15 + 64 * g) := by
  refine ⟨rfl, by decide +kernel, by unfold Ready; decide +kernel, by decide +kernel, by decide +kernel, by decide +kernel, ?_⟩
  intro g
  exact congrArg (Option.map (fun i => 4096 * i + 256 * 15 + 64 * g))
    (by decide +kernel : (((withQueue 4096 8 [] vaddWord).ctx ((withQueue 4096 8 [] vaddWord).entryOf 0 vaddWord)).ways.findIdx?
      (· == 0)) = some 0)

/-- Whatever row and group of columns the free values name, one of the source's rows fails there. -/
theorem witness_Services_failing : let s := withQueue 4096 8 [] vaddWord
    let c := s.ctx (s.entryOf 0 vaddWord)
    c.rows ≠ [] ∧ 0 ∈ s.restWays (s.entryOf 0 vaddWord) ∧ ∃ lo row, c.failing 0 15 s.free = some (lo, row) := by
  refine ⟨by decide +kernel, by decide +kernel, ?_⟩
  have r := Nat.mod_lt (Config.parityRow (withQueue 4096 8 [] vaddWord).free)
    (by decide +kernel : 0 < ((withQueue 4096 8 [] vaddWord).ctx ((withQueue 4096 8 [] vaddWord).entryOf 0 vaddWord)).rows.length)
  have e := witness_Services_parity.2.2.2.2.2.2 (Config.parityGroup (withQueue 4096 8 [] vaddWord).free % 4)
  simp only [ArrCtx.failing, e, Option.bind_some, List.getElem?_eq_getElem r, Option.map_some]
  exact ⟨_, _, rfl⟩

theorem witness_Services_begins : let s := withQueue 1 8 [] vaddWord
    (match exec (.arrayInstructionBegin 0) s with | .next _ => true | _ => false) = true := by decide +kernel

theorem witness_Services_power : let s := withRegs []
    let m := { Management.reset with below := 9, lowered := [15], islands := [(15, 69)] }
    let t := { withRegs [] with mgmt := m }
    (∀ k, k < 16 → s.xratio k ≤ s.mgmt.fmaxr.toNat) ∧ s.mgmt.plim.toNat < (0xFFFF : BitVec 16).toNat ∧ 36 < s.xratio 15 ∧
      (∀ k, k < 16 → t.xratio k ≤ t.mgmt.fmaxr.toNat) ∧ 100 * (2849 : BitVec 16).toNat < 95 * t.mgmt.plim.toNat ∧
      9 ≤ t.mgmt.below ∧ t.mgmt.lowered.head? = some 15 ∧ t.xratio 15 < t.mgmt.fmaxr.toNat ∧
      (let u := { withRegs [] with mgmt := { Management.reset with fmaxr := 36 } }
       u.mgmt.fmaxr.toNat < u.xratio 3 ∧ 36 < u.xratio 3) ∧
      (5 : Nat) ∉ s.mgmt.relocating ∧ 5 ∈ ({ m with relocating := [5] } : Management).relocating := by decide +kernel

/-- A codec of which 65536 halfwords have been sampled, two of them once each. -/
def sampled (learn : Bool) : Codec :=
  { Codec.new with learn := learn, samples := [(3, 1), (65535, 1)], taken := 65536, resampling := !learn }

/-- The machine with that codec at position 11. -/
def coding (c : Codec) (fmode : BitVec 6) : State :=
  { managed fmode with home := { Home.reset with codecs := [(11, c)] } }

theorem witness_Codecs : let s := coding (sampled true) 0
    let t := coding (sampled false) 4
    ((s.codec 11).learn = true ∧ 65536 ≤ (s.codec 11).taken ∧ Store.wf (s.codec 11).samples = true ∧
      (∀ e ∈ (s.codec 11).samples, e.1 < 65536)) ∧
    ((t.codec 11).learn = false ∧ (t.codec 11).resampling = true ∧ (t.codec 11).install ≠ 1 ∧ (t.codec 11).asked = false ∧
      t.mgmt.fmode.getLsbD 2 = true ∧ (Store.get (t.codec 11).counts 1).toNat = 0) := by decide +kernel

theorem witness_Codecs_rounds :
    let u := coding (sampled false) 0
    let v := coding { sampled true with learn := false } 4
    let w := coding { Codec.new with learn := false, install := 1 } 4
    let x := coding { Codec.new with learn := false, exhausted := true, counts := [(1, 1)] } 0
    ((u.codec 11).install ≠ 1 ∧ (u.codec 11).resampling = true ∧ 65536 ≤ (u.codec 11).taken ∧
      (Store.get (u.codec 11).counts (((u.codec 11).newest.toNat + 1) % 4)).toNat = 0 ∧ u.mgmt.fmode.getLsbD 2 = false ∧
      (u.codec 11).asked = false) ∧
    ((v.codec 11).install ≠ 1 ∧ v.mgmt.fmode.getLsbD 2 = true ∧ (v.codec 11).learn = false ∧ (v.codec 11).resampling = false ∧
      (v.codec 11).asked = false ∧ (v.codec 11).exhausted = false ∧ 65536 ≤ (v.codec 11).taken) ∧
    ((w.codec 11).install = 1 ∧ (Store.get (w.codec 11).counts (((w.codec 11).newest.toNat + 1) % 4)).toNat = 0) ∧
    (x.codec 11).exhausted = true := by decide +kernel

theorem witness_Codecs_starts : let c : Codec := { Codec.new with learn := false }
    c.learn = false ∧ c.resampling = false ∧ c.asked = false ∧ (managed 0).mgmt.fmode.getLsbD 2 = false ∧
      c.exhausted = false := by decide +kernel

theorem witness_Codecs_window : 16384 < ({ Codec.new with window := List.replicate 16385 true } : Codec).window.countP id ∧
    Codec.new.window.countP id ≤ 16384 := by
  refine ⟨?_, by decide⟩
  show 16384 < (List.replicate 16385 true).countP id
  rw [List.countP_replicate]
  decide

/-- A compressed frame with superblock 15 under generation 1 (the oldest), which its codec counts. -/
def scrubbed (base : Nat) (exhausted : Bool) : State :=
  let fr : Frame := { base := base, cmp := 1, moved := false, size := [], gen := [(15, 1)] }
  let c := { Codec.new with newest := 0, learn := false, counts := [(1, 1)], exhausted := exhausted, install := 1 }
  { managed 0 with home := { Home.reset with frames := [(0, some fr)], codecs := [(unitCodec (unitOf 0), c)] } }

theorem witness_Codecs_scrub : let s := scrubbed 0 false
    let k := unitCodec (unitOf 0)
    k < 12 ∧ (match (s.codecFrames k).find? (fun e => e.1 == 0) with
     | some e =>
       (Store.get e.2.gen 15).toNat == ((s.codec k).newest.toNat + 1) % 4 &&
         (s.codec k).overflow.isEmpty && !e.2.moved &&
         e.2.fits 15 (sizeCode (s.codec k) (s.codec k).newest.toNat (s.storedMem (2 ^ 48 + 0 * 4096 + 256 * 15))
           (2 ^ 48 + 0 * 4096 + 256 * 15))
     | none => false) = true ∧ (Store.get (s.codec k).counts 1).toNat ≠ 0 ∧ (s.codec k).exhausted = false ∧
      ({ s with home := { s.home with frames := [] } }).scrubLeft k = false := by decide +kernel

theorem witness_HostWrites : let s := withRegs []
    let t := { withRegs [] with mgmt := { Management.reset with started := true } }
    let u := { withRegs [] with mgmt := { Management.reset with recovery := true } }
    s.mgmt.started = false ∧ t.mgmt.started = true ∧ s.mgmt.recovery = false ∧ u.mgmt.recovery = true ∧
      s.homeError (s.mgmt.loadAddr.toNat + 8 * 1048575) = none ∧
      Map.get none s.home.frames (frameOf (s.mgmt.loadAddr.toNat + 8 * 1048575)).1 = none ∧
      (s.llcStored (s.mgmt.loadAddr.toNat + 8 * 1048575)).isSome = true := by decide +kernel

/-- An image of one code page: 8192 bytes loaded, its header at 0 and its code at 4096. -/
def loadedImage (magic : Nat) : State :=
  { State.reset with
    home := { Home.reset with
      mem := putWords 0 [magic + 2 ^ 32 + 2 ^ 48, 0, 0x400000, 0, 8192, 0, 0, 0, 1, 4096, 4096, 0x400000] [] }
    mgmt := { Management.reset with loaded := 8192 } }

theorem witness_BringUp : (loadedImage 0x4A424F44).image.ok 8192 = true ∧ (loadedImage 0).image.ok 8192 = false ∧
    (loadedImage 0x4A424F44).mgmt.started = false ∧ (loadedImage 0x4A424F44).mgmt.recovery = false ∧
    (loadedImage 0x4A424F44).leaving 2 0 = false ∧
    ({ loadedImage 0x4A424F44 with mgmt := { Management.reset with loaded := 8192, dead := [(2, 0)] } }).leaving 2 0 = true ∧
    State.reset.mgmt.resident = [] ∧ (loadedImage 0x4A424F44).relocated = false := by decide +kernel

/-- Hart 0 in firmware for the service in g5, with its operands. -/
def called (g : Store 64) (m : Memory) : State :=
  let s := (mapped true g).modHart 0 (fun x => { x with
    pc := firmwarePc, csr := { x.csr with cause := 0x12, status := 0x84 } })
  { s with home := { Home.reset with mem := m }, h1 := { s.h1 with run := .halted } }

theorem witness_ContextServices (g : Store 64) (m : Memory) : (called g m).firmwareCall 0 = true := by
  have r : ((called g m).hart 0).run = .running := rfl
  have c : ((called g m).hart 0).csr.cause = 0x12 := rfl
  have l : ((called g m).hart 0).csr.status = 0x84 := rfl
  have p : ((called g m).hart 0).pc = firmwarePc := rfl
  simp only [State.firmwareCall, Hart.pl, Hart.ppl, r, c, l, p, beq_self_eq_true, Bool.and_true]
  decide

theorem witness_ContextServices_save : let s := called [(5, 0x10), (6, 0x10000)] []
    ((s.hart 0).reg 5 = 0x10 ∧ (s.hart (other 0)).stopped = true ∧ s.quiet = true ∧
      ((s.hart 0).reg 6).toNat % 4096 = 0) ∧
    (∀ r ∈ [5, 6, 7, 8], (s.hart 0).isPending r = false) ∧ (s.hart 0).reg 7 = 0 ∧ s.net.spill = none ∧
    (match s.settleAll.bind (fun s => s.overLines (fun _ => true) State.cleanLine) with
     | some s1 =>
       (match s1.loadWords (s1.firmwareId 0) (0x10000 + 0x20) 2 [] with
        | (.ok _ s2, ms) => s2.net.spill.isNone &&
          (match s2.spillWords (s1.firmwareId 0) 0x10000 (s2.container 0 [] false (ms.getD 0 0) (ms.getD 1 0) [0, 0]) with
           | .ok _ s3 => !s3.leaving 2 s3.core.coreId.toNat
           | _ => false)
        | _ => false)
     | none => false) = true := by decide +kernel

/-- Without a registry (g7 = 0) there is none to read; without a spill area there is no list of replies. -/
theorem witness_ContextServices_registry (e : EngineId) (n : Word) (s s0 : State) (k : List RegEntry → State → Result) :
    s.registry e 0 n s0 k = k [] s := by simp [State.registry]

theorem witness_ContextServices_replies (s s0 : State) (h : s.net.spill = none) (k : List Nat → State → Result) :
    replySection s [] s0 k = k [0, 0] s := by simp [replySection, h]

theorem witness_ContextServices_pending :
    ∃ r ∈ [5, 6, 7, 8], (((called [] []).modHart 0 (fun x => { x with pending := 0x20 })).hart 0).isPending r = true := by
  decide

/-- A container without sections, at 0x10000. -/
def contained : Memory := putWords 0x10000 [0x584D4F43 + 1 * 2 ^ 32, 0, 1, 256] []

theorem witness_ContextServices_restore : let s := called [(5, 0x11), (6, 0x10000)] contained
    ((s.hart 0).reg 5 = 0x11 ∧ s.quiet = true ∧ ((s.hart 0).reg 6).toNat % 4096 = 0) ∧
    (match s.loadWords (s.firmwareId 0) 0x10000 4 [] with
     | (.ok _ s1, hd) =>
       hd.getD 0 0 % 2 ^ 32 == 0x584D4F43 && decide (256 ≤ hd.getD 3 0) &&
       (match s1.loadWords (s.firmwareId 0) 0x10000 (hd.getD 3 0 / 8) [] with
        | (.ok _ s2, ws) => s2.restoreStatus [] ws == 0 && (s2.restored [] ws).isDone
        | _ => false)
     | _ => false) = true := by decide +kernel

theorem witness_ContextServices_container : let s := withRegs [(5, 3)]
    s.net.spill = none ∧
      (s.restored [] (s.container 0 [] false 0 0 [0, 0])).isDone = true := by
  decide +kernel

/-! #### Runs -/

theorem witness_DecodeEncode : wellFormed (.addi 63 63 0xFFF) = true ∧ isEvent (.addi 63 63 0xFFF) = false := by
  decide +kernel

theorem witness_StepRunsDecoded : let s := mapped true []
    let s := { s with home := { Home.reset with mem := Memory.store [] 0 4 0x10480012 } }
    let u := { s.tick with agenda := [], bg := true }
    let v := ({ u with turn := other 0, cur := .hart 0 }).modHart 0 (fun x => { x with stalled := none })
    (s.agenda = [] ∧ s.bg = false) ∧ (0 : BitVec 1) = (if u.acts u.turn then u.turn else other u.turn) ∧ u.acts 0 = true ∧
      v.asyncNext 0 false = none ∧ (v.hart 0).issues = true ∧ (v.hart 0).fmt = none ∧ (v.hart 0).jumped = false ∧
      (match v.meet 0 with | .word w _ => w == 0x10480012 | _ => false) = true := by decide +kernel

theorem witness_StepRunsDecoded_skipped : let s := (mapped true []).modHart 0 (fun x => { x with pc := 4, jumped := true })
    let s := { s with home := { Home.reset with mem := Memory.store (Memory.store [] 0 4 0x68000000) 4 4 0x10480012 } }
    let u := { s.tick with agenda := [], bg := true }
    let v := ({ u with turn := other 0, cur := .hart 0 }).modHart 0 (fun x => { x with stalled := none })
    v.asyncNext 0 false = none ∧ (v.hart 0).issues = true ∧ decode 0x10480012 = some (.addi 9 0 18) ∧
      (match v.meet 0 with
       | .skipped w s1 => w == 0x10480012 && (match exec (.addi 9 0 18) s1 with | .next _ => true | _ => false)
       | _ => false) = true := by decide +kernel

/-- A hart at level 1 is not in
a service. -/
theorem witness_StepRunsDecoded_level : let s := atLevel 1 []
    s.firmwareCall 0 = false := by
  simp only [State.firmwareCall]
  rw [Bool.and_eq_false_imp]
  intro h
  exact absurd h (by decide +kernel)

theorem witness_StepRunsDecoded_agenda : isEvent (.sleepWake 0) = true ∧
    ((withRegs []).modHart 0 (fun x => { x with pending := 0x20 })).cur = .hart 0 ∧
    (((withRegs []).modHart 0 (fun x => { x with pending := 0x20 })).hart 0).isPending 5 = true := by decide +kernel

theorem witness_PcStaysAligned : State.reset.PcAligned := by
  intro h
  have e : State.reset.hart h = Hart.reset h := by
    unfold State.hart
    split <;> rename_i k
    · rw [k]; rfl
    · rw [show h = 1 by revert k; revert h; decide]; rfl
  rw [e]
  exact ⟨rfl, rfl, rfl⟩

theorem witness_MemoryStaysCanonical : Memory.wf (recording 0 []).home.mem = true := by decide +kernel

/-! ### Examples of the spec -/

/-- The value that hart 0 is to receive from an instruction. -/
def received (i : Instr) (s : State) : Option (Word × BitVec 6) :=
  match exec i s with
  | .next t => (t.hart 0).late.head?.map (fun e => (e.val, e.flags))
  | _ => none

/-- The example behind R125 of chapter 05: the results of the division instructions. -/
theorem test_division :
    received (.div 7 5 6) (withRegs [(5, -7), (6, 2)]) = some (-3, 0) ∧
    received (.rem 7 5 6) (withRegs [(5, -7), (6, 2)]) = some (-1, 0) ∧
    received (.div 7 5 6) (withRegs [(5, 7), (6, -2)]) = some (-3, 0) ∧
    received (.rem 7 5 6) (withRegs [(5, 7), (6, -2)]) = some (1, 0) ∧
    received (.div 7 5 6) (withRegs [(5, 7)]) = some (0xFFFFFFFFFFFFFFFF, 0) ∧
    received (.rem 7 5 6) (withRegs [(5, 7)]) = some (7, 0) ∧
    received (.divn 7 5 6) (withRegs [(5, 7)]) = some (0xFFFFFFFFFFFFFFFF, 0) ∧
    received (.div 7 5 6) (withRegs [(5, 0x8000000000000000), (6, 0xFFFFFFFFFFFFFFFF)]) = some (0x8000000000000000, 0) ∧
    received (.rem 7 5 6) (withRegs [(5, 0x8000000000000000), (6, 0xFFFFFFFFFFFFFFFF)]) = some (0, 0) := by
  decide +kernel

/-- The example of FMA against FMUL then FADD in chapter 05. -/
theorem test_fma :
    received (.fmul 15 13 14) (withRegs [(13, 0x3F800800), (14, 0x3F800800)]) = some (0x3F801000, 0x10) ∧
    received (.fadd 16 15 12) (withRegs [(12, 0xBF801000), (15, 0x3F801000)]) = some (0, 0) ∧
    received (.fma 12 13 14) (withRegs [(12, 0xBF801000), (13, 0x3F800800), (14, 0x3F800800)]) = some (0x33800000, 0) := by
  decide +kernel

/-- The context of a word of way 0 that the tests of element functions use. -/
def contextOf (op : ArrOp) (t : Nat) : ArrCtx :=
  let s := withArray 16 t []
  s.ctx (s.entryOf 0 (aw op 8 16 24 0 0 0))

/-- The example of VADDS on s4 in chapter 08: 7 + 3, −8 − 1, 5 + 2 and −3 − 4. -/
theorem test_vadds :
    let f (x y : Nat) := elemFn (contextOf .vadds 0) 0 none x y 0
    f 7 3 = (7, 0x20) ∧ f 8 15 = (8, 0x20) ∧ f 5 2 = (7, 0) ∧ f 13 12 = (9, 0) := by decide +kernel

/-- The example of R194: BOOLT = 0xCA selects as1 where old ad is 1 and as2 where it is 0. -/
theorem test_vbool : let c := { contextOf .vbool 4 with boolt := 0xCA }
    (elemFn c 0 none 0b0011 0b0101 0b1100).1 % 16 = 0b0001 := by decide +kernel

/-- The example of two results in e2m1 of chapter 02: VEXP2 of 0.5, VLOG2 of 6 and of −1. -/
theorem test_e2m1 :
    elemFn (contextOf .vexp2 0x10) 0 none 1 0 0 = (3, 0x10) ∧ elemFn (contextOf .vlog2 0x10) 0 none 7 0 0 = (5, 0x10) ∧
    elemFn (contextOf .vlog2 0x10) 0 none 10 0 0 = (7, 0x01) := by decide +kernel

/-- The example of the heat generator of R456: eight steps from SEED 0xACE1. -/
theorem test_heat_generator :
    (List.range 8).map (fun k => (List.range (k + 1)).foldl (fun x _ => lfsrStep x) 0xACE1) =
      [0xE270, 0x7138, 0x389C, 0x1C4E, 0x0E27, 0xB313, 0xED89, 0xC2C4] := by decide +kernel

/-- The example of R388: a request into slot 12, then one into slot 3: NEXT reads 12, and 3 after it. -/
theorem test_mailbox_order :
    (match exec (.mailboxRequest 0 12 0x5100000001) State.reset with
     | .next s =>
       (match exec (.mailboxRequest 0 3 1) s with
        | .next t => ((t.mailboxNext 0).1, ((t.mailboxNext 0).2.mailboxNext 0).1)
        | _ => (0, 0))
     | _ => (0, 0)) = (12, 3) := by decide +kernel

/-- Table 25-8, R483: the rows of the table; 71 lies 200/14 mV above 550 mV, to the nearest 5 mV. -/
theorem test_supply : ([36, 70, 71, 84].map (fun x => (State.reset.setXratio 5 x).supply 5)) = [450, 550, 565, 750] := by
  decide

/-- The example of R484: POWER above PLIM with island 9 the hottest lowers it from 70 to 69. -/
theorem test_power : (match exec (.powerComparison 3040 (List.replicate 9 100 ++ [140] ++ List.replicate 6 100)) State.reset with
    | .next t => (t.xratio 9, t.xratio 4)
    | _ => (0, 0)) = (69, 70) := by decide +kernel

/-- The example of R270: with lower ways 4 and 5 as scratch, offset 0x4_1234 lies in way 5, row 9, subarray 1, at columns
160 to 167. -/
theorem test_scratch_place :
    let s := { withRegs [] with core := { CoreState.reset with wayrole := 0x500 } }
    s.extent false = 0x80000 ∧ s.scratchKey false 0x41234 = 5 * 262144 + 4660 ∧
      rowBit (Memory.setByte [] (s.scratchKey false 0x41234) 0xFF) 5 9 (256 + 160) = true ∧
      rowBit (Memory.setByte [] (s.scratchKey false 0x41234) 0xFF) 5 9 (256 + 167) = true ∧
      rowBit (Memory.setByte [] (s.scratchKey false 0x41234) 0xFF) 5 9 (256 + 168) = false := by decide +kernel

/-- The example of R347: the promise of a copy of 32 rows of 256 bf16 elements at tick 10,000. -/
theorem test_promise :
    let c : CopyCmd := { src := 0x3000000000, dst := 0x8000, sstride := 512, dstride := 512, rows := 32, cols := 256,
                         vrows := 32, vcols := 256, ctl := 0 + 4 + 0x14 * 16 + 0x14 * 512, scale := 0, fill := 0 }
    c.promise 70 10000 0 16384 = (10456, 11013) := by decide +kernel

/-! ### The words that the bits alone make ill-formed -/

/-- A term that breaks each condition of WellFormed.lean is refused, with its neighbour that holds (R60, R69, R70, R202). -/
theorem test_ill_formed :
    (wellFormed (.add 64 5 6) = false ∧ wellFormed (.add 5 64 6) = false ∧ wellFormed (.add 5 6 127) = false ∧
      wellFormed (.add 63 63 63) = true) ∧
    (wellFormed (.fence 6 0 0) = false ∧ wellFormed (.fence 5 0 0) = true) ∧
    (wellFormed (.vkwrite 5 6 0 0) = false ∧ wellFormed (.vkwrite 6 6 0 0) = true) ∧
    (wellFormed (.vld 8 5 3) = false ∧ wellFormed (.vld 8 64 0) = false ∧ wellFormed (.vld 127 5 2) = true) ∧
    (wellFormed (.vstr 5 8 8 3) = false ∧ wellFormed (.vstr 5 8 8 1) = true) ∧
    (wellFormed (.powerComparison 1 (List.replicate 15 1)) = false ∧
      wellFormed (.powerComparison 1 (List.replicate 16 1)) = true) := by decide +kernel

/-- The decoder refuses their words. -/
theorem test_ill_formed_words :
    decode (encode (.add 64 5 6)) = none ∧ decode (encode (.fence 6 0 0)) = none ∧ decode (encode (.vkwrite 5 6 0 0)) = none ∧
    decode (encode (.vld 8 5 3)) = none ∧ decode (encode (.vstr 5 8 8 3)) = none ∧ decode 0 = none := by decide +kernel

/-! ### The host's two functions -/

/-- A word is decoded from its four bytes, and stored where the next step fetches; VADD there is what the step runs. -/
theorem test_fetch_word : decodeTableWord 32 0x10480012 = some (.addi 9 0 18) ∧
    (match step (State.reset.withFetchWord 32 0x10480012) with
     | .next t => (t.h0.reg 9, t.h0.pc)
     | _ => (0, 0)) = (18, 4) := by decide +kernel

theorem test_reset_wf : State.reset.wf = true := by decide

end Sys2Proof.Tests
end

section
/-! # The faults of scalar memory words (R101, R102, R140, R315, R316)

What writing the fault CSRs, parking and a precise fault leave of the machine, and the statement about them. -/

namespace Sys2Proof.Machine

/-! ### FINFO (Table 06-5) -/

/-- The direction, the size and the kind of an access read back from FINFO. -/
theorem wf_finfo (src esize kind fidx : Nat) (wr : Bool) :
    wf (finfo src wr esize kind fidx) 28 1 = b2n wr ∧ wf (finfo src wr esize kind fidx) 25 3 = esize % 8 ∧
      wf (finfo src wr esize kind fidx) 20 5 = kind % 32 := by
  have hw : b2n wr < 2 := by cases wr <;> decide
  simp only [wf, bits, finfo, word, BitVec.toNat_ofNat]
  omega

/-- The size field of a scalar access gives its size back. -/
theorem two_pow_lg {n : Nat} (hn : n ∈ [1, 2, 4, 8]) : 2 ^ (lg n % 8) = n := by
  revert n; decide

/-! ### The fault CSRs written -/

/-- A hart with its fault CSRs written (R140). -/
def Hart.withFault (x : Hart) (faddr finfo fstride fremain : Word) : Hart :=
  { x with csr := { x.csr with faddr := faddr, finfo := finfo, fstride := fstride, fremain := fremain } }

/-- The state with the fault CSRs written as a precise fault of a hart's instruction writes them: a bus error carries the
core as its source (R140). -/
def State.faulted (s : State) (h : BitVec 1) (cause : Nat) (va : Word) (kind : Nat) (wr : Bool) (size idx : Nat)
    (stride remain : Word) : State :=
  s.faultCsrs h va (finfo (if cause = 0x11 then s.core.coreId.toNat else 0) wr size kind idx) stride remain

theorem State.faulted_eq (s : State) (h : BitVec 1) (cause : Nat) (va : Word) (kind : Nat) (wr : Bool) (size idx : Nat)
    (stride remain : Word) :
    s.faulted h cause va kind wr size idx stride remain = s.setHart h ((s.hart h).withFault va
      (finfo (if cause = 0x11 then s.core.coreId.toNat else 0) wr size kind idx) stride remain) := rfl

/-- What only changes a hart, from a state in which that hart alone had changed, changes only that hart. -/
theorem State.OnlyHart.of_setHart {s t : State} {h : BitVec 1} {x : Hart} (k : (s.setHart h x).OnlyHart h t) :
    s.OnlyHart h t := by
  unfold State.OnlyHart at k ⊢
  rwa [State.setHart_setHart, State.setHart_core] at k

/-- A trap neither reads nor keeps the fault CSRs, so a hart has entered it whether or not they were written first. -/
theorem Hart.Entered.of_withFault {x y : Hart} {va fi st rm : Word} {cause detail : Nat}
    (k : (x.withFault va fi st rm).Entered cause detail y) : x.Entered cause detail y := k

/-- A trap taken for a precise fault (R140, R144). -/
theorem State.faulted_trapAt_spec (s : State) (h : BitVec 1) {cause : Nat} (va : Word) (kind : Nat) (wr : Bool)
    (size idx : Nat) (stride remain : Word) (hc : cause < 256) :
    let t := (s.faulted h cause va kind wr size idx stride remain).trapAt h cause 0
    s.OnlyHart h t ∧ (s.hart h).Entered cause 0 (t.hart h) ∧ (t.hart h).csr.faddr = va ∧
      (t.hart h).csr.finfo = finfo (if cause = 0x11 then s.core.coreId.toNat else 0) wr size kind idx ∧
      (t.hart h).csr.fstride = stride ∧ (t.hart h).csr.fremain = remain := by
  obtain ⟨only, entered, kept⟩ :=
    (s.faulted h cause va kind wr size idx stride remain).trapAt_spec h cause 0 hc (by decide)
  rw [State.faulted_eq] at only
  rw [State.faulted_eq, State.hart_setHart] at entered kept
  exact ⟨only.of_setHart, entered.of_withFault, kept⟩

/-! ### Parking (R101) -/

/-- The bits of a pending FMT are saved in PFX, and STATUS.PP tells whether there are any (R80). -/
theorem State.savePrefix_eq (s : State) (h : BitVec 1) (p : Option (BitVec 26)) :
    s.savePrefix h p = s.modCsr h (fun c =>
      { c with status := wset c.status 6 1 (b2n p.isSome), pfx := (p.map (·.zeroExtend 64)).getD c.pfx }) := by
  cases p <;> rfl

/-- A hart that has parked on a fault: EPC, CAUSE and a pending FMT are saved; its PC and the rest of STATUS stay. -/
def Hart.parkedOn (x : Hart) (cause : Nat) (r : Option (BitVec 16)) : Hart :=
  let p := x.fmt.map (·.bits)
  { x with
    csr := { x.csr with
      epc := x.pc, cause := word cause
      pfx := (p.map (·.zeroExtend 64)).getD x.csr.pfx
      status := wset x.csr.status 6 1 (b2n p.isSome) }
    run := .parked r, fmt := none, jumped := false, waits := none, stalled := none }

/-- Parking changes nothing but the hart. -/
theorem State.park_eq (s : State) (h : BitVec 1) (cause : Nat) (r : Option (BitVec 16)) :
    s.park h cause r = s.setHart h ((s.hart h).parkedOn cause r) := by
  simp only [State.park, State.savePrefix_eq, State.modCsr, State.modHart, State.hart_setHart, State.setHart_setHart,
    Hart.parkedOn]

/-- A parked hart keeps its level and its interrupt enable (R101). -/
@[simp] theorem Hart.pl_parkedOn (x : Hart) (cause : Nat) (r : Option (BitVec 16)) : (x.parkedOn cause r).pl = x.pl :=
  wf_wset_apart _ _ _ _ _ _ (by decide) (by decide)

@[simp] theorem Hart.ieOn_parkedOn (x : Hart) (cause : Nat) (r : Option (BitVec 16)) :
    (x.parkedOn cause r).ieOn = x.ieOn :=
  bit_wset_apart _ _ _ _ _ (by decide) (by decide)

/-- Telling a hart that its peer has parked (Table 06-3, PARKED-peer). -/
@[simp] theorem State.hart_setStatus (s : State) (h : BitVec 1) (lo n v : Nat) :
    (s.setStatus h lo n v).hart h =
      { s.hart h with csr := { (s.hart h).csr with status := wset (s.hart h).csr.status lo n v } } := by
  simp [State.setStatus]

@[simp] theorem State.hart_setStatus_other (s : State) (h : BitVec 1) (lo n v : Nat) :
    (s.setStatus (other h) lo n v).hart h = s.hart h := by
  rw [State.setStatus, State.modCsr, State.modHart, State.hart_setHart_of_ne _ _ (ne_other h)]

/-! ### A precise fault (R101, R102) -/

theorem parkable_of_mem {cause : Nat} (hc : cause ∈ [0x04, 0x05, 0x06, 0x10]) : parkable cause = true := by
  revert cause; decide

/-- A parkable cause is one of CAUSE's eight bits. -/
theorem lt_of_parkable {cause : Nat} (hp : parkable cause = true) : cause < 256 := by
  simp only [parkable, Bool.or_eq_true, beq_iff_eq] at hp
  omega

section
variable {s : State} {h : BitVec 1} {cause : Nat} {va : Word} {kind : Nat} {wr : Bool} {size idx : Nat}
  {stride remain : Word}

/-- A fault that is not parkable is an ordinary trap. -/
theorem State.hartFault_of_not_parkable (hp : parkable cause = false) :
    s.hartFault h cause va kind wr size idx stride remain =
      .next ((s.faulted h cause va kind wr size idx stride remain).trapAt h cause 0) := by
  simp only [State.hartFault, hp, Bool.not_false, if_true, State.faulted]

variable (hp : parkable cause = true) (hf : bit s.mgmt.fmode.toNat 0 = false)
include hp hf

/-- A parkable fault whose hart the other one can serve parks the hart and tells the other. -/
theorem State.hartFault_of_canServe (hs : s.canServe h = true) :
    s.hartFault h cause va kind wr size idx stride remain =
      .next (((s.faulted h cause va kind wr size idx stride remain).park h cause none).setStatus (other h) 9 1 1) := by
  simp only [State.hartFault, hp, hf, hs, Bool.not_true, Bool.false_eq_true, if_true, if_false, State.faulted]

/-- A parkable fault whose hart the other one cannot serve is an ordinary trap. -/
theorem State.hartFault_of_not_canServe (hs : s.canServe h = false) :
    s.hartFault h cause va kind wr size idx stride remain =
      .next ((s.faulted h cause va kind wr size idx stride remain).trapAt h cause 0) := by
  simp only [State.hartFault, hp, hf, hs, Bool.not_true, Bool.false_eq_true, if_false, State.faulted]

end

/-- R102: a hart that is parked or halted, or that has a parked peer to serve already, cannot serve. -/
theorem State.canServe_eq_false {s : State} {h : BitVec 1}
    (k : (∃ r, (s.hart (other h)).run = .parked r) ∨ (s.hart (other h)).run = .halted ∨
      (s.hart (other h)).parkedPeer = true) : s.canServe h = false := by
  rcases k with ⟨r, e⟩ | e | e
  · simp only [State.canServe, Hart.stopped, e]; rfl
  · simp only [State.canServe, Hart.stopped, e]; rfl
  · simp only [State.canServe, e, Bool.not_true, Bool.and_false, Bool.false_and]

/-- A hart that has entered a trap runs. -/
theorem Hart.Entered.run {x y : Hart} {cause detail : Nat} (k : x.Entered cause detail y) : y.run = .running := by
  obtain ⟨-, -, -, -, -, -, -, -, -, -, -, e⟩ := k
  rw [e]

/-! ### Misaligned scalar accesses (R315, R316) -/

theorem exec_of_mem_loadTable {d a : BitVec 7} {i : BitVec 9} {e : Instr × Nat × (Nat → Word)}
    (he : e ∈ loadTable d a i) :
    e.2.1 ∈ [1, 2, 4, 8] ∧ ∃ signed, ∀ s, exec e.1 s = loadOp d a i e.2.1 signed s := by
  simp only [loadTable, List.mem_cons, List.not_mem_nil, or_false] at he
  rcases he with rfl | rfl | rfl | rfl | rfl | rfl | rfl <;> exact ⟨by simp, _, fun _ => rfl⟩

theorem exec_of_mem_storeTable {d a : BitVec 7} {i : BitVec 9} {e : Instr × Nat} (he : e ∈ storeTable d a i) :
    e.2 ∈ [1, 2, 4, 8] ∧ ∀ s, exec e.1 s = storeOp d a i e.2 s := by
  simp only [storeTable, List.mem_cons, List.not_mem_nil, or_false] at he
  rcases he with rfl | rfl | rfl | rfl <;> exact ⟨by simp, fun _ => rfl⟩

theorem State.loadVa_misaligned {s : State} {h : BitVec 1} {va : Word} {n kind : Nat} (hm : va.toNat % n ≠ 0) :
    s.loadVa h va n kind = .fault (s.scalarFault h 0x03 va kind false n) := by
  simp only [State.loadVa, if_pos hm]

theorem State.storeVa_misaligned {s : State} {h : BitVec 1} {va : Word} {n v kind : Nat} (hm : va.toNat % n ≠ 0) :
    s.storeVa h va n v kind = .fault (s.scalarFault h 0x03 va kind true n) := by
  simp only [State.storeVa, if_pos hm]

section
variable {s : State} {h : BitVec 1} {d a : BitVec 7} {i : BitVec 9} {n : Nat} (k : s.Issues h [d, a])
  (hm : (lAddr ((s.hart h).reg a.toNat) i n).toNat % n ≠ 0)
include k hm

theorem loadOp_misaligned (signed : Bool) :
    loadOp d a i n signed s = s.scalarFault h 0x03 (lAddr ((s.hart h).reg a.toNat) i n) 1 false n := by
  rw [loadOp, issue_of_issues k (fun _ m => m), State.loadVa_misaligned hm, Got.andThen]

theorem storeOp_misaligned :
    storeOp d a i n s = s.scalarFault h 0x03 (lAddr ((s.hart h).reg a.toNat) i n) 1 true n := by
  rw [storeOp, issue_of_issues k (fun _ m => m), State.storeVa_misaligned hm, Got.andThen]

end

/-- A misaligned scalar load or store raises the scalar fault 0x03 with its own address, size and direction. -/
theorem exec_misaligned {s : State} {h : BitVec 1} {d a : BitVec 7} {i : BitVec 9} (k : s.Issues h [d, a])
    {e : Instr × Nat × Bool}
    (he : e ∈ (loadTable d a i).map (fun e => (e.1, e.2.1, false)) ++ (storeTable d a i).map (fun e => (e.1, e.2, true)))
    (hm : (lAddr ((s.hart h).reg a.toNat) i e.2.1).toNat % e.2.1 ≠ 0) :
    e.2.1 ∈ [1, 2, 4, 8] ∧
      exec e.1 s = s.scalarFault h 0x03 (lAddr ((s.hart h).reg a.toNat) i e.2.1) 1 e.2.2 e.2.1 := by
  simp only [List.mem_append, List.mem_map] at he
  rcases he with ⟨l, hl, rfl⟩ | ⟨l, hl, rfl⟩
  · obtain ⟨hn, signed, he⟩ := exec_of_mem_loadTable hl
    exact ⟨hn, (he s).trans (loadOp_misaligned k hm signed)⟩
  · obtain ⟨hn, he⟩ := exec_of_mem_storeTable hl
    exact ⟨hn, (he s).trans (storeOp_misaligned k hm)⟩

/-- The fault 0x03 of a scalar access traps, and the fault CSRs tell its address, direction, size and kind (R140). -/
theorem scalarFault_misaligned_spec (s : State) (h : BitVec 1) (va : Word) (wr : Bool) {n : Nat}
    (hn : n ∈ [1, 2, 4, 8]) :
    ∃ u, s.scalarFault h 0x03 va 1 wr n = .next u ∧ s.OnlyHart h u ∧ (s.hart h).Entered 0x03 0 (u.hart h) ∧
      (u.hart h).csr.faddr = va ∧ (u.hart h).csr.fstride = 0 ∧ (u.hart h).csr.fremain = 1 ∧
      wf (u.hart h).csr.finfo 28 1 = b2n wr ∧ 2 ^ wf (u.hart h).csr.finfo 25 3 = n ∧
      wf (u.hart h).csr.finfo 20 5 = 1 := by
  obtain ⟨only, entered, faddr, hfi, fstride, fremain⟩ :=
    s.faulted_trapAt_spec h (cause := 0x03) va 1 wr (lg n) 0 0 1 (by decide)
  obtain ⟨hdir, hsize, hkind⟩ := wf_finfo 0 (lg n) 1 0 wr
  refine ⟨_, State.hartFault_of_not_parkable rfl, only, entered, faddr, fstride, fremain, ?_⟩
  rw [hfi]
  exact ⟨hdir, (congrArg (2 ^ ·) hsize).trans (two_pow_lg hn), hkind⟩

/-! ### Parkable faults -/

/-- The state in which hart `h` has parked on a fault, with its fault CSRs written, and the other hart has been told
(R101): what has changed of either hart and what stays. -/
theorem State.parked_told_spec (s : State) (h : BitVec 1) (cause : Nat) (va : Word) (kind : Nat) (wr : Bool)
    (size idx : Nat) (stride remain : Word) :
    let t := ((s.faulted h cause va kind wr size idx stride remain).park h cause none).setStatus (other h) 9 1 1
    (t.hart h).run = .parked none ∧ (t.hart h).pc = (s.hart h).pc ∧ (t.hart h).g = (s.hart h).g ∧
      (t.hart h).csr.epc = (s.hart h).pc ∧ (t.hart h).csr.cause = BitVec.ofNat 64 cause ∧ (t.hart h).csr.faddr = va ∧
      (t.hart h).csr.fstride = stride ∧ (t.hart h).csr.fremain = remain ∧ (t.hart h).pl = (s.hart h).pl ∧
      (t.hart h).ieOn = (s.hart h).ieOn ∧ (t.hart (other h)).parkedPeer = true ∧
      (t.hart (other h)).pc = (s.hart (other h)).pc ∧ t.core = s.core ∧ t.home = s.home := by
  intro t
  have own : t.hart h = ((s.hart h).withFault va
      (finfo (if cause = 0x11 then s.core.coreId.toNat else 0) wr size kind idx) stride remain).parkedOn cause none := by
    simp only [t, State.faulted_eq, State.park_eq, State.hart_setStatus_other, State.hart_setHart]
  have peer : (t.hart (other h)) = { s.hart (other h) with
      csr := { (s.hart (other h)).csr with status := wset (s.hart (other h)).csr.status 9 1 1 } } := by
    simp only [t, State.faulted_eq, State.park_eq, State.hart_setStatus, State.hart_setHart_other]
  rw [own, peer]
  refine ⟨rfl, rfl, rfl, rfl, rfl, rfl, rfl, rfl, Hart.pl_parkedOn _ _ _, Hart.ieOn_parkedOn _ _ _, ?_, rfl, ?_, ?_⟩
  · exact bit_wset_same _ 9 1 (by decide)
  · simp [t, State.setStatus, State.park_eq, State.faulted_eq]
  · simp [t, State.setStatus, State.park_eq, State.faulted_eq]

/-! ### The statement -/

/-- Settles O9: a misaligned access raises the fault 0x03, which is not parkable; a parkable fault parks its hart where
the other can serve and is an ordinary trap where it cannot. -/
theorem memoryFaults : Obligations.MemoryFaults := by
  unfold Obligations.MemoryFaults
  refine ⟨?_, fun h cause va stride remain kind size idx wr s hc hf => ⟨fun hs => ?_, fun hn => ?_⟩⟩
  · intro h d a i s k e he va hm
    obtain ⟨hn, hx⟩ := exec_misaligned k he hm
    rw [Completes, hx]
    exact scalarFault_misaligned_spec s h va e.2.2 hn
  · exact ⟨_, State.hartFault_of_canServe (parkable_of_mem hc) hf hs,
      s.parked_told_spec h cause va kind wr size idx stride remain⟩
  · have hp := parkable_of_mem hc
    obtain ⟨only, entered, faddr, -⟩ := s.faulted_trapAt_spec h va kind wr size idx stride remain (lt_of_parkable hp)
    exact ⟨_, State.hartFault_of_not_canServe hp hf (State.canServe_eq_false hn), only, entered, faddr,
      fun r => by rw [entered.run]; exact Run.noConfusion⟩

end Sys2Proof.Machine
end

section
/-! # Counts and reversals of bits, rotations, products, and the divider (R120, R122, R123)

What the model's recursions over numbers say bit by bit, that its quotients and remainders are those of bit vectors,
what a word of each scalar shape does in a hart, and the statement about them. -/

namespace Sys2Proof.Machine

/-! ### Counts of bits (CLZ, CTZ, POPC) -/

theorem highZeros_of_ne_zero {x n : Nat} (hx : x ≠ 0) : highZeros x n = n - 1 - x.log2 := if_neg hx

theorem highZeros_le (x n : Nat) : highZeros x n ≤ n := by
  unfold highZeros; split <;> omega

/-- The `highZeros x n` top bits of an `n`-bit number are clear. -/
theorem testBit_of_highZeros_le {x n k : Nat} (hb : x < 2 ^ n) (hk : n - highZeros x n ≤ k) :
    x.testBit k = false := by
  by_cases hx : x = 0
  · rw [hx, Nat.zero_testBit]
  · have hl : x.log2 < n := (Nat.log2_lt hx).2 hb
    rw [highZeros_of_ne_zero hx] at hk
    have above : x.log2 < k := by omega
    exact Nat.testBit_lt_two_pow ((Nat.log2_lt hx).1 above)

/-- The bit below the `highZeros x n` top bits of an `n`-bit number is set, where there is one. -/
theorem testBit_below_highZeros {x n : Nat} (hb : x < 2 ^ n) (h : highZeros x n < n) :
    x.testBit (n - 1 - highZeros x n) = true := by
  have hx : x ≠ 0 := by
    rintro rfl
    exact absurd h (by simp [highZeros])
  have hl : x.log2 < n := (Nat.log2_lt hx).2 hb
  rw [highZeros_of_ne_zero hx, show n - 1 - (n - 1 - x.log2) = x.log2 by omega, Nat.testBit_log2 hx]

theorem lowZeros_le (x n : Nat) : lowZeros x n ≤ n := by
  induction n generalizing x with
  | zero => exact Nat.le_refl 0
  | succ n ih =>
    have := ih (x / 2)
    unfold lowZeros; split <;> omega

/-- The `lowZeros x n` low bits of a number are clear. -/
theorem testBit_of_lt_lowZeros {x n k : Nat} (hk : k < lowZeros x n) : x.testBit k = false := by
  induction n generalizing x k with
  | zero => exact absurd hk (Nat.not_lt_zero k)
  | succ n ih =>
    by_cases hx : x % 2 = 1
    · rw [lowZeros, if_pos hx] at hk
      exact absurd hk (Nat.not_lt_zero k)
    · rw [lowZeros, if_neg hx] at hk
      cases k with
      | zero => rw [Nat.testBit_zero, decide_eq_false hx]
      | succ k => rw [Nat.testBit_succ]; exact ih (by omega)

/-- The bit above the `lowZeros x n` low bits is set, where there are fewer than `n`. -/
theorem testBit_lowZeros {x n : Nat} (h : lowZeros x n < n) : x.testBit (lowZeros x n) = true := by
  induction n generalizing x with
  | zero => exact absurd h (Nat.not_lt_zero _)
  | succ n ih =>
    by_cases hx : x % 2 = 1
    · rw [lowZeros, if_pos hx, Nat.testBit_zero, decide_eq_true hx]
    · rw [lowZeros, if_neg hx] at h ⊢
      rw [Nat.add_comm, Nat.testBit_succ]
      exact ih (by omega)

theorem popCount_eq_countP (x n : Nat) : popCount x n = (List.range n).countP x.testBit := by
  induction n generalizing x with
  | zero => rfl
  | succ n ih =>
    have tail : x.testBit ∘ Nat.succ = (x / 2).testBit := funext fun k => Nat.testBit_succ x k
    have low : x % 2 = if x.testBit 0 then 1 else 0 := by
      rw [Nat.testBit_zero]
      rcases Nat.mod_two_eq_zero_or_one x with e | e <;> rw [e] <;> rfl
    rw [popCount, List.range_succ_eq_map, List.countP_cons, List.countP_map, tail, ← ih, ← low, Nat.add_comm]

/-! ### Reversals (REV, BSWAP) -/

/-- The `n` digits of `w` bits of a number in reverse order. -/
def reverseDigits (w x : Nat) : Nat → Nat
  | 0 => 0
  | n + 1 => 2 ^ (w * n) * (x % 2 ^ w) + reverseDigits w (x / 2 ^ w) n

theorem reverseBits_eq_reverseDigits (x n : Nat) : reverseBits x n = reverseDigits 1 x n := by
  induction n generalizing x with
  | zero => rfl
  | succ n ih => rw [reverseBits, reverseDigits, ih, Nat.one_mul, Nat.pow_one, Nat.mul_comm]

theorem reverseBytes_eq_reverseDigits (x n : Nat) : reverseBytes x n = reverseDigits 8 x n := by
  induction n generalizing x with
  | zero => rfl
  | succ n ih =>
    have base : 256 ^ n = 2 ^ (8 * n) := (Nat.pow_mul 2 8 n).symm
    calc reverseBytes x (n + 1)
        = x % 256 * 2 ^ (8 * n) + reverseBytes (x / 256) n := congrArg (x % 256 * · + reverseBytes (x / 256) n) base
      _ = 2 ^ (8 * n) * (x % 256) + reverseDigits 8 (x / 256) n := by rw [ih, Nat.mul_comm (x % 256)]

theorem reverseDigits_lt (w x n : Nat) : reverseDigits w x n < 2 ^ (w * n) := by
  induction n generalizing x with
  | zero => exact Nat.one_pos
  | succ n ih =>
    have hd : x % 2 ^ w + 1 ≤ 2 ^ w := Nat.mod_lt x (Nat.two_pow_pos w)
    calc 2 ^ (w * n) * (x % 2 ^ w) + reverseDigits w (x / 2 ^ w) n
        < 2 ^ (w * n) * (x % 2 ^ w) + 2 ^ (w * n) := Nat.add_lt_add_left (ih _) _
      _ = 2 ^ (w * n) * (x % 2 ^ w + 1) := (Nat.mul_succ _ _).symm
      _ ≤ 2 ^ (w * n) * 2 ^ w := Nat.mul_le_mul_left _ hd
      _ = 2 ^ (w * (n + 1)) := by rw [← Nat.pow_add, Nat.mul_succ]

/-- Bit `j` of digit `k` of the reversed number is bit `j` of digit `n - 1 - k`. -/
theorem testBit_reverseDigits {w n k j : Nat} (x : Nat) (hk : k < n) (hj : j < w) :
    (reverseDigits w x n).testBit (w * k + j) = x.testBit (w * (n - 1 - k) + j) := by
  induction n generalizing x with
  | zero => exact absurd hk (Nat.not_lt_zero k)
  | succ n ih =>
    rw [reverseDigits, Nat.testBit_two_pow_mul_add _ (reverseDigits_lt w _ n)]
    rcases Nat.lt_succ_iff_lt_or_eq.1 hk with hlt | rfl
    · have inside : w * k + j < w * n :=
        calc w * k + j < w * k + w := Nat.add_lt_add_left hj _
          _ = w * (k + 1) := (Nat.mul_succ w k).symm
          _ ≤ w * n := Nat.mul_le_mul_left w hlt
      have next : n + 1 - 1 - k = n - 1 - k + 1 := by omega
      rw [if_pos inside, ih _ hlt, Nat.testBit_div_two_pow, next, Nat.mul_succ, Nat.add_right_comm]
    · rw [if_neg (by omega), Nat.add_sub_cancel_left, Nat.testBit_mod_two_pow, decide_eq_true hj, Bool.true_and,
        Nat.add_sub_cancel, Nat.sub_self, Nat.mul_zero, Nat.zero_add]

/-- R122: REV gives bit `63 - k` at bit `k`. -/
theorem getLsbD_word_reverseBits {k : Nat} (x : Word) (hk : k < 64) :
    (word (reverseBits x.toNat 64)).getLsbD k = x.getLsbD (63 - k) := by
  have e := testBit_reverseDigits x.toNat hk Nat.one_pos
  rw [← reverseBits_eq_reverseDigits, Nat.one_mul, Nat.add_zero, Nat.one_mul, Nat.add_zero] at e
  rw [word, BitVec.getLsbD_ofNat, decide_eq_true hk, Bool.true_and, e, BitVec.testBit_toNat]

/-- R122: BSWAP gives byte `7 - k` at byte `k`. -/
theorem getLsbD_word_reverseBytes {k j : Nat} (x : Word) (hk : k < 8) (hj : j < 8) :
    (word (reverseBytes x.toNat 8)).getLsbD (8 * k + j) = x.getLsbD (8 * (7 - k) + j) := by
  have e := testBit_reverseDigits x.toNat hk hj
  rw [← reverseBytes_eq_reverseDigits] at e
  have inside : 8 * k + j < 64 := by omega
  rw [word, BitVec.getLsbD_ofNat, decide_eq_true inside, Bool.true_and, e, BitVec.testBit_toNat]

/-! ### Quotients and remainders (R123) -/

/-- The quotient by zero (R123). -/
theorem quotient_by_zero : (0xFFFFFFFFFFFFFFFF : Word) = BitVec.allOnes 64 := by decide

theorem divSigned_eq (x y : Word) : divSigned x y = if y = 0 then BitVec.allOnes 64 else x.sdiv y := by
  have e : wordOfInt (x.toInt.tdiv y.toInt) = x.sdiv y :=
    BitVec.eq_of_toInt_eq (by rw [wordOfInt, BitVec.toInt_ofInt, BitVec.toInt_sdiv])
  rw [divSigned, e, quotient_by_zero]

theorem remSigned_eq (x y : Word) : remSigned x y = if y = 0 then x else x.srem y := by
  rw [remSigned, ← BitVec.toInt_srem, wordOfInt, BitVec.ofInt_toInt]

theorem divUnsigned_eq (x y : Word) : divUnsigned x y = if y = 0 then BitVec.allOnes 64 else x / y := by
  rw [divUnsigned, ← BitVec.toNat_udiv, word_toNat, quotient_by_zero]

theorem remUnsigned_eq (x y : Word) : remUnsigned x y = if y = 0 then x else x % y := by
  rw [remUnsigned, ← BitVec.toNat_umod, word_toNat]

/-! ### What a word of each shape does in a hart -/

section
variable {s : State} {h : BitVec 1} {d a b : BitVec 7} (k : s.Issues h [d, a, b]) {i : Instr}
include k

theorem writesNow_of_scalarUnary {f : Word → Word} (e : exec i s = scalarUnary d a f s) :
    WritesNow i s h d (f ((s.hart h).reg a.toNat)) :=
  writesNow_of_exec (e.trans (issue_of_issues k (by simp)))

theorem writesNow_of_scalarBinary {f : Word → Word → Word} (e : exec i s = scalarBinary d a b f s) :
    WritesNow i s h d (f ((s.hart h).reg a.toNat) ((s.hart h).reg b.toNat)) :=
  writesNow_of_exec (e.trans (issue_of_issues k (fun _ m => m)))

theorem writesLate_of_scalarLate {f : Word → Word → Word} (e : exec i s = scalarLate d a b f s) :
    WritesLate i s h d (f ((s.hart h).reg a.toNat) ((s.hart h).reg b.toNat)) 0 :=
  writesLate_of_exec (e.trans (issue_of_issues k (fun _ m => m)))

/-- R120: a divide that finds the divider free, at its hart's turn, takes it; one that finds it busy, or the other hart
before it, stays where it is and notes since when. -/
theorem divides_of_scalarDivide {f : Word → Word → Word} {v : Word} (e : exec i s = scalarDivide d a b f s)
    (hv : f ((s.hart h).reg a.toNat) ((s.hart h).reg b.toNat) = v) :
    (s.dividerBusy = false → s.dividerTurn h = true → WritesLate i s h d v 0 false true) ∧
    (s.dividerBusy = true ∨ s.dividerTurn h = false → Completes i s (fun t => s.OnlyHart h t ∧
      t.hart h = { s.hart h with waits := (t.hart h).waits } ∧ (t.hart h).waits.isSome = true)) := by
  have issued := e.trans (issue_of_issues k (fun _ m => m))
  refine ⟨fun free turn => hv ▸ writesLate_of_exec (issued.trans (if_neg ?_)), fun held => ?_⟩
  · rw [free, turn]
    exact Bool.false_ne_true
  · have stays : (s.dividerBusy || !s.dividerTurn h) = true := by
      rcases held with busy | turn
      · rw [busy, Bool.true_or]
      · rw [turn, Bool.not_false, Bool.or_true]
    refine ⟨_, issued.trans (if_pos stays), ?_, ?_, ?_⟩
    · rw [State.OnlyHart, State.hart_modHart, State.modHart_core]
      rcases hart_cases h with rfl | rfl <;> rfl
    · rw [State.hart_modHart]
    · simp only [State.hart_modHart, Option.isSome_some]

end

/-! ### The statement -/

/-- Settles O2: the recursions of the model count and reverse bit by bit, its quotients are those of bit vectors, and
the divider is taken or waited for. -/
theorem bitsAndProducts : Obligations.BitsAndProducts := by
  unfold Obligations.BitsAndProducts
  refine ⟨fun h d a b s k => ?_, fun h d a b s k => ?_, fun h d a b s k => ?_⟩
  · intro x y
    refine ⟨writesNow_of_scalarBinary k (exec_rotl ..), writesNow_of_scalarBinary k (exec_rotr ..),
      ⟨_, writesNow_of_scalarUnary k (exec_clz ..), highZeros_le _ _, fun j _ hj => ?_, fun hn => ?_⟩,
      ⟨_, writesNow_of_scalarUnary k (exec_ctz ..), lowZeros_le _ _, fun j hj => ?_, fun hn => ?_⟩, ?_,
      ⟨_, writesNow_of_scalarUnary k (exec_rev ..), fun j hj => ?_⟩,
      ⟨_, writesNow_of_scalarUnary k (exec_bswap ..), fun i j hi hj => ?_⟩⟩
    · exact testBit_of_highZeros_le x.isLt hj
    · exact testBit_below_highZeros x.isLt hn
    · exact testBit_of_lt_lowZeros hj
    · exact testBit_lowZeros hn
    · have popc := writesNow_of_scalarUnary k (exec_popc ..)
      rwa [popCount_eq_countP] at popc
    · exact getLsbD_word_reverseBits x hj
    · exact getLsbD_word_reverseBytes x hi hj
  · intro x y e he
    simp only [List.mem_cons, List.not_mem_nil, or_false] at he
    rcases he with rfl | rfl | rfl
    · exact writesLate_of_scalarLate k (exec_mul ..)
    · exact writesLate_of_scalarLate k (exec_mulh ..)
    · exact writesLate_of_scalarLate k (exec_mulhn ..)
  · intro x y e he
    simp only [List.mem_cons, List.not_mem_nil, or_false] at he
    rcases he with rfl | rfl | rfl | rfl
    · exact divides_of_scalarDivide k (exec_div ..) (divSigned_eq x y)
    · exact divides_of_scalarDivide k (exec_divn ..) (divUnsigned_eq x y)
    · exact divides_of_scalarDivide k (exec_rem ..) (remSigned_eq x y)
    · exact divides_of_scalarDivide k (exec_remn ..) (remUnsigned_eq x y)

end Sys2Proof.Machine
end

section
/-! # Reductions and the ways in which results arrive (R48, R51, R115, R116, R216, R218)

What the model's loops collect, the integers and floating-point values that they reduce to, how a word with a scalar
result begins and completes, what a hart has of a result that reaches it, and the statement about them. -/

namespace Sys2Proof.Machine

/-! ### Lists of the elements from START to VL − 1 -/

/-- A loop that conses what it keeps builds the reversed list of it. -/
theorem loop_cons_if {α : Type} (p : Nat → Bool) (g : Nat → α) (lo n : Nat) (l : List α) :
    loop (fun e l => if p e = true then g e :: l else l) lo n l =
      (((List.range' lo n).filter p).map g).reverse ++ l := by
  induction n generalizing lo l with
  | zero => rfl
  | succ n ih =>
    rw [loop, ih, List.range'_succ, List.filter_cons]
    split <;> simp

/-- What a property that holds from `lo` on keeps of the numbers below `n` lies between `lo` and `n`. -/
theorem filter_range_of_le {p : Nat → Bool} {lo : Nat} (n : Nat) (hp : ∀ e, p e = true → lo ≤ e) :
    (List.range n).filter p = (List.range' lo (n - lo)).filter p := by
  have below (m : Nat) (hm : m ≤ lo) : (List.range m).filter p = [] :=
    List.filter_eq_nil_iff.2 fun e he k => absurd (hp e k) (by have := List.mem_range.1 he; omega)
  rcases Nat.le_total n lo with h | h
  · rw [below n h, Nat.sub_eq_zero_of_le h]; rfl
  · have cut : List.range n = List.range lo ++ List.range' lo (n - lo) := by
      rw [List.range'_eq_map_range, ← List.range_add, Nat.add_sub_cancel' h]
    rw [cut, List.filter_append, below lo (Nat.le_refl lo), List.nil_append]

theorem ArrCtx.collect_eq {α : Type} (c : ArrCtx) {p : Nat → Bool} (g : Nat → α)
    (hp : ∀ e, p e = true → c.start ≤ e) :
    (c.over (fun e l => if p e = true then g e :: l else l) []).reverse = ((List.range c.vl).filter p).map g := by
  rw [ArrCtx.over, loop_cons_if, List.append_nil, List.reverse_reverse, filter_range_of_le c.vl hp]

theorem ArrCtx.start_le_of_active {c : ArrCtx} {m : Memory} {e : Nat} (h : c.active m e = true) : c.start ≤ e := by
  simp only [ArrCtx.active, ArrCtx.inRange, Bool.and_eq_true, decide_eq_true_eq] at h
  obtain ⟨⟨⟨start, -⟩, -⟩, -⟩ := h
  exact start

theorem ArrCtx.actives_eq (c : ArrCtx) (m : Memory) :
    c.actives m = ((List.range c.vl).filter (fun e => c.active m e)).map (fun e => c.get m c.w.a.toNat (width c.r.t1) e) :=
  c.collect_eq _ fun _ h => start_le_of_active h

theorem ArrCtx.marked_eq (c : ArrCtx) (m : Memory) :
    c.marked m = (List.range c.vl).filter (fun e => c.active m e && c.get m c.w.a.toNat 1 e == 1) := by
  refine (c.collect_eq id fun _ h => ?_).trans (List.map_id _)
  exact start_le_of_active (Bool.and_eq_true_iff.1 h).1

/-! ### Patterns of a type, and the integers that they stand for -/

theorem columnBits_lt (m : Memory) (way col row n : Nat) : columnBits m way col row n < 2 ^ n := by
  induction n generalizing row with
  | zero => exact Nat.one_pos
  | succ n ih =>
    have low : b2n (rowBit m way row col) < 2 := by cases rowBit m way row col <;> decide
    have := ih (row + 1)
    rw [columnBits, Nat.pow_succ]
    omega

theorem ArrCtx.get_lt (c : ArrCtx) (m : Memory) (g n e : Nat) : c.get m g n e < 2 ^ n := by
  unfold ArrCtx.get
  split
  · exact columnBits_lt ..
  · exact Nat.two_pow_pos n

theorem ArrCtx.lt_of_mem_actives {c : ArrCtx} {m : Memory} {x : Nat} (h : x ∈ c.actives m) : x < 2 ^ width c.r.t1 := by
  rw [ArrCtx.actives_eq] at h
  obtain ⟨e, -, rfl⟩ := List.mem_map.1 h
  exact c.get_lt m _ _ e

/-- The integer of a pattern of a signed type is its two's complement. -/
theorem sext_eq_intOf {t : Nat} (x : Nat) (ht : isSigned t = true) : sext x (width t) = intOf t x := by
  simp only [sext, intOf, ht, Bool.true_and, decide_eq_true_eq]
  split <;> split <;> omega

theorem intOf_of_unsigned {t x : Nat} (ht : isSigned t = false) (hx : x < 2 ^ width t) : intOf t x = x := by
  simp only [intOf, ht, Bool.false_and, Bool.false_eq_true, if_false, Nat.mod_eq_of_lt hx]

/-- A pattern extended as its type asks is its integer (R216). -/
theorem extend_eq {t x : Nat} (hx : x < 2 ^ width t) : extend t x = BitVec.ofInt 64 (intOf t x) := by
  unfold extend
  split
  · next ht => rw [wordOfInt, sext_eq_intOf x ht]
  · next ht => rw [intOf_of_unsigned (Bool.eq_false_iff.2 ht) hx, BitVec.ofInt_natCast, word]

/-- What VEXTR writes (R225): a signed element's integer, any other element's pattern. -/
theorem extend_eq_ite (t x : Nat) :
    extend t x = BitVec.ofInt 64 (if isSigned t = true then intOf t x else (x : Int)) := by
  unfold extend
  split
  · next ht => rw [wordOfInt, sext_eq_intOf x ht]
  · rw [BitVec.ofInt_natCast, word]

/-- The range of a signed type: half of its patterns stand for numbers below 0. -/
theorem two_pow_width_of_isSigned {t : Nat} (ht : isSigned t = true) : 2 ^ width t = 2 * 2 ^ (width t - 1) := by
  have integers : ∀ i : Fin 12, 0 < width i.val := by decide
  have hw : 0 < width t := by
    simp only [isSigned, isInt, Bool.and_eq_true, decide_eq_true_eq] at ht
    obtain ⟨hi, -⟩ := ht
    exact integers ⟨t, by omega⟩
  rw [← Nat.pow_succ', Nat.succ_eq_add_one, Nat.sub_add_cancel hw]

/-- Whether an integer lies in the range of a type (Table 02-2). -/
def InType (t : Nat) (z : Int) : Prop := intMin t ≤ z ∧ z ≤ intMax t

theorem intMin_le_intMax (t : Nat) : intMin t ≤ intMax t := by
  have h1 := Nat.two_pow_pos (width t - 1)
  have h2 := Nat.two_pow_pos (width t)
  unfold intMin intMax
  split <;> omega

theorem inType_intOf (t x : Nat) : InType t (intOf t x) := by
  have hm := Nat.mod_lt x (Nat.two_pow_pos (width t))
  unfold InType intMin intMax intOf
  cases ht : isSigned t with
  | true =>
    have := two_pow_width_of_isSigned ht
    simp only [if_true, Bool.true_and, decide_eq_true_eq]
    split <;> omega
  | false =>
    simp only [Bool.false_eq_true, if_false, Bool.false_and]
    omega

theorem wrapBits_lt (n : Nat) (z : Int) : wrapBits n z < 2 ^ n := by
  have hp := Nat.two_pow_pos n
  have := Int.emod_lt_of_pos z (b := ((2 ^ n : Nat) : Int)) (by omega)
  unfold wrapBits
  omega

/-- An integer of a type's range comes back from its pattern. -/
theorem intOf_wrapBits {t : Nat} {z : Int} (hz : InType t z) : intOf t (wrapBits (width t) z) = z := by
  have hp := Nat.two_pow_pos (width t)
  obtain ⟨lo, hi⟩ := hz
  unfold intMin at lo
  unfold intMax at hi
  rw [intOf, Nat.mod_eq_of_lt (wrapBits_lt (width t) z), wrapBits]
  cases ht : isSigned t with
  | true =>
    have := two_pow_width_of_isSigned ht
    simp only [ht, if_true] at lo hi
    simp only [Bool.true_and, decide_eq_true_eq]
    rcases Int.lt_or_le z 0 with hn | hn
    · have e : z % ((2 ^ width t : Nat) : Int) = z + (2 ^ width t : Nat) := by
        rw [← Int.add_emod_right, Int.emod_eq_of_lt (by omega) (by omega)]
      rw [e, if_pos (by omega)]
      omega
    · rw [Int.emod_eq_of_lt hn (by omega), if_neg (by omega)]
      omega
  | false =>
    simp only [ht, Bool.false_eq_true, if_false] at lo hi
    simp only [Bool.false_and, Bool.false_eq_true, if_false]
    rw [Int.emod_eq_of_lt lo (by omega)]
    omega

theorem extend_wrapBits {t : Nat} {z : Int} (hz : InType t z) :
    extend t (wrapBits (width t) z) = BitVec.ofInt 64 z := by
  rw [extend_eq (wrapBits_lt _ _), intOf_wrapBits hz]

/-! ### Integer reductions (R216) -/

/-- A least element, from the largest value of the type on, is in the type's range. -/
theorem inType_foldl_min (t : Nat) (l : List Nat) : InType t ((l.map (intOf t)).foldl min (intMax t)) := by
  refine List.foldlRecOn _ _ ⟨intMin_le_intMax t, Int.le_refl _⟩ fun b ⟨lo, hi⟩ a ha => ?_
  obtain ⟨x, -, rfl⟩ := List.mem_map.1 ha
  exact ⟨Int.le_min.2 ⟨lo, (inType_intOf t x).1⟩, Int.le_trans (Int.min_le_left ..) hi⟩

theorem inType_foldl_max (t : Nat) (l : List Nat) : InType t ((l.map (intOf t)).foldl max (intMin t)) := by
  refine List.foldlRecOn _ _ ⟨Int.le_refl _, intMin_le_intMax t⟩ fun b ⟨lo, hi⟩ a ha => ?_
  obtain ⟨x, -, rfl⟩ := List.mem_map.1 ha
  exact ⟨Int.le_trans lo (Int.le_max_left ..), Int.max_le.2 ⟨hi, (inType_intOf t x).2⟩⟩

section
variable {n : Nat} {l : List Nat} (hl : ∀ x ∈ l, x < 2 ^ n)
include hl

theorem foldl_and_lt : l.foldl (· &&& ·) (2 ^ n - 1) < 2 ^ n :=
  List.foldlRecOn (motive := (· < 2 ^ n)) _ _ (Nat.sub_lt (Nat.two_pow_pos n) Nat.one_pos) fun b _ a ha =>
    Nat.and_lt_two_pow b (hl a ha)

theorem foldl_or_lt : l.foldl (· ||| ·) 0 < 2 ^ n :=
  List.foldlRecOn (motive := (· < 2 ^ n)) _ _ (Nat.two_pow_pos n) fun _ hb a ha => Nat.or_lt_two_pow hb (hl a ha)

theorem foldl_xor_lt : l.foldl (· ^^^ ·) 0 < 2 ^ n :=
  List.foldlRecOn (motive := (· < 2 ^ n)) _ _ (Nat.two_pow_pos n) fun _ hb a ha => Nat.xor_lt_two_pow hb (hl a ha)

end

/-! ### The order of floating-point values (R34, R131) -/

/-- Below every number, among the numbers, or above them. -/
def Num.level : Num → Int
  | .inf true => -1
  | .inf false => 1
  | _ => 0

def Num.exponent : Num → Int
  | .fin _ _ e => e
  | _ => 0

/-- A finite value in units of 2^g. -/
def Num.units (g : Int) : Num → Int
  | .fin neg m e => (if neg then -1 else 1) * (alignTo m e g : Int)
  | _ => 0

/-- The order of the extended line, finite values being told in units of 2^g. -/
def Num.AtMost (g : Int) (x y : Num) : Prop := x.level < y.level ∨ (x.level = y.level ∧ x.units g ≤ y.units g)

/-- A value aligned to a lower exponent in smaller units. -/
theorem alignTo_of_le (m : Nat) {e f g : Int} (hg : g ≤ f) (hf : f ≤ e) :
    alignTo m e g = alignTo m e f * 2 ^ (f - g).toNat := by
  have split : (e - g).toNat = (e - f).toNat + (f - g).toNat := by omega
  rw [alignTo, alignTo, split, Nat.pow_add, Nat.mul_assoc]

theorem Num.units_of_le (neg : Bool) (m : Nat) {e f g : Int} (hg : g ≤ f) (hf : f ≤ e) :
    (Num.fin neg m e).units g = (Num.fin neg m e).units f * (2 ^ (f - g).toNat : Nat) := by
  simp only [Num.units, alignTo_of_le m hg hf, Int.natCast_mul, Int.mul_assoc]

/-- Whatever the units, the order is the same. -/
theorem Num.units_le_iff (a b : Bool) (m n : Nat) {e f g : Int} (he : g ≤ e) (hf : g ≤ f) :
    (Num.fin a m e).units g ≤ (Num.fin b n f).units g ↔
      (Num.fin a m e).units (min e f) ≤ (Num.fin b n f).units (min e f) := by
  have hg : g ≤ min e f := Int.le_min.2 ⟨he, hf⟩
  have pos : (0 : Int) < (2 ^ (min e f - g).toNat : Nat) := Int.natCast_pos.2 (Nat.two_pow_pos _)
  rw [Num.units_of_le a m hg (Int.min_le_left e f), Num.units_of_le b n hg (Int.min_le_right e f)]
  exact ⟨fun h => Int.le_of_mul_le_mul_right h pos, fun h => Int.mul_le_mul_of_nonneg_right h (Int.le_of_lt pos)⟩

theorem Num.cmp_swap (x y : Num) : Num.cmp y x = -Num.cmp x y := by
  match x, y with
  | .nan, .nan | .nan, .inf _ | .nan, .fin .. | .inf _, .nan | .fin .., .nan => rfl
  | .inf a, .inf b => cases a <;> cases b <;> rfl
  | .inf a, .fin .. => cases a <;> rfl
  | .fin .., .inf b => cases b <;> rfl
  | .fin a m e, .fin b n f =>
    simp only [Num.cmp, Int.min_comm f e]
    split <;> split <;> omega

/-- The comparison of the model is the order of the extended line, in units that are fine enough for both values. -/
theorem Num.cmp_nonpos_iff {x y : Num} {g : Int} (hx : x ≠ .nan) (hy : y ≠ .nan) (gx : g ≤ x.exponent)
    (gy : g ≤ y.exponent) : Num.cmp x y ≤ 0 ↔ Num.AtMost g x y := by
  match x, y with
  | .inf a, .inf b => cases a <;> cases b <;> simp [Num.cmp, Num.AtMost, Num.level, Num.units]
  | .inf a, .fin .. => cases a <;> simp [Num.cmp, Num.AtMost, Num.level]
  | .fin .., .inf b => cases b <;> simp [Num.cmp, Num.AtMost, Num.level]
  | .fin a m e, .fin b n f =>
    have same : Num.AtMost g (.fin a m e) (.fin b n f) ↔
        (Num.fin a m e).units (min e f) ≤ (Num.fin b n f).units (min e f) := by
      rw [← Num.units_le_iff a b m n (e := e) (f := f) gx gy]
      simp [Num.AtMost, Num.level]
    rw [same]
    simp only [Num.cmp, Num.units]
    split
    · omega
    · split <;> omega

/-! ### VFREDMAX and VFREDMIN (R131, R216) -/

/-- Of two values the one that is wanted, or one that compares equal. -/
def Num.Wanted (wantMax : Bool) (x y : Num) : Prop :=
  if wantMax = true then 0 ≤ Num.cmp x y else Num.cmp x y ≤ 0

theorem Num.wanted_max (x y : Num) : Num.Wanted true x y ↔ 0 ≤ Num.cmp x y := Iff.rfl

theorem Num.wanted_min (x y : Num) : Num.Wanted false x y ↔ Num.cmp x y ≤ 0 := Iff.rfl

theorem Num.wanted_iff (wantMax : Bool) (x y : Num) :
    Num.Wanted wantMax x y ↔ if wantMax = true then Num.cmp y x ≤ 0 else Num.cmp x y ≤ 0 := by
  rw [Num.Wanted, Num.cmp_swap x y]
  split <;> omega

theorem Num.Wanted.refl (wantMax : Bool) (x : Num) : Num.Wanted wantMax x x := by
  have := Num.cmp_swap x x
  rw [Num.wanted_iff]
  split <;> omega

theorem Num.cmp_nonpos_trans {x y z : Num} (hx : x ≠ .nan) (hy : y ≠ .nan) (hz : z ≠ .nan) (a : Num.cmp x y ≤ 0)
    (b : Num.cmp y z ≤ 0) : Num.cmp x z ≤ 0 := by
  have gx : min x.exponent (min y.exponent z.exponent) ≤ x.exponent := by omega
  have gy : min x.exponent (min y.exponent z.exponent) ≤ y.exponent := by omega
  have gz : min x.exponent (min y.exponent z.exponent) ≤ z.exponent := by omega
  rw [Num.cmp_nonpos_iff hx hy gx gy] at a
  rw [Num.cmp_nonpos_iff hy hz gy gz] at b
  rw [Num.cmp_nonpos_iff hx hz gx gz]
  unfold Num.AtMost at *
  omega

theorem Num.Wanted.trans {wantMax : Bool} {x y z : Num} (hx : x ≠ .nan) (hy : y ≠ .nan) (hz : z ≠ .nan)
    (a : Num.Wanted wantMax x y) (b : Num.Wanted wantMax y z) : Num.Wanted wantMax x z := by
  rw [Num.wanted_iff] at a b ⊢
  cases wantMax with
  | true => exact Num.cmp_nonpos_trans hz hy hx b a
  | false => exact Num.cmp_nonpos_trans hx hy hz a b

/-- VFMIN and VFMAX choose between two numbers by a sign that agrees with their comparison; it only orders the zeros
that compare equal (R131). -/
theorem minmaxF_eq (t : Nat) (wantMax : Bool) {a b : Nat} (ha : valF (ffmt t) a ≠ .nan) (hb : valF (ffmt t) b ≠ .nan) :
    ∃ c : Int, (c ≤ 0 → Num.cmp (valF (ffmt t) a) (valF (ffmt t) b) ≤ 0) ∧
      (0 ≤ c → 0 ≤ Num.cmp (valF (ffmt t) a) (valF (ffmt t) b)) ∧
      minmaxF t wantMax a b = if wantMax then (if c < 0 then b else a) else (if 0 < c then b else a) := by
  simp only [minmaxF]
  split
  · next h _ => exact absurd h ha
  · next h _ => exact absurd h ha
  · next h _ => exact absurd h hb
  · refine ⟨_, fun h => ?_, fun h => ?_, rfl⟩
    · split at h
      · next k => exact Int.le_of_eq k.1
      · exact h
    · split at h
      · next k => exact Int.le_of_eq k.1.symm
      · exact h

/-- Of two numbers VFMIN and VFMAX keep one that is wanted before the other. -/
theorem minmaxF_wanted (t : Nat) (wantMax : Bool) {a b : Nat} (ha : valF (ffmt t) a ≠ .nan)
    (hb : valF (ffmt t) b ≠ .nan) :
    (minmaxF t wantMax a b = a ∧ Num.Wanted wantMax (valF (ffmt t) a) (valF (ffmt t) b)) ∨
      (minmaxF t wantMax a b = b ∧ Num.Wanted wantMax (valF (ffmt t) b) (valF (ffmt t) a)) := by
  obtain ⟨c, low, high, e⟩ := minmaxF_eq t wantMax ha hb
  have swap := Num.cmp_swap (valF (ffmt t) a) (valF (ffmt t) b)
  rw [e]
  cases wantMax with
  | true =>
    rw [Num.wanted_max, Num.wanted_max, if_pos rfl]
    by_cases h : c < 0
    · have less := low (Int.le_of_lt h)
      exact .inr ⟨if_pos h, by omega⟩
    · exact .inl ⟨if_neg h, high (Int.not_lt.1 h)⟩
  | false =>
    rw [Num.wanted_min, Num.wanted_min, if_neg Bool.false_ne_true]
    by_cases h : 0 < c
    · have more := high (Int.le_of_lt h)
      exact .inr ⟨if_pos h, by omega⟩
    · exact .inl ⟨if_neg h, low (Int.not_lt.1 h)⟩

/-- A choice that keeps the better of two keeps the best of a list. -/
theorem foldl_best_of_choice {α : Type} {f : α → α → α} {P : α → Prop} {R : α → α → Prop}
    (choice : ∀ a b, P a → P b → (f a b = a ∧ R a b) ∨ (f a b = b ∧ R b a))
    (refl : ∀ a, P a → R a a) (trans : ∀ a b c, P a → P b → P c → R a b → R b c → R a c) {x : α} {xs : List α}
    (hl : ∀ y ∈ x :: xs, P y) :
    xs.foldl f x ∈ x :: xs ∧ ∀ y ∈ x :: xs, R (xs.foldl f x) y := by
  induction xs generalizing x with
  | nil => simpa using refl x (hl x (List.mem_singleton_self x))
  | cons b xs ih =>
    obtain ⟨hx, hbs⟩ := List.forall_mem_cons.1 hl
    obtain ⟨hb, hxs⟩ := List.forall_mem_cons.1 hbs
    rw [List.foldl_cons]
    rcases choice x b hx hb with ⟨kept, rxb⟩ | ⟨kept, rbx⟩
    · rw [kept]
      have hxxs : ∀ y ∈ x :: xs, P y := List.forall_mem_cons.2 ⟨hx, hxs⟩
      obtain ⟨mem, best⟩ := ih hxxs
      obtain ⟨bestx, bestxs⟩ := List.forall_mem_cons.1 best
      have bestb := trans _ _ _ (hxxs _ mem) hx hb bestx rxb
      refine ⟨?_, List.forall_mem_cons.2 ⟨bestx, List.forall_mem_cons.2 ⟨bestb, bestxs⟩⟩⟩
      exact List.cons_subset_cons x (List.subset_cons_self b xs) mem
    · rw [kept]
      obtain ⟨mem, best⟩ := ih hbs
      exact ⟨List.mem_cons_of_mem x mem,
        List.forall_mem_cons.2 ⟨trans _ _ _ (hbs _ mem) hb hx (List.forall_mem_cons.1 best).1 rbx, best⟩⟩

/-- What VFREDMAX and VFREDMIN write of the active patterns `l` (R216). -/
def FloatBest (t : Nat) (wantMax : Bool) (l : List Nat) (v : Word) : Prop :=
  if l = [] then v = if wantMax then 0xFF800000 else 0x7F800000
  else if ∀ x ∈ l, valF (ffmt t) x = .nan then v = 0x7FC00000
  else ∃ x ∈ l, valF (ffmt t) x ≠ .nan ∧ v = BitVec.ofNat 64 (roundF 0x16 0 0 false (valF (ffmt t) x)).1 ∧
    ∀ y ∈ l, valF (ffmt t) y ≠ .nan → Num.Wanted wantMax (valF (ffmt t) x) (valF (ffmt t) y)

theorem ArrCtx.reduceFloat_best (c : ArrCtx) (m : Memory) {wantMax : Bool} (hw : (c.w.op == .vfredmax) = wantMax) :
    FloatBest c.r.t1 wantMax (c.actives m) (c.reduceFloat m) := by
  simp only [FloatBest, ArrCtx.reduceFloat, hw]
  generalize c.actives m = l
  have mem (y : Nat) : y ∈ l.filter (fun x => valF (ffmt c.r.t1) x != .nan) ↔ y ∈ l ∧ valF (ffmt c.r.t1) y ≠ .nan := by
    rw [List.mem_filter, bne_iff_ne]
  cases hf : l.filter (fun x => valF (ffmt c.r.t1) x != .nan) with
  | nil =>
    have allNan : ∀ x ∈ l, valF (ffmt c.r.t1) x = .nan := fun x hx =>
      Decidable.byContradiction fun num => List.not_mem_nil (hf ▸ (mem x).2 ⟨hx, num⟩)
    rw [if_pos allNan]
    cases l <;> rfl
  | cons x xs =>
    rw [hf] at mem
    obtain ⟨kept, best⟩ := foldl_best_of_choice (f := minmaxF c.r.t1 wantMax) (xs := xs) (x := x)
      (P := fun y => valF (ffmt c.r.t1) y ≠ .nan)
      (R := fun y z => Num.Wanted wantMax (valF (ffmt c.r.t1) y) (valF (ffmt c.r.t1) z))
      (fun _ _ => minmaxF_wanted _ _) (fun _ _ => .refl _ _) (fun _ _ _ => .trans) (fun y hy => ((mem y).1 hy).2)
    obtain ⟨inl, num⟩ := (mem _).1 kept
    rw [if_neg (List.ne_nil_of_mem inl), if_neg fun allNan => num (allNan _ inl)]
    exact ⟨_, inl, num, rfl, fun y hy ny => best y ((mem y).2 ⟨hy, ny⟩)⟩

/-! ### A word of the array begins (R148, R171) -/

/-- A beat of the layer bus changes what counts it and the free values, nothing else (R278). -/
theorem State.beat_eq (s : State) : s.beat = { s with
    core := { s.core with pcnt := s.beat.core.pcnt, lastGrant := s.beat.core.lastGrant }
    free := s.beat.free } := by
  simp only [State.beat, State.draw]
  repeat' split
  all_goals rfl

/-- A crossing between the dies leaves the rows, the generators and the queue of the array as they are. -/
theorem State.crossed_core (s : State) (q : QEntry) : (s.crossed q).core = { s.core with
    pcnt := (s.crossed q).core.pcnt, lastGrant := (s.crossed q).core.lastGrant } := by
  simp only [State.crossed, State.crossings, State.beats, List.range_one, List.foldl_cons, List.foldl_nil]
  split
  · split
    · rw [State.heat_eq]; rfl
    · rw [State.beat_eq]
  · rfl

theorem State.ite_crossing (s : State) (q : QEntry) : (if s.crossing q then s.crossings 1 else s) = s.crossed q := rfl

theorem space_of_scalarResult {op : ArrOp} (h : op.scalarResult = true) : op.space = none := by
  cases op <;> simp [ArrOp.scalarResult, ArrOp.space] at h ⊢

theorem ArrCtx.run_rows_of_scalarResult {c : ArrCtx} (h : c.w.op.scalarResult = true) (m : Memory) (gens : Store 16) :
    (c.run m gens).1.m = m := by
  cases hop : c.w.op <;> simp [hop, ArrOp.scalarResult] at h <;> simp only [ArrCtx.run, hop]

/-- The entry of a word with a scalar result, once it has begun. -/
def State.begunEntry (s : State) (q : QEntry) : QEntry :=
  let p := if q.ran = 0 then (s.crossed q).withLength q else q
  let a := (s.ctx q).run s.core.sram s.core.gens
  { p with stage := .begun, flags := p.flags ||| a.1.fl, value := a.2 }

/-- A begun entry is the queued one but for its stage and what completion does. -/
theorem State.begunEntry_eq (s : State) (q : QEntry) : s.begunEntry q = { q with
    stage := .begun, flags := (s.begunEntry q).flags, value := (s.begunEntry q).value
    steps := (s.begunEntry q).steps, skips := (s.begunEntry q).skips } := by
  simp only [State.begunEntry]
  split <;> rfl

section
variable {k : Nat} {q : QEntry} {s : State} (hq : s.core.queue[k]? = some q) (hb : s.mayBegin k q = true)
  (hr : q.w.op.scalarResult = true)
include hq hb hr

theorem execArrayInstructionBegin_of_scalarResult :
    execArrayInstructionBegin k s = .next { s.crossed q with core := { (s.crossed q).core with
      sram := s.core.sram, gens := ((s.ctx q).run s.core.sram s.core.gens).1.gens
      queue := s.core.queue.set k (s.begunEntry q) } } := by
  have queue : (s.crossed q).core.queue = s.core.queue := by rw [State.crossed_core]
  have sram : (s.crossed q).core.sram = s.core.sram := by rw [State.crossed_core]
  have gens : (s.crossed q).core.gens = s.core.gens := by rw [State.crossed_core]
  have rows := ArrCtx.run_rows_of_scalarResult (c := s.ctx q) hr s.core.sram s.core.gens
  simp only [execArrayInstructionBegin, hq, hb, Bool.not_true, Bool.false_eq_true, if_false]
  split
  · next h => rw [h] at hr; cases hr
  · next h => rw [h] at hr; cases hr
  · next h => rw [h] at hr; cases hr
  · next h => rw [h] at hr; cases hr
  · simp only [space_of_scalarResult hr, Option.isSome_none, Bool.false_eq_true, if_false, State.ite_crossing,
      State.setEntry, queue, sram, gens, rows]
    rfl

/-- A word with a scalar result begins in one step, which changes no row; the value that it will send is that of `run`. -/
theorem completes_begin_of_scalarResult :
    Completes (.arrayInstructionBegin k) s (fun t => s.BeginsOnly k t ∧ t.core.sram = s.core.sram ∧
      ∃ r, t.core.queue[k]? = some r ∧ r.value = ((s.ctx q).run s.core.sram s.core.gens).2) := by
  obtain ⟨hk, -⟩ := List.getElem?_eq_some_iff.1 hq
  exact ⟨_, execArrayInstructionBegin_of_scalarResult hq hb hr,
    ⟨s.begunEntry q, q, hq, rfl, rfl, s.begunEntry_eq q⟩, rfl, s.begunEntry q, List.getElem?_set_self hk, rfl⟩

end

/-! ### A result reaches its register (R48, R115, R116, R135) -/

/-- A hart whose FLAGS have merged `fl`, with `v` in register `r`, whose pending bit has gone where `last` says so. -/
def Hart.received (x : Hart) (fl : BitVec 6) (r : Nat) (v : Word) (last : Bool) : Hart :=
  { x with
    g := (x.setReg r v).g
    csr := { x.csr with flags := x.csr.flags ||| fl.zeroExtend 64 }
    pending := if last then BitVec.ofNat 64 (setBits x.pending.toNat r 1 0) else x.pending }

section
variable (x : Hart) (fl : BitVec 6) (r : Nat) (v : Word) (last : Bool)

/-- A register written after flags have been merged. -/
theorem Hart.setReg_received : (x.received fl 0 0 false).setReg r v = x.received fl r v false := by
  have g : ((x.received fl 0 0 false).setReg r v).g = (x.setReg r v).g := by
    unfold Hart.setReg
    split <;> rfl
  rw [Hart.setReg_eq, g]
  rfl

theorem Hart.reg_received (i : Nat) : (x.received fl r v last).reg i = if i = r ∧ i ≠ 0 then v else x.reg i := by
  refine (Hart.reg_setReg x r i v).trans ?_
  by_cases h0 : i = 0 <;> simp [h0]

theorem Hart.isPending_received {i : Nat} (hi : i < 64) :
    (x.received fl r v last).isPending i = (x.isPending i && (decide (i ≠ r) || !last)) := by
  cases last with
  | false => simp [Hart.received, Hart.isPending]
  | true =>
    have cleared : (setBits x.pending.toNat r 1 0).testBit i = (x.pending.toNat.testBit i && decide (i ≠ r)) := by
      rw [testBit_setBits]
      rcases Nat.lt_trichotomy i r with h | rfl | h
      · rw [if_pos h, decide_eq_true (Nat.ne_of_lt h), Bool.and_true]
      · rw [if_neg (Nat.lt_irrefl i), if_pos (Nat.lt_succ_self i), Nat.zero_testBit, decide_eq_false (fun h => h rfl),
          Bool.and_false]
      · rw [if_neg (Nat.lt_asymm h), if_neg (by omega), decide_eq_true (Nat.ne_of_gt h), Bool.and_true]
    simp only [Hart.received, Hart.isPending, if_true, bit_eq_testBit, BitVec.toNat_ofNat, Nat.testBit_mod_two_pow,
      decide_eq_true hi, cleared, Bool.true_and, Bool.not_true, Bool.or_false, Bool.and_assoc]

/-- Only what is the last to write a register clears its pending bit; g0 has none (R61, R116). -/
theorem Hart.isPending_received_unless {i : Nat} (hi : i < 64) {d : BitVec 6} {more : Bool} (hm : d = 0 → more = false) :
    (x.received fl d.toNat v (d != 0 && !more)).isPending i = (x.isPending i && (decide (i ≠ d.toNat) || more)) := by
  rw [Hart.isPending_received x fl _ v _ hi]
  by_cases hd : d = 0
  · rw [hm hd, hd]
    by_cases h0 : i = 0
    · simp [h0, Hart.isPending]
    · simp [h0]
  · rw [bne_iff_ne.2 hd, Bool.true_and, Bool.not_not]

end

section
variable (s : State) (h : BitVec 1) (fl : BitVec 6) (r : Nat) (v : Word)

/-- Merged flags alone are a result for no register. -/
theorem State.mergeFlags_eq : s.mergeFlags h fl = s.setHart h ((s.hart h).received fl 0 0 false) := rfl

@[simp] theorem State.mergeFlags_core : (s.mergeFlags h fl).core = s.core := s.modCsr_core h _

theorem State.writeReg_mergeFlags :
    (s.mergeFlags h fl).writeReg h r v = s.setHart h ((s.hart h).received fl r v false) := by
  rw [State.mergeFlags_eq, State.writeReg, State.modHart, State.hart_setHart, State.setHart_setHart,
    Hart.setReg_received]

theorem State.arrive_mergeFlags : (s.mergeFlags h fl).arrive h r v = s.setHart h ((s.hart h).received fl r v true) := by
  rw [State.mergeFlags_eq, State.arrive, State.modHart, State.hart_setHart, State.setHart_setHart, Hart.setReg_received]
  rfl

theorem State.mergeFlags_arrive : (s.arrive h r v).mergeFlags h fl = s.setHart h ((s.hart h).received fl r v true) := by
  rw [State.mergeFlags_eq, State.arrive, State.modHart, State.hart_setHart, State.setHart_setHart, Hart.setReg_eq]
  rfl

/-- A value that arrives without flags leaves FLAGS as they are. -/
theorem State.arrive_eq : s.arrive h r v = s.setHart h ((s.hart h).received 0 r v true) := by
  rw [State.arrive, State.modHart, Hart.setReg_eq]
  simp [Hart.received]

end

/-! ### A begun word completes (R51, R116, R118, R172) -/

/-- The state without entry `k` of the array issue queue. -/
def State.withoutEntry (s : State) (k : Nat) : State :=
  { s with core := { s.core with queue := s.core.queue.eraseIdx k } }

theorem QEntry.any_sameDest_of_dest_zero {q : QEntry} (h : q.dest = 0) (l : List QEntry) : l.any q.sameDest = false := by
  simp [QEntry.sameDest, h]

section
variable {k : Nat} {q : QEntry} {s : State} (hq : s.core.queue[k]? = some q) (hs : q.stage = .begun)
  (hd : (s.core.queue.take k).any q.sameDest = false)
include hq hs hd

theorem execArrayInstructionComplete_of_begun :
    execArrayInstructionComplete k s = .next ((((s.withoutEntry k).setHart q.hart ((s.hart q.hart).received q.flags
      q.dest.toNat q.value (q.dest != 0 && !(s.core.queue.eraseIdx k).any q.sameDest))).count
        q.hart 0x03 q.steps).count q.hart 0x04 q.skips) := by
  simp only [execArrayInstructionComplete, hq, hs, hd, ne_eq, not_true_eq_false, decide_false, Bool.or_false,
    Bool.false_eq_true, if_false, State.mergeFlags_core]
  refine congrArg (fun t : State => (.next ((t.count q.hart 0x03 q.steps).count q.hart 0x04 q.skips) : Result)) ?_
  split
  · next h0 => rw [h0]; rfl
  · next h0 =>
    rw [bne_iff_ne.2 h0, Bool.true_and]
    split
    · next more => rw [more]; exact State.writeReg_mergeFlags ..
    · next done => rw [Bool.eq_false_iff.2 done]; exact State.arrive_mergeFlags ..

end

/-- Counting events of a hart that has become `y` changes its performance counters alone. -/
theorem State.setHart_count_count (s : State) (h : BitVec 1) (y : Hart) (a b m n : Nat) :
    let t := ((s.setHart h y).count h a m).count h b n
    s.OnlyHart h t ∧ (t.hart h).csr = { y.csr with pcnt := (t.hart h).csr.pcnt } ∧
      (∀ r, (t.hart h).reg r = y.reg r) ∧ ∀ r, (t.hart h).isPending r = y.isPending r := by
  refine ⟨?_, ?_⟩
  · rcases hart_cases h with rfl | rfl <;> rfl
  · rw [State.hart_count, State.hart_count, State.hart_setHart]
    exact ⟨rfl, fun _ => rfl, fun _ => rfl⟩

/-- Where only a hart has changed beside the core: what the core has become, and that nothing else has changed. -/
theorem State.OnlyHart.with_core {s t : State} {c : CoreState} {h : BitVec 1}
    (only : ({ s with core := c } : State).OnlyHart h t) :
    t.core = { c with pcnt := t.core.pcnt } ∧ ({ s with core := t.core }).OnlyHart h t := by
  have core : t.core = { c with pcnt := t.core.pcnt } := congrArg State.core only
  refine ⟨core, ?_⟩
  rw [State.OnlyHart, core]
  rcases hart_cases h with rfl | rfl <;> exact only

/-! ### What is on its way arrives (R115, R118, R246) -/

theorem execScalarResultArrival_of_late {h : BitVec 1} {r : BitVec 6} {k : Nat} {e : Late} {s : State}
    (hk : (s.hart h).late.findIdx? (fun e => e.reg == r) = some k) (he : (s.hart h).late[k]? = some e) :
    execScalarResultArrival h r s = .next (s.setHart h
      (Hart.received { s.hart h with late := (s.hart h).late.eraseIdx k } e.flags r.toNat e.val (r != 0))) := by
  simp only [execScalarResultArrival, hk, he]
  refine congrArg (fun t : State => (.next t : Result)) ?_
  split
  · next h0 =>
    rw [h0, State.mergeFlags_eq, State.hart_modHart, State.modHart, State.setHart_setHart]
    rfl
  · next h0 =>
    rw [bne_iff_ne.2 h0, State.mergeFlags_arrive, State.hart_modHart, State.modHart, State.setHart_setHart]

theorem execScalarResultArrival_of_answer {h : BitVec 1} {r : BitVec 6} {a : MtAnswer} {s : State}
    (hl : (s.hart h).late.findIdx? (fun e => e.reg == r) = none)
    (ha : s.core.answers.find? (fun a => a.hart == h && a.reg == r) = some a) (hr : s.answerReady a = true) :
    execScalarResultArrival h r s = .next
      (({ s with core := { s.core with answers := s.core.answers.filter (· != a) } }).setHart h
        ((s.hart h).received 0 r.toNat (s.mtAnswer a.num.toNat a.m) true)) := by
  simp only [execScalarResultArrival, hl, ha, hr, Bool.not_true, Bool.false_eq_true, if_false, State.arrive_eq,
    State.hart_core]

/-! ### The values of the reductions -/

section
variable (c : ArrCtx) (m : Memory) (gens : Store 16)

theorem ArrCtx.run_vredsum (h : c.w.op = .vredsum) :
    (c.run m gens).2 = BitVec.ofInt 64 ((c.actives m).map (intOf c.r.t1)).sum := by
  simp only [ArrCtx.run, ArrCtx.reduceInt, h, wordOfInt, List.sum_eq_foldl, List.foldl_map]

theorem ArrCtx.run_vredmin (h : c.w.op = .vredmin) :
    (c.run m gens).2 = BitVec.ofInt 64 (((c.actives m).map (intOf c.r.t1)).foldl min (intMax c.r.t1)) := by
  rw [← extend_wrapBits (inType_foldl_min ..), List.foldl_map]
  simp only [ArrCtx.run, ArrCtx.reduceInt, h]

theorem ArrCtx.run_vredmax (h : c.w.op = .vredmax) :
    (c.run m gens).2 = BitVec.ofInt 64 (((c.actives m).map (intOf c.r.t1)).foldl max (intMin c.r.t1)) := by
  rw [← extend_wrapBits (inType_foldl_max ..), List.foldl_map]
  simp only [ArrCtx.run, ArrCtx.reduceInt, h]

theorem ArrCtx.run_vredand (h : c.w.op = .vredand) :
    (c.run m gens).2 = BitVec.ofInt 64 (intOf c.r.t1 ((c.actives m).foldl (· &&& ·) (2 ^ width c.r.t1 - 1))) := by
  simp only [ArrCtx.run, ArrCtx.reduceInt, h, extend_eq (foldl_and_lt fun _ => lt_of_mem_actives)]

theorem ArrCtx.run_vredor (h : c.w.op = .vredor) :
    (c.run m gens).2 = BitVec.ofInt 64 (intOf c.r.t1 ((c.actives m).foldl (· ||| ·) 0)) := by
  simp only [ArrCtx.run, ArrCtx.reduceInt, h, extend_eq (foldl_or_lt fun _ => lt_of_mem_actives)]

theorem ArrCtx.run_vredxor (h : c.w.op = .vredxor) :
    (c.run m gens).2 = BitVec.ofInt 64 (intOf c.r.t1 ((c.actives m).foldl (· ^^^ ·) 0)) := by
  simp only [ArrCtx.run, ArrCtx.reduceInt, h, extend_eq (foldl_xor_lt fun _ => lt_of_mem_actives)]

theorem ArrCtx.run_vfredmax (h : c.w.op = .vfredmax) :
    FloatBest c.r.t1 true (c.actives m) (c.run m gens).2 := by
  simpa only [ArrCtx.run, h] using c.reduceFloat_best m (by rw [h]; rfl)

theorem ArrCtx.run_vfredmin (h : c.w.op = .vfredmin) :
    FloatBest c.r.t1 false (c.actives m) (c.run m gens).2 := by
  simpa only [ArrCtx.run, h] using c.reduceFloat_best m (by rw [h]; rfl)

theorem ArrCtx.run_vfredsum (h : c.w.op = .vfredsum) : (c.run m gens).2 = (c.fredsum m).1 := by
  simp only [ArrCtx.run, h]

theorem ArrCtx.run_vmpopc (h : c.w.op = .vmpopc) : (c.run m gens).2 = word (c.marked m).length := by
  simp only [ArrCtx.run, h]

/-- VMFIRST gives the least marked element, all ones when there is none (R218). -/
theorem ArrCtx.run_vmfirst (h : c.w.op = .vmfirst) : (c.run m gens).2 = match c.marked m with
    | [] => 0xFFFFFFFFFFFFFFFF
    | e :: _ => BitVec.ofNat 64 e := by
  simp only [ArrCtx.run, h]
  cases c.marked m <;> rfl

theorem ArrCtx.run_vextr (h : c.w.op = .vextr) : (c.run m gens).2 =
    if c.x0.toNat < c.vl then extend c.r.t1 (c.src m c.x0.toNat) else 0 := by
  simp only [ArrCtx.run, h]

end

/-! ### The statement -/

/-- Settles O28: the model's folds over the active elements are the reductions, its order of values is total, and a
result merges its flags and reaches its register whichever way it comes. -/
theorem arrayReductions : Obligations.ArrayReductions := by
  unfold Obligations.ArrayReductions
  refine ⟨fun k q s hq hb => ?_, fun k q s hq hs hd => ?_, fun h r k e s hk he => ?_, fun h r a s hl ha hr h0 => ?_⟩
  · intro c m t1 l marks best e he hop _
    have hl : c.actives m = l := c.actives_eq m
    have hm : c.marked m = marks := c.marked_eq m
    simp only [List.mem_cons, List.not_mem_nil, or_false] at he
    have hsr : q.w.op.scalarResult = true := by
      rw [hop]
      rcases he with rfl | rfl | rfl | rfl | rfl | rfl | rfl | rfl | rfl | rfl | rfl | rfl <;> rfl
    obtain ⟨t, ht, begins, rows, r, hr, value⟩ := completes_begin_of_scalarResult hq hb hsr
    refine ⟨t, ht, begins, rows, r, hr, ?_⟩
    rw [value]
    rcases he with rfl | rfl | rfl | rfl | rfl | rfl | rfl | rfl | rfl | rfl | rfl | rfl
    · exact hl ▸ c.run_vredsum m _ hop
    · exact hl ▸ c.run_vredmin m _ hop
    · exact hl ▸ c.run_vredmax m _ hop
    · exact hl ▸ c.run_vredand m _ hop
    · exact hl ▸ c.run_vredor m _ hop
    · exact hl ▸ c.run_vredxor m _ hop
    · exact hm ▸ c.run_vmpopc m _ hop
    · exact hm ▸ c.run_vmfirst m _ hop
    · exact (hl ▸ c.run_vfredmax m _ hop : FloatBest t1 true l _)
    · exact (hl ▸ c.run_vfredmin m _ hop : FloatBest t1 false l _)
    · exact c.run_vfredsum m _ hop
    · exact (c.run_vextr m _ hop).trans (by rw [extend_eq_ite]; rfl)
  · obtain ⟨only, csr, reg, pending⟩ := (s.withoutEntry k).setHart_count_count q.hart ((s.hart q.hart).received q.flags
      q.dest.toNat q.value (q.dest != 0 && !(s.core.queue.eraseIdx k).any q.sameDest)) 0x03 0x04 q.steps q.skips
    obtain ⟨core, hart⟩ := only.with_core
    refine ⟨_, execArrayInstructionComplete_of_begun hq hs hd, core, hart, csr, fun r => ?_, fun r hr => ?_⟩
    · exact (reg r).trans (Hart.reg_received ..)
    · exact (pending r).trans (Hart.isPending_received_unless _ _ _ hr fun h => QEntry.any_sameDest_of_dest_zero h _)
  · refine ⟨_, execScalarResultArrival_of_late hk he, ?_, ?_⟩
    · rcases hart_cases h with rfl | rfl <;> rfl
    · rw [State.hart_setHart]
      refine ⟨rfl, rfl, rfl, fun i => Hart.reg_received _ e.flags _ _ _ i, fun i hi => ?_⟩
      have p := Hart.isPending_received_unless { s.hart h with late := (s.hart h).late.eraseIdx k } e.flags e.val hi
        (d := r) (more := false) fun _ => rfl
      rwa [Bool.not_false, Bool.and_true, Bool.or_false] at p
  · have r0 : r.toNat ≠ 0 := fun e => h0 (BitVec.eq_of_toNat_eq e)
    refine ⟨_, execScalarResultArrival_of_answer hl ha hr, fun i => ?_, ?_, ?_, State.hart_setHart_other ..,
      State.setHart_home .., ?_⟩
    · rw [State.hart_setHart, Hart.reg_received]
      by_cases e : i = r.toNat <;> simp [e, r0]
    · rw [State.hart_setHart, Hart.isPending_received _ _ _ _ _ r.isLt]
      simp
    · rw [State.setHart_core]
      simp
    · rw [State.setHart_core]

end Sys2Proof.Machine
end
